-- ==== Sys2Proof/Word.lean ====
section
/-! DEFINITION. The word types and their plainest arithmetic (64-bit words, bytes, tick numbers). -/

namespace Sys2Proof

/-- A 64-bit register or memory word (R6, R7). -/
abbrev Word := BitVec 64

/-- One byte of memory. -/
abbrev Byte := BitVec 8

/-- A stored FP32 value (R142). -/
abbrev F32 := BitVec 32

end Sys2Proof
end

