-- ==== Sys2Proof/Syntax.lean ====
section
/-! DEFINITION. The commands of the block: one constructor per row of spec/opcode_table.json, and their operand types. -/

namespace Sys2Proof

/-- Who reaches the register space (R478). -/
inductive Agent where
  | hostDie | firmware | management
deriving DecidableEq, Repr

/-- The tables of R29, in the order TABLE_INVALIDATE numbers them (R386). -/
inductive Table where
  | ctxt | extt | pkt | rtt | domt | prgt | tft | slt
deriving DecidableEq, Repr

/-- A command-ring entry as the driver writes it (R382), without its opcode, and the ring it came from. -/
structure Entry where
  ring  : Fin 4
  flags : Byte
  arg   : BitVec 16
  tag   : BitVec 32
  w1 : Word
  w2 : Word
  w3 : Word
  w4 : Word
  w5 : Word
  w6 : Word
  w7 : Word
deriving DecidableEq, Repr

/-- The two ways the driver asks XLT for something (R206, R207): a ring command, or a write of `value`
to the XLT page of `tile`. -/
inductive XltReq where
  | ring (e : Entry)
  | reg (tile : Fin 4) (value : Word)
deriving DecidableEq, Repr

/-- The rings firmware produces (R376). -/
inductive RingId where
  | cpl (i : Fin 4)
  | evt | log | trc
deriving DecidableEq, Repr

/-- The CFG registers of the rings: one per command pair, and one for each other ring (R401). -/
inductive CfgId where
  | pair (i : Fin 4)
  | evt | log | trc
deriving DecidableEq, Repr

/-- The BASE registers of the rings (R401). -/
inductive BaseId where
  | cmd (i : Fin 4)
  | cpl (i : Fin 4)
  | evt | log | trc
deriving DecidableEq, Repr

/-- A Vekesan packet as it stands on the wire (R299 to R302): the header fields, the payload bytes received,
the poison map of its segments and the end CRC. -/
structure Packet where
  dst      : BitVec 20
  src      : BitVec 20
  ctxid    : BitVec 16
  opcode   : Byte
  length   : BitVec 14
  vc       : BitVec 3
  ordered  : Bool
  poisoned : Bool
  tag      : BitVec 12
  osf      : BitVec 32
  payload  : List Byte
  segPoison : BitVec 32
  endCrc   : BitVec 32
  /-- The reserved bit 19 of header word 1, which the end CRC covers. -/
  rsv      : Bool := false
deriving DecidableEq, Repr

/-- A link block (R327): the header fields and the 248 body bytes. -/
structure Block where
  seq    : BitVec 12
  ack    : BitVec 12
  vc     : BitVec 3
  sop    : Bool
  type   : BitVec 4
  poison : BitVec 2
  xoff   : BitVec 8
  crc    : BitVec 16
  body   : List Byte
deriving DecidableEq, Repr

/-- An event to post (R392). -/
structure EventRec where
  block    : Byte
  inst' : Byte
  code     : BitVec 16
  arg0     : Word
  arg1     : Word
deriving DecidableEq, Repr

/-- A log record to write (R394). -/
structure LogRec where
  severity : BitVec 3
  block    : Byte
  inst' : Byte
  code     : BitVec 16
  core     : Fin 8
  args     : List Word
deriving DecidableEq, Repr

/-- Bits of one stored line that the surroundings flip: in its 256 data bytes (byte, flipped bits) and in its metadata (R250). Log 134. -/
structure Upset where
  line   : Nat
  data   : List (Fin 256 × BitVec 8)
  crc    : BitVec 32
  poison : Bool
  format : BitVec 4
  mirror : Bool
  rsv    : BitVec 26 := 0
deriving DecidableEq, Repr

/-- A cached entry that takes a parity error (R426): a route of a slice and bank, a program of a unit (a physical core, or 136 plus the
tile for a Headgate) by bank times 1,024 plus number, a table line of a tile's Headgate, the entry at a place in the list of a
tiles' walk caches followed by the cores' leaf caches, or a line of a directory frame. -/
inductive Cached where
  | route (tile : Fin 4) (bank : Bool) (eid : BitVec 20)
  | program (unit' : Fin 140) (entry : Fin 2048)
  | table (tile : Fin 4) (line : Nat)
  | pte (place : Nat)
  | directory (line : Nat)
deriving DecidableEq, Repr

/-- What the surroundings show the device at a tick boundary: the averaged sense inputs in mV and in units of
10 mA (R225), the bit upsets of stored lines, the parity errors of cached entries (R426), the logical cores that run past their reserved
engine-cycles in the tick that begins (R115), and what each port has received in the tick that ends: the symbols that FEC has corrected, by lane,
and codewords (R324). -/
structure TickEnv where
  vsenseMv : Nat
  isense10mA : Int
  upsets   : List Upset
  parity   : List Cached := []
  overruns : List (Fin 128) := []
  symbols  : List (Fin 32 × Fin 8 × Nat) := []
  codewords : List (Fin 32 × Nat) := []
deriving DecidableEq, Repr

/-- What one PMBus poll returned (R224); `ok` false: a transaction failed. -/
structure PmbusSample where
  ok     : Bool
  status : BitVec 16
  vinMv  : Nat
  iin10mA : Int
  tempC  : Int
  /-- Transactions of a failed poll that failed: at least one of its four. -/
  failed : Fin 5 := 1
deriving DecidableEq, Repr

/-- The temperatures of one THM sample (R495), in signed degrees; -128 stands for a failed sensor. -/
structure Sensors where
  tile  : List Int
  hbm   : List Int
  flash : List Int
  host  : Int
deriving DecidableEq, Repr

/-- One byte lane and direction as a training sweep found it (R246): bit i of `taps` says that tap i passes. -/
structure LaneEye where
  lane  : Fin 256
  dir   : Bool
  taps  : BitVec 128
deriving DecidableEq, Repr

/-- A row of an HBM stack (R408). -/
structure HbmRow where
  stack : BitVec 5
  pc    : BitVec 6
  bank  : BitVec 6
  row   : BitVec 24
deriving DecidableEq, Repr

/-- What the silicon and the board show a start (R414): BIST failures, training sweeps (a lane and direction that is not listed
passes at every tap; one listed again has been trained again on a spare lane), memory-test results (the stack, and whether it
has a spare row), UCIe lanes that fail in training by module and direction (true: host die to tile), key unwrap, Reservoir presence and rating, stack temperatures, what the FMCs mounted and
the entropy drawn. Log 21. -/
structure StartEnv where
  bistCoreFail : List (Fin 4 × Fin 34)
  bistBlockFail : Bool
  eyes        : List (Fin 24 × LaneEye)
  rowFail     : List (HbmRow × Bool)
  ucieFail    : List (Fin 4 × Bool × Nat)
  unwrapOk    : Bool
  hostDigestOk : Bool
  ratedCapMf  : Option Nat
  stackTempC  : List Int
  entropy     : List Word
  elapsedMs   : Nat
deriving DecidableEq, Repr

/-- A boot configuration image (R411). -/
structure BootConfig where
  magic  : BitVec 32
  seq    : BitVec 32
  devEid : BitVec 20
  hostRegion : BitVec 2
  timeWaitMs : BitVec 16
  rsvModel  : Word
  rsvCtrl   : Word
  rsvPolicy : Word
  rsvCharge : Word
  crc    : BitVec 32
deriving DecidableEq, Repr

/-- One word of a device-record section (R408). -/
inductive RecordEntry where
  | coreMap (unbound0 unbound1 : BitVec 6)
  | hbmFrame (stack : BitVec 5) (frame : BitVec 15)
  | hbmRow (row : HbmRow)
  | bridgeLane (die : Byte) (lane : BitVec 12) (spare : Byte)
  | ucieLane (module : BitVec 2) (dir : Bool) (lane : BitVec 6) (spare : BitVec 2)
  | flashBad (die : BitVec 9) (block : BitVec 20)
  | undefined (word : Word)
deriving DecidableEq, Repr

/-- A device record (R407), as the bytes of its image; `signed` tells whether its signature checks under RECORD_KEY. -/
structure DeviceRecord where
  bytes  : List Byte
  signed : Bool
deriving DecidableEq, Repr

/-- A licence (R421), as the 32 words of its image; `signed` tells whether its signature checks under LICENCE_KEY. -/
structure Licence where
  words  : List Word
  signed : Bool
deriving DecidableEq, Repr

/-- A firmware slot (R405), as its bytes; `signed` tells whether its signature checks under FW_KEY. -/
structure SlotImage where
  bytes  : List Byte
  signed : Bool
deriving DecidableEq, Repr

/-- The commands. Every constructor is one row of spec/opcode_table.json, in the table's order. -/
inductive Instr where
  | nop (e : Entry)
  | ctxBind (e : Entry)
  | ctxUnbind (e : Entry)
  | extCreate (e : Entry)
  | extResize (e : Entry)
  | extPin (e : Entry)
  | extUnpin (e : Entry)
  | extRevoke (e : Entry)
  | extDestroy (e : Entry)
  | extUpdateSet (e : Entry)
  | domCreate (e : Entry)
  | domForm (e : Entry)
  | domStop (e : Entry)
  | domDestroy (e : Entry)
  | tableInvalidate (e : Entry)
  | prgCheck (e : Entry)
  | tickSet (e : Entry)
  | policySet (e : Entry)
  | lnkCmdTrain (e : Entry)
  | lnkCmdRetrain (e : Entry)
  | lnkCmdReset (e : Entry)
  | lnkCmdDisable (e : Entry)
  | lnkCmdEnable (e : Entry)
  | xltInvalidate (q : XltReq)
  | xltResume (q : XltReq)
  | xltAbort (q : XltReq)
  | hostBulk (e : Entry)
  | tierFlush (e : Entry)
  | admitResume (e : Entry)
  | computeReset (e : Entry)
  | devQuery (e : Entry)
  | extQuery (e : Entry)
  | parcelQuery (e : Entry)
  | commandTake
  | heldCompletionPost (ring : Fin 4)
  | eventPost (ev : EventRec)
  | heldEventPost
  | logRecord (r : LogRec)
  | traceRecord (tp : BitVec 10) (core : Fin 8) (arg0 : BitVec 48) (arg1 arg2 : Word)
  | ringVectorSignal (ring : RingId)
  | cmdHeadWrite (ring : Fin 4) (value : Word)
  | ringTailWrite (ring : RingId) (value : Word)
  | ringEnable (ring : CfgId) (value : Word)
  | ringBaseWrite (ring : BaseId) (value : Word)
  | epochPolicy
  | watchdogReset (core : Fin 8)
  | taskReassign
  | tableSwitchReq (by' : Agent) (t : Table) (value : Word) (cycle : BitVec 14)
  | tableBaseWrite (by' : Agent) (t : Table) (bank : Bool) (value : Word) (cycle : BitVec 14)
  | tableSwitch (t : Table)
  | oldFreeSet (t : Table)
  | sluicePortSwitch (port : Fin 32)
  | invalidateEffect
  | xltInvEffect
  | policySetEffect
  | extentDrained (ext : BitVec 18)
  | pinDone (ext : BitVec 18)
  | repin
  | tickPeriodApply
  | tickBoundary (env : TickEnv)
  | demandReport
  | shareMessage (lost : List (Fin 4 × Fin 4))
  | ebbBook (tile : Fin 4)
  | packetArrival (port : Fin 32) (linkVc : Fin 8) (pkt : Packet)
  | transitForward (port : Fin 32) (linkVc : Fin 8)
  | filterHeldRetry (port : Fin 32) (linkVc : Fin 8)
  | routeMissFill (port : Fin 32) (linkVc : Fin 8)
  | echo (port : Fin 32) (pkt : Packet)
  | timeBeacon (port : Fin 32) (pkt : Packet) (localNs : Nat)
  | beaconSend
  | ppsEdge (localNs : Nat)
  | holdover
  | timeLockWaitEnd (waitedMs : Nat)
  | batch (port : Fin 32) (pkt : Packet)
  | assemblyTimeout (port : Fin 32)
  | lookupBatch (port : Fin 32)
  | read (port : Fin 32)
  | write (port : Fin 32)
  | push (port : Fin 32)
  | atomic (port : Fin 32)
  | bulkRead (port : Fin 32)
  | bulkCopy (port : Fin 32)
  | rdS (tile : Fin 4)
  | rdX (tile : Fin 4)
  | upg (tile : Fin 4)
  | wb (tile : Fin 4)
  | wbs (tile : Fin 4)
  | evs (tile : Fin 4)
  | rspAck (port : Fin 32) (pkt : Packet)
  | rspData (port : Fin 32) (pkt : Packet)
  | recallExpire (tile : Fin 4)
  | snoopSend (tile : Fin 4)
  | snoopTimeout (tile : Fin 4)
  | domainDown (domain : BitVec 12)
  | domainSweep (tile : Fin 4) (lines : Nat)
  | rowPhase (rid : Nat)
  | flashSense (rid : Nat)
  | sectorTransfer (rid : Nat)
  | fillWrite (rid : Nat)
  | confluence (rid : Nat)
  | resultSend (rid : Nat)
  | landing
  | pushCompletion (rid : Nat)
  | atomicResult (rid : Nat)
  | writeAck (rid : Nat)
  | grantSend (rid : Nat)
  | bulkWalk (rid : Nat)
  | faultRecordWrite (tile : Fin 4)
  | groupClose (tile : Fin 4)
  | bulkReadmit (rid : Nat)
  | bulkChunk (rid : Nat)
  | bulkCompletion (rid : Nat)
  | lateResultDrop (port : Fin 32)
  | packetSendSelect (port : Fin 32) (ns : Nat)
  | backgroundFetchFill (parcel : Nat) (group : Fin 512)
  | ebbClean (tile : Fin 4)
  | programConfirm (tile : Fin 4)
  | programFail (die : Fin 512) (erase : Bool)
  | sectorRebuild (parcel : Nat) (group : Fin 512) (secondFails : Bool)
  | relocate (parcel : Nat) (group : Fin 512)
  | repairRewrite (stack : Fin 24) (pc : Fin 64)
  | dredgeRead (stack : Fin 24) (pc : Fin 64)
  | patrolRead (tile fmc channel : Fin 4) (bad : List (Fin 4))
  | lapSlow (tile : Fin 4)
  | calProbe (stack : Fin 24) (pc : Fin 64) (minusOk plusOk : Bool)
  | refresh (stack : Fin 24)
  | pmbusPoll (p : PmbusSample)
  | pmbAlert (status : BitVec 16)
  | capTestStart
  | capTestDone (chargeMilliCoulomb : Nat)
  | pwrFail
  | discardNoticeSend
  | drainBegin
  | drainEnergyStop
  | checkpointWrite (measuredCj : BitVec 16)
  | pwrFailDeassert
  | mainPgFall
  | coldRstN (level : Bool)
  | auxRstN (level strapTest strapAuxclk : Bool)
  | coldStart (env : StartEnv)
  | hostAlive (value : Word)
  | hostBootTimeout (waitedMs : Nat)
  | hostResetReq
  | moduleRetrain (m : Fin 4) (lanes : Nat)
  | moduleDown (m : Fin 4)
  | hostRead (addr : BitVec 52) (size : Nat)
  | write256 (addr : BitVec 52) (data : List Byte) (poison : Bool)
  | write64 (addr : BitVec 52) (data : List Byte) (poison : Bool)
  | hostAccessDeferred (m : Fin 4)
  | vecUnmask (v : Fin 512)
  | registerWrite (by' : Agent) (addr : BitVec 24) (size : Nat) (value : Word)
  | evtForce (by' : Agent) (page : BitVec 12) (value : Word)
  | evtStatusClear (by' : Agent) (page : BitVec 12) (value : Word)
  | errLogClear (by' : Agent) (page : BitVec 12) (value : Word)
  | computeResetStop
  | computeResetAssert
  | firmwareRestart (entropy : List Word)
  | engineCheck (failed : List (Fin 4 × Fin 32))
  | tileFault (block : Byte) (tile : Fin 4) (inst : Byte) (cycle : Nat)
  | thermalSample (t : Sensors)
  | thermalTrip
  | dataBlock (port : Fin 32) (b : Block) (ns : Nat)
  | idleBlock (port : Fin 32) (b : Block) (ns : Nat)
  | nak (port : Fin 32) (b : Block) (ns : Nat)
  | blockCrcFail (port : Fin 32) (b : Block) (uncorrectable : Bool)
  | nakRetry (port : Fin 32) (ns : Nat)
  | replayTimeout (port : Fin 32) (ns : Nat)
  | linkId (port : Fin 32) (b : Block)
  | rttProbe (port : Fin 32) (b : Block)
  | rttReply (port : Fin 32) (b : Block) (ns : Nat)
  | initDone (port : Fin 32) (b : Block)
  | retrainReq (port : Fin 32) (b : Block)
  | follow (port : Fin 32) (b : Block)
  | trainDone (port : Fin 32) (mine peer : BitVec 8)
  | trainTimeout (port : Fin 32) (elapsedUs : Nat)
  | laneErr (port : Fin 32) (lane : Fin 8)
  | lockLost (port : Fin 32)
  | probationEnd (port : Fin 32)
  | trainRetry (port : Fin 32)
  | getState (reqId : BitVec 16)
  | assign (reqId : BitVec 16) (body : List Byte)
  | assignDone
  | release (reqId : BitVec 16)
  | releaseStop
  | purgeBegin
  | purgeDone
  | clear (reqId : BitVec 16)
  | licenceInstall (reqId : BitVec 16) (l : Licence)
  | licenceRemove (reqId : BitVec 16) (seq : BitVec 32)
  | imageStage (reqId : BitVec 16) (img : SlotImage)
  | imageTrial (reqId : BitVec 16) (left : BitVec 8)
  | recordInstall (reqId : BitVec 16) (r : DeviceRecord)
  | configWrite (reqId : BitVec 16) (c : BootConfig)
  | mgtResetCompute (reqId : BitVec 16)
  | warmStart (reqId : BitVec 16) (env : StartEnv)
  | coldRestart (reqId : BitVec 16)
  | anchorAdd (reqId : BitVec 16) (cert : BitVec 384)
  | anchorRemove (reqId : BitVec 16) (digest : BitVec 384)
  | telemetryRead (reqId : BitVec 16) (block inst : Byte)
  | tlsHandshake (anchor : BitVec 384) (notAfterNs : Nat) (suiteOk : Bool)
  | getVersion (reqId : BitVec 16)
  | getCapabilities (reqId : BitVec 16)
  | negotiateAlgorithms (reqId : BitVec 16)
  | getDigests (reqId : BitVec 16)
  | getCertificate (reqId : BitVec 16) (slot : Fin 8)
  | challenge (reqId : BitVec 16) (slot : Fin 8) (nonce : BitVec 256)
  | getMeasurements (reqId : BitVec 16) (index : Byte) (nonce : BitVec 256)
  | spdmUnsupported (reqId : BitVec 16) (code : Byte)
  | moduleRetrainDone (m : Fin 4)
  | mgtPortLink (up : Bool) (tenG : Bool)
  | undefinedBlock (port : Fin 32) (b : Block)
deriving DecidableEq, Repr

end Sys2Proof
end

