-- ==== Sys2Proof/Config.lean ====
section
/-! DEFINITION. What the spec leaves open: free values without a body (nothing can be proved of what they are), and the
figures one implementation fixes. Every free value is applied to plain data of State (the counter `fresh`, or operands). -/

namespace Sys2Proof.Config

/-- A free choice between two allowed behaviours (R36, R84, R102, R179). FREE VALUE, log 3. -/
opaque freeBool : Nat → Bool

/-- A free natural number: order of summation (R153, R167), vendor addresses. FREE VALUE, log 3. -/
opaque freeNat : Nat → Nat

/-- Where firmware places a table, map or list in the control region (R41). FREE VALUE, log 4. -/
opaque fwPlace : Nat → Nat

/-- Which free parcel firmware allocates next (R50). FREE VALUE, log 4. -/
opaque parcelChoice : Nat → Nat

/-- Which free frame of a stack a parcel takes (R213). FREE VALUE, log 4. -/
opaque frameChoice : Nat → Nat

/-- Which stack firmware starts an extent on when several have equally many free frames (R47). FREE VALUE, log 4. -/
opaque stackChoice : Nat → Nat

/-- Where the FMC programs a sector: die, page and sector packed (R263). FREE VALUE, log 4. -/
opaque flashPlace : Nat → Nat

/-- β^t as the kernel computes it (R174): used only where it lies within the stated bound. FREE VALUE, log 5. -/
opaque powBeta : F32 → Nat → F32

/-- A 64-bit draw of the on-chip entropy source (R517). FREE VALUE, log 3. -/
opaque entropy : Nat → Word

/-- The key the DRBG draws for a tenant (R449). FREE VALUE, log 6. -/
opaque tenantKey : Nat → BitVec 512

/-- The key wrapped under KWK (R448): AES-256-KWP is not written out. FREE VALUE, log 6. -/
opaque wrapKey : BitVec 512 → BitVec 576

/-- The key that a wrapped key unwraps to (R451). FREE VALUE, log 6. -/
opaque unwrapKey : BitVec 576 → BitVec 512

/-- The ECDSA P-384 signature of a response under the identity key (R461). FREE VALUE, log 6. -/
opaque signature : List Byte → BitVec 768

/-- SHA-384 of a byte string (R402, R421, R462). FREE VALUE (uninterpreted function), log 6. -/
opaque sha384 : List Byte → BitVec 384

/-- The certificate chain of slot 0 (R461). FREE VALUE, log 6. -/
opaque certChain : Nat → List Byte

/-- The ROM's SHA-384 measurement (R462 block 1). FREE VALUE, log 6. -/
opaque romDigest : Nat → BitVec 384

/-- Spare blocks a die has at mount (R266): the spec gives no count. FREE VALUE, log 7. -/
opaque spareBlocks : Nat → Nat

/-- Pages of an erase block of flash (R266): the spec gives no figure. FREE VALUE, log 7. -/
opaque blockPages : Nat → Nat

/-- The bridge lane group of an HBM byte lane, and the spare lanes of a group of a stack, as stack times 256 plus group (R247): the spec
gives no figure. FREE VALUES, log 153. -/
opaque laneGroup : Nat → Nat

/-- See laneGroup. -/
opaque groupSpares : Nat → Nat

/-- AES-256-XTS encryption of a data unit under a key and tweak (R237, R262): not written out. FREE VALUE (uninterpreted function), log 6. -/
opaque cipher : BitVec 512 → Nat → List Byte → List Byte

/-- The float voltage of the bank in mV (R228): the spec gives no figure. FREE VALUE, log 48. -/
opaque floatMv : Nat → Nat

/-- The drain energy per GB that boot flash holds when it has no stored value is the factory value of R232. -/
def egbFactoryCj : Nat := 1200

end Sys2Proof.Config
end

