-- ==== Sys2Proof/Machine/State.lean ====
section
/-! DEFINITION. The state of the block as plain data: every register, table, memory, queue and mode the spec names, the
queue of waiting commands, and State.reset. -/

namespace Sys2Proof.Machine

/-- The step stops. Only an operand that the hardware cannot be given raises it (safe: the model stops, and no
command of the spec is stopped). -/
inductive Fault where
  /-- Raised by the meanings of WRITE256 and WRITE64 when the data is not exactly as long as the row's access
  (256 or 64 bytes): no such command exists on the wire. Safe. -/
  | illFormed
deriving DecidableEq, Repr

/-- The model has no meaning for a command. -/
inductive Refusal where
  /-- Raised by an arm of exec whose command is not modelled. Safe. -/
  | notModelled (mnemonic : String)
deriving DecidableEq, Repr

/-- Sparse data by key: keys strictly rising, no entry equal to the default of its key. -/
abbrev SMap (α : Type) := List (Nat × α)

/-- The metadata of one HBM line (R250). `crcDelta` is the stored CRC XOR the CRC of the line's present data under the tag it was
written with: `tag`, the 8-byte tag of a pool line (R251); none stands for the region tag of the line's place, and for a line that nothing
or a directory write has written (logs 134, 152). -/
structure LineMeta where
  crcDelta : BitVec 32 := 0
  poison : Bool := false
  format : BitVec 4 := 0
  mirror : Bool := false
  tag : Option Nat := none
  /-- Bits 63:38, written as 0. -/
  rsv : BitVec 26 := 0
deriving DecidableEq, Repr

/-- Line states (R212). -/
inductive LineSt where
  | absent | clean | dirty | cleaning
deriving DecidableEq, Repr

/-- Frame states (R211). -/
inductive FrameSt where
  | free | resident | pinned | mirror
deriving DecidableEq, Repr

/-- A PFT entry (R211). -/
structure Pft where
  frame : Nat := 0
  has : Bool := false
deriving DecidableEq, Repr

/-- An FHT entry (R211). -/
structure Fht where
  st : FrameSt := .free
  ref : Bool := false
  assured : Bool := false
  parcel : Nat := 0
  dirtyLines : Nat := 0
  holdUntil : Nat := 0
  firstDirty : Nat := 0
  mirrorFrame : Nat := 0
  /-- A directory frame (R277): takes no parcel. -/
  dirFrame : Bool := false
deriving DecidableEq, Repr

/-- Which extent a parcel belongs to (firmware's working data, R47 to R49). -/
structure ParcelOwner where
  ext : Nat := 0
  index : Nat := 0
  allocated : Bool := false
deriving DecidableEq, Repr

/-- A sector as it was programmed (R160, R262): its parcel, its groups in order with the poison of their lines, and the generation of its
key. The bytes of its groups are in `flash`, under its place. -/
structure Sector where
  parcel : Nat := 0
  groups : List (Nat × BitVec 16) := []
  gen : BitVec 16 := 0
  /-- It fails its CRC until its page is rebuilt (R265). -/
  bad : Bool := false
deriving DecidableEq, Repr

/-- An entry of the FMC map: the place of the copy of a group that is in force, and whether the group is lost (R263, R265). -/
structure FGroup where
  stored : Bool := false
  die : Nat := 0
  page : Nat := 0
  sector : Nat := 0
  lost : Bool := false
deriving DecidableEq, Repr

/-- A changed table entry whose old value a cache may still show until `effect` (R36, R173). -/
structure Stale where
  table : Table
  /-- The bank whose entry changed: a cached copy carries the bank bit (R30). -/
  bank : Bool
  index : Nat
  old : List Word
  effect : Nat
  /-- No cached copy holds it any more: an update descriptor alone is bound by it until `effect` (R173). -/
  dropped : Bool := false
deriving DecidableEq, Repr

/-- A pending table invalidation (R36). -/
structure Inval where
  table : Table
  first : Nat
  count : Nat
  effect : Nat
deriving DecidableEq, Repr

/-- A pending translation invalidation (R207): the tile whose page was written, or none for a ring command; SCOPE, ASID and
the 4 KiB page number. -/
structure XltInv where
  taken : Nat
  byPage : Option Nat
  scope : Nat
  asid : Nat
  page : Nat
  dropped : Bool := false
deriving DecidableEq, Repr

/-- A POLICY_SET that waits for its tick (R387). -/
structure PolicyJob where
  effect : Nat
  offsets : List Nat
  value : Word
  mask : Word
deriving DecidableEq, Repr

/-- Why an extent drains (R58). -/
inductive DrainKind where
  | revoke | shrink | unpin
deriving DecidableEq, Repr

/-- A drain under R58. `due` is D once B has passed. -/
structure DrainJob where
  ext : Nat
  kind : DrainKind
  b : Nat
  due : Option Nat := none
  /-- shrink: the sizes before and after. -/
  oldCount : Nat := 0
  newCount : Nat := 0
deriving DecidableEq, Repr

/-- A pin in progress (R218). -/
structure PinJob where
  ext : Nat
  /-- P, once the invalidation has been issued. -/
  p : Option Nat := none
  /-- The pin is part of an EXT_CREATE (R274, R220). -/
  create : Bool := false
  /-- Resident CLEAN lines still to be copied to the mirror, as parcel and line, once they are known (R254). -/
  copy : Option (List (Nat × Nat)) := none
  /-- The lines of `copy` are those of a new extent without flash, still to be zero-filled (R220, R254). -/
  zero : Bool := false
deriving DecidableEq, Repr

/-- The object a ring command names (R385). -/
inductive Obj where
  | ctx (n : Nat) | ext (n : Nat) | dom (n : Nat) | port (n : Nat) | group (tile n : Nat) | table (n : Nat)
  | none
deriving DecidableEq, Repr

/-- What a journaled command still waits for (R398). -/
inductive Wait where
  | tick (t : Nat)
  | pin (ext : Nat)
  | port (p : Nat)
  | xltInv
  | bulk (rid : Nat)
  | flush
  | reset
  | tickSet
  /-- The switch of a table; the tick once it is requested. -/
  | sw (t : Table) (s : Option Nat)
deriving DecidableEq, Repr

/-- One entry of the task journals (R398): a command taken whose final completion is still to come. -/
structure Journal where
  ring : Nat
  tag : BitVec 32
  opcode : Byte
  taken : Nat
  obj : Obj
  wait : Wait
  result0 : Word := 0
  result1 : Word := 0
deriving DecidableEq, Repr

/-- A completion entry ready to be written (R389), without PHASE and TICK. -/
structure Cpl where
  accepted : Bool := false
  faultType : BitVec 4 := 0
  status : Byte := 0
  opcode : Byte := 0
  reason : BitVec 4 := 0
  tag : BitVec 32 := 0
  result0 : Word := 0
  result1 : Word := 0
deriving DecidableEq, Repr

/-- The units of the budgets of R83 to R91 and R362 to R364, one constructor for each kind of instance. -/
inductive Res where
  | hbm (stack pc : Nat)
  | sense (die : Nat)
  | chan (channel : Nat)
  | engine (core : Nat)
  | thread (core : Nat)
  | confCore (core : Nat)
  | confTile (tile : Nat)
  | confColl (tile : Nat)
  | mergeTile (tile : Nat)
  | mergeColl (tile : Nat)
  | link (src dst : Nat)
  | seg (port seg : Nat)
  | svc (port svc : Nat)
  | weir (port ctx : Nat)
  | walk (tile : Nat)
  | batch (tile : Nat)
  | index (tile : Nat)
  | dirty (tile : Nat)
deriving DecidableEq, Repr

/-- One reservation: `units` of `res` in tick `use'`, claimed from the part of tile `holder` by request `rid` in
tick `made` (R95, R98). -/
structure Claim where
  res : Res
  use' : Nat
  holder : Nat
  rid : Nat
  units : Nat
  made : Nat
  /-- The tick in which the claim was given up after its split had ended: the capacity goes back to the owner when the tick of use is
  split again (R98). -/
  freed : Option Nat := none
deriving DecidableEq, Repr

/-- The three classes (R52, R71). -/
inductive Cls where
  | near | deep | bulk
deriving DecidableEq, Repr

/-- How a thread stands (R115). -/
inductive ThreadSt where
  | live | null | ended (status : Byte)
deriving DecidableEq, Repr

/-- One lookup thread (R105, R113). -/
structure Thread where
  table : Nat
  out : Nat
  pos : Nat
  ext : Nat
  /-- Offset of the final row's first byte in its extent. -/
  off : Nat
  id : Word
  weight : F32
  st : ThreadSt
  core : Nat
  /-- The row has a line that was not resident at the probe. -/
  miss : Bool
  /-- Its weight came from a poisoned segment of the batch. -/
  poison : Bool := false
  /-- The row phase has run. -/
  done : Bool := false
deriving DecidableEq, Repr

/-- A TOPK pair with its order key (R127). -/
structure TopPair where
  id : Word
  score : F32
  pos : Nat
  table : Nat
deriving DecidableEq, Repr

/-- A partial of one output (R129, R153): its depth, FP32 elements, compensation elements, best pairs. -/
structure Partial where
  out : Nat
  core : Nat
  depth : Nat
  elems : List F32
  comp : List F32
  pairs : List TopPair
  poison : Bool
  ended : Option Byte
deriving DecidableEq, Repr

/-- A table section of a batch as bound at admission (R110, R119). -/
structure TableSec where
  ext : Nat
  program : List Word
  bags : List Nat
  /-- Number of the table's first output in the batch. -/
  firstOut : Nat
deriving DecidableEq, Repr

/-- A missed 16-line group of a Deep request (R72, R85, R94). -/
structure Miss where
  parcel : Nat
  group : Nat
  lines : List Nat
  die : Nat
  senseAt : Nat
  /-- The page that the probe named (R263). -/
  page : Nat := 0
  /-- The sector of the copy that the probe named, none for a group that is not in the map (R262, R263). -/
  copy : Option Nat := none
  sensed : Bool := false
  transferred : Bool := false
  filled : Bool := false
deriving DecidableEq, Repr

/-- A piece of a WRITE within one line (R253): the line's place in its extent and the bytes. -/
structure Piece where
  ext : Nat
  line : Nat
  first : Nat
  bytes : List Byte
  poison : Bool
deriving DecidableEq, Repr

/-- A push entry after its check (R163, R164). -/
structure PushRow where
  row : Nat
  grad : List F32
deriving DecidableEq, Repr

/-- One atomic operation and what it returned (R181, R185). -/
structure AtomicOp where
  off : Nat
  op : BitVec 4
  a : Word
  b : Word
  old : Word := 0
  poisoned : Bool := false
deriving DecidableEq, Repr

/-- A chunk of a Bulk request (R74, R191). -/
structure Chunk where
  tick : Nat
  off : Nat
  lines : Nat
  pages : Nat
  /-- The tile that owns the home stack of the chunk's pool or source parcel (R191). -/
  tile : Nat := 0
  /-- The core that moves the chunk (R82). -/
  core : Nat := 0
  walked : Bool := false
  done : Bool := false
  /-- Physical page address of each host page, as the walks of the tick before gave them (R192). -/
  pas : List Nat := []
deriving DecidableEq, Repr

/-- What a request asks for and how far it has come. -/
inductive Work where
  | read (ext off count : Nat) (data : List Byte) (poison : BitVec 32) (done : Bool)
  | write (pieces : List Piece) (fmt : BitVec 4) (ack landed : Bool)
  | push (ext : Nat) (desc5 desc6 : Word) (eps : BitVec 16) (rows : List PushRow) (dropped : Nat)
      (ack landed : Bool)
  | atomic (ext : Nat) (ops : List AtomicOp) (ret landed : Bool)
  | batch (secs : List TableSec) (posw : List F32) (query : List F32) (queryPoison : Bool) (queryBf16 : Bool)
      (threads : List Thread) (partials : List Partial) (result : List Byte) (segPoison : List Bool)
      (status : Byte) (built : Bool)
  | bulkRead (ptr : Word) (len : Nat) (data : List Byte) (poison : List Bool) (seq : Nat)
  | bulkCopy (src dst : Word) (len : Nat)
  | hostBulk (ring : Nat) (tag : BitVec 32) (toPool : Bool) (hva ptr : Word) (len : Nat)
  | coh (msg : BitVec 4) (domain : Nat) (ext line : Nat) (data : Option (List Byte × Bool)) (newEntry : Word)
      (granted : BitVec 2) (withData : Bool) (status : Byte) (reply : List Byte) (landed : Bool)
deriving DecidableEq, Repr

/-- An admitted request that has not completed (R71, R75), with what R31 binds. -/
structure Req where
  rid : Nat
  ctx : BitVec 16
  src : BitVec 20
  tag : BitVec 12
  /-- Intake port; a HOST_BULK has none. -/
  port : Option Nat
  tile : Nat
  cls : Cls
  admitTick : Nat
  pct : Nat
  egress : Option Nat
  /-- The segment of each response packet, in SEQ order (R363). -/
  segs : List Nat
  banks : BitVec 8
  epoch : BitVec 32
  /-- Extents the request names, and the domain of a coherent one. -/
  exts : List Nat
  domain : Option Nat
  misses : List Miss
  chunks : List Chunk
  /-- Bulk: first byte not moved (R306, R189). -/
  moved : Nat
  work : Work
  /-- The row phase has read the resident lines (R113). -/
  rowDone : Bool := false
deriving DecidableEq, Repr

/-- A request waiting in an intake queue (R78): the tick it entered, and its packet or assembled batch. -/
structure Queued where
  pkt : Packet
  batch : Option (List Byte × List Bool)
  port : Nat
  arrived : Nat
deriving DecidableEq, Repr

/-- An open assembly (R109). -/
structure Assembly where
  src : BitVec 20
  ctx : BitVec 16
  tag : BitVec 12
  opened : Nat
  last : Nat
  next : Nat
  data : List Byte
  poison : List Bool
  first : Packet
  /-- Complete: waiting for, or in, the intake queue. -/
  complete : Bool
deriving DecidableEq, Repr

/-- A fault group of a tile (R204). -/
structure FaultGroup where
  tile : Nat
  index : Nat
  gen : BitVec 4
  asid : BitVec 16
  page : Nat
  write : Bool
  type : BitVec 4
  level : Nat
  ctx : BitVec 16
  pte : Word
  opened : Nat
  waiters : Nat
  written : Bool
  /-- Closing at the boundary after a resume (some false) or abort (some true) taken in the tick given. -/
  closing : Option (Bool × Nat)
deriving DecidableEq, Repr

/-- A suspended HOST_BULK (R201): the request as admitted, its resume point, its group, and the retry tick after a
refused re-admission. -/
structure Parked where
  req : Req
  tile : Nat
  resume : Nat
  group : Option Nat
  retry : Option Nat
deriving DecidableEq, Repr

/-- Live domain states (R282). -/
inductive DomSt where
  | unused | quiet | active | down
deriving DecidableEq, Repr

/-- The live state of a domain in the COH blocks (R282, R292, R296). -/
structure Dom where
  st : DomSt := .unused
  cause : BitVec 4 := 0
  culprit : BitVec 10 := 0
  epoch : BitVec 16 := 0
  downTick : Nat := 0
  poisoned : Nat := 0
  /-- A DOWN that takes effect at this boundary, with its cause and culprit (R292). -/
  goingDown : Option (Nat × BitVec 4 × BitVec 10) := none
  /-- The tile that detected the cause. -/
  downTile : Option Nat := none
  /-- A state change that waits for the DOMT switch (R282). -/
  forming : Option DomSt := none
  /-- Sweep cursor of each tile while DOWN: the next directory line (R293). -/
  sweep : List Nat := []
  /-- The sweep waits until admission resumes (R294). -/
  sweepHeld : Bool := false
  /-- COH_DOM_SWEPT as the last sweep recorded it (R293). -/
  swept : Nat := 0
deriving DecidableEq, Repr

/-- A snoop (R286, R287). -/
structure Snoop where
  member : Nat
  msg : BitVec 4
  sent : Option Nat
  answered : Bool
deriving DecidableEq, Repr

/-- A recall entry (R286). -/
structure Recall where
  tile : Nat
  domain : Nat
  ext : Nat
  line : Nat
  requester : Nat
  kind : BitVec 4
  qShares : Bool
  owner : Nat
  expires : Nat
  snoops : List Snoop
  complete : Bool
  /-- Data that a member has returned and that the home still has to write, with its poison (R286, R287). -/
  data : Option (List Byte × Bool) := none
  /-- The requester has lost the line: it is rewritten with poison (R285). -/
  lost : Bool := false
deriving DecidableEq, Repr

/-- A discard to be reported (R430, R433). -/
structure Notice where
  ctx : BitVec 16
  dst : BitVec 20
  first : Nat
  last : Nat
  cause : BitVec 4
  scope : BitVec 2
  landed : Bool
  x : Nat
  domain : Nat
  domEpoch : BitVec 16
  port : Nat
  sendTick : Nat
  epoch : BitVec 32
deriving DecidableEq, Repr

/-- The classes of R365. -/
inductive PktClass where
  | admitted | reply | notice | beacon | snoop | transit
deriving DecidableEq, Repr

/-- A packet in an egress queue (R365, R454). -/
structure EgressPkt where
  pkt : Packet
  cls : PktClass
  service : Nat
  /-- The context of a subscriber leaf, or the link VC of a transit leaf. -/
  leaf : Nat
  linkVc : Nat
  use' : Nat
  seg : Nat
  order : Nat
  epoch : BitVec 32
  rid : Option Nat
  last : Bool
  entered : Nat
  stomped : Bool := false
deriving DecidableEq, Repr

/-- An unacknowledged DATA block of a port (R334, R335). -/
structure TxBlock where
  blk : Block
  replays : Nat
  sentNs : Nat
deriving DecidableEq, Repr

/-- A transit or local packet being assembled from blocks of one VC (R330). -/
structure RxPartial where
  vc : Nat
  bytes : List Byte
  poison : List (BitVec 2)
deriving DecidableEq, Repr

/-- A port's link engine (R332 to R350). -/
structure Link where
  /-- E of R332. -/
  expect : BitVec 12 := 0
  txNext : BitVec 12 := 0
  unacked : List TxBlock := []
  held : List Block := []
  partials : List RxPartial := []
  nakSent : List (BitVec 12 × Nat) := []
  replayUsed : Nat := 0
  rtt : List Nat := []
  peerVcs : BitVec 2 := 0
  peerLanes : Byte := 0
  myLanes : Byte := 0xFF
  peerIdSeen : Bool := false
  myDone : Option Bool := none
  peerDone : Option Bool := none
  fromRetrain : Bool := false
  probEnd : Option Nat := none
  announcing : Bool := false
  upSince : Nat := 0
  vcCount : Nat := 0
  /-- LNK_CFG as the last TRAIN, RETRAIN or INIT took it (R351). -/
  cfg : Option Word := none
  /-- Announce slots of a retrain still to come (R347, R349). -/
  slots : Nat := 0
  /-- Consecutive ticks in which a lane's corrected symbols have passed the limit, by lane (R345). -/
  laneRuns : SMap Nat := []
deriving DecidableEq, Repr

/-- A Sluice list as an SCH store holds it (R357, R360): entries as (gates, duration). -/
structure SluiceList where
  inForce : Bool := false
  entries : List (Byte × Nat) := []
  phase : Nat := 0
  /-- The instant at which a port switches, or switched, to the list (R361). -/
  z : Option Nat := none
deriving DecidableEq, Repr

/-- The last packet of a gated service that a port has begun: its service, when it began and when its last block leaves, in ns, and whether its
gate has closed before that (R367). -/
structure Sending where
  service : Nat
  begun : Nat
  ends : Nat
  soft : Bool := false
deriving DecidableEq, Repr

/-- A port's scheduler (R360, R361, R366, R368). -/
structure Sched where
  list : SluiceList := {}
  next : Option SluiceList := none
  /-- Z: the tick and the ns within network time at which the port switches. -/
  z : Option Nat := none
  /-- The list that the port has left, with its Z (R361). -/
  prev : Option (SluiceList × Nat) := none
  last : Option Sending := none
  /-- S of the switch whose list waits (R33). -/
  sTick : Nat := 0
  tokens : Nat := 34
  tokenNs : Nat := 0
  tokenFrac : Nat := 0
  vPort : BitVec 32 := 0
  vSvc : List (BitVec 32) := []
  gSvc : List (BitVec 32) := []
  fLeaf : SMap (BitVec 32) := []
  queue : List EgressPkt := []
  replies : Nat := 0
  filterReplies : Nat := 0
deriving DecidableEq, Repr

/-- A transit packet waiting in its ingress VC (R310, R313). -/
structure TransitPkt where
  pkt : Packet
  port : Nat
  vc : Nat
  arrived : Nat
  waiting : Bool
  bank : Bool
  /-- The bank of TFT that is active in the tick of arrival (R31). -/
  tft : Bool
  /-- Held to the next tick for want of filter replies (R310). -/
  held : Bool := false
  /-- Looked up already, and waiting for bytes of the link to its port's tile (R317). -/
  crossing : Bool := false
deriving DecidableEq, Repr

/-- A cached route (R313), one for each bank (R30): only the remembered choice is state; the entry itself is read from its bank. -/
structure RouteMemo where
  valid : Bool := false
  last : Nat := 0
  /-- The cached entry has a parity error (R426). -/
  bad : Bool := false
deriving DecidableEq, Repr

/-- Telemetry of one port and link VC (R321). -/
structure Tel where
  txPkts : Word := 0
  txBytes : Word := 0
  rxPkts : Word := 0
  rxBytes : Word := 0
  stall : Word := 0
  hist : List Word := []
deriving DecidableEq, Repr

/-- A port's last beacon (R492): stratum, arrival time, offset. -/
structure BeaconRec where
  stratum : Nat := 255
  at' : Nat := 0
  offset : Int := 0
  seen : Bool := false
deriving DecidableEq, Repr

/-- Who a drain serves (R233, R239, R416, R515). -/
inductive DrainFor where
  | power | flush | warm | cold
deriving DecidableEq, Repr

/-- The drain sequencer (R233 to R236). -/
structure Drain where
  why : DrainFor
  f0 : Nat
  begun : Bool := false
  energyStop : Bool := false
  /-- Groups that the drain cannot read (R427). -/
  unread : List (Nat × Nat) := []
  /-- DRAIN_DONE without a drain (R519). -/
  noDrain : Bool := false
deriving DecidableEq, Repr

/-- A checkpoint slot (R237): header fields and body. -/
structure Checkpoint where
  valid : Bool := false
  closed : Bool := false
  seq : Nat := 0
  tick : Nat := 0
  epoch : BitVec 32 := 0
  keyGen : BitVec 16 := 0
  /-- The EXTT bank: its entries that are not all zero. -/
  bank : List (Nat × List Word) := []
  /-- EXTT entries of valid extents with their parcel maps and keys. -/
  exts : List (Nat × List Word × List Word × List Word) := []
  pinned : List Nat := []
  lost : List (Nat × Nat) := []
deriving DecidableEq, Repr

/-- A background fetch or refetch under way (R217, R257). -/
structure Fetch where
  parcel : Nat
  group : Nat
  refetch : Bool
  /-- refetch: the lines to rewrite if still CLEAN and unwritten. -/
  lines : List Nat
  started : Nat
  /-- The tick in which its die frame begins, once it has one. -/
  sensed : Option Nat := none
  /-- Bytes of its sector still to transfer. -/
  left : Nat := 4096
  /-- Lines that the sector has brought and that still wait for a slot. -/
  todo : Option (List Nat) := none
deriving DecidableEq, Repr

/-- A group handed to the FMC whose program is not yet confirmed (R221, R263). -/
structure Program where
  tile : Nat
  parcel : Nat
  group : Nat
  lines : List Nat
  data : List Byte
  poison : BitVec 16
  gen : BitVec 16
  /-- Bytes still to move on the channel. -/
  bytes : Nat
  /-- Bytes of its old sector still to read, and the channel of that sector (R221, R267). -/
  read : Nat := 0
  readChan : Nat := 0
  /-- The channel that programs it. -/
  chan : Nat := 0
  /-- Its sector is moved or rebuilt as it stands: no line of it is CLEANING (R265, R267). -/
  moved : Bool := false
deriving DecidableEq, Repr

/-- A parity stripe with a page on each of the eight channels of its set (R263). -/
structure Stripe where
  /-- Twice the tile, plus 0 for set A or 1 for set B. -/
  set : Nat
  n : Nat
  /-- Die and page at each channel position. -/
  sites : List (Nat × Nat)
  /-- Data sectors programmed: position times 4 plus sector. -/
  used : List Nat := []
  /-- Sectors whose groups wait for the stripe to be complete, with their groups. -/
  waiting : List (Nat × List Program) := []
  /-- Every page, the parity page among them, is programmed. -/
  closed : Bool := false
deriving DecidableEq, Repr

/-- A page that is to be rebuilt (R265, R266): the dies of its stripe's other pages that have still to sense. -/
structure Rebuild where
  die : Nat
  page : Nat
  dies : List Nat
  /-- The tick in which the last of them ends its sense. -/
  ready : Nat
  /-- Bytes still to program, in capacity that the Ebb leaves unused. -/
  left : Nat := 16384
  /-- The patrol found it (R273). -/
  found : Bool := false
deriving DecidableEq, Repr

/-- An entry of a repair queue (R257). -/
structure Repair where
  stack : Nat
  pc : Nat
  line : Nat
  /-- Data to write with its poison, or poison the line as it is. -/
  data : Option (List Byte × Bool)
deriving DecidableEq, Repr

/-- Training of one byte lane and direction (R246, R249). -/
structure LaneTrain where
  delay : Nat := 0
  width : Nat := 0
deriving DecidableEq, Repr

/-- A training cache record (R413). -/
structure TrainRec where
  stack : Nat
  serial : Word
  tempC : Int
  /-- Field repairs: byte lane and spare. -/
  repairs : List (Nat × Nat)
  lanes : SMap LaneTrain
  crc : BitVec 32
deriving DecidableEq, Repr

/-- The tenant record (R448). Log 92. -/
structure TenantRec where
  valid : Bool := true
  state : BitVec 3 := 0
  defaultKind : BitVec 2 := 0
  keyGen : BitVec 16 := 0
  epoch : BitVec 32 := 1
  seq : Nat := 0
  wrapped : BitVec 576 := 0
deriving DecidableEq, Repr

/-- A boot directory copy (R404). -/
structure Directory where
  magic : BitVec 32 := 0
  format : Byte := 1
  active : Bool := false
  trialValid : Bool := false
  trialSlot : Bool := false
  trialLeft : BitVec 4 := 0
  seq : Nat := 0
  fwKey : BitVec 768 := 0
  recordKey : BitVec 768 := 0
  licenceKey : BitVec 768 := 0
  crc : BitVec 32 := 0
deriving DecidableEq, Repr

/-- One copy of a persistent value: its words and its CRC (R411). -/
structure Stored where
  words : List Word
  crc : BitVec 32
deriving DecidableEq, Repr

/-- Boot flash (R403), and the ROM's digests of the firmware, record and licence keys (R402). Log 182. -/
structure BootFlash where
  rom : List (BitVec 384) := []
  dir : List Directory := [{}, {}]
  records : List (Option DeviceRecord) := [none, none]
  licences : List (Option Licence) := []
  configs : List (Option BootConfig) := [none, none]
  /-- Training cache: the two copies of each stack's record, copy 1 at 32 plus the stack. -/
  training : SMap (Option TrainRec) := []
  slots : List (Option SlotImage) := [none, none]
  /-- Persistent values, the two copies of each: e_GB at 0 and 1, the last drain at 2 and 3, the field row repairs at 4 and 5. -/
  values : SMap (Option Stored) := []
deriving DecidableEq, Repr

/-- The compute reset in progress (R417). -/
structure CReset where
  c : Nat
  tile : Bool
  stopped : Bool := false
  asserted : Bool := false
  restarted : Bool := false
  /-- Admission stays stopped by a completed TIER_FLUSH (R418). -/
  keepStopped : Bool := false
  /-- R429. -/
  third : Bool := false
deriving DecidableEq, Repr

/-- The TICK_SET sequence (R68). -/
structure PeriodJob where
  q : Nat
  stopAt : Nat
deriving DecidableEq, Repr

/-- A host access that waits for slots (R467). -/
inductive HostOp where
  | read (addr size : Nat)
  | write (addr : Nat) (data : List Byte) (poison : Bool)
deriving DecidableEq, Repr

/-- What the device shows outside its queues: responses and messages since the last tick boundary. -/
inductive Out where
  | hostData (data : List Byte) (poison : Bool)
  | hostDone
  | hostError
  | msi (vector : Nat)
  | mgt (op : Byte) (reqId : BitVec 16) (result : Byte) (body : List Byte)
  | wire (port : Nat) (pkt : Packet)
  | block (port : Nat) (b : Block)
  | pmbus (code : Byte) (value : Nat)
  | tls (accepted : Bool)
deriving DecidableEq, Repr

/-- The management island (R444 to R463). -/
structure Island where
  records : List TenantRec := [{}, {}]
  /-- The key the FMCs hold. -/
  key : Option (BitVec 512) := none
  /-- The device root secret's derived keys never leave the island (R447); only whether they exist is shown. -/
  anchors : List (BitVec 384) := []
  sessions : Nat := 0
  /-- The operation whose response is outstanding: op and REQ_ID. -/
  busy : Option (Byte × BitVec 16) := none
  release : Option Nat := none
  purging : Bool := false
  clearAt : Option Nat := none
  assignAt : Option Nat := none
  lastTransition : Nat := 0
  failed : Bool := false
  staged : Option Bool := none
  resetPending : Option (Byte × BitVec 16) := none
  /-- What the silicon will show the warm start that waits for its TIER_FLUSH (R416). -/
  warmEnv : Option StartEnv := none
deriving DecidableEq, Repr

/-- The pins of R499 that are state. Log 160. -/
structure Pins where
  drainDone : Bool := false
  coldRstN : Bool := false
  auxRstN : Bool := false
  mainPg : Bool := false
  pwrFailN : Bool := true
  thermAlertN : Bool := true
  thermTripN : Bool := true
  strapTest : Bool := false
  strapAuxclk : Bool := false
deriving DecidableEq, Repr

/-- Network time and the TIM block beside its registers (R67, R492, R493). -/
structure Tim where
  netTime : Nat := 0
  tick : Nat := 0
  periodQ : Nat := 8
  beacons : SMap BeaconRec := []
  goodRun : Nat := 0
  badRun : Nat := 0
  lastPps : Option Nat := none
  ppsRun : Nat := 0
  ppsBad : Nat := 0
  held : Int := 0
  lastSend : Nat := 0
  /-- Step 11 has taken an edge or a beacon (R414). -/
  gotTime : Bool := false
  ownStratum : Nat := 255
  everLocked : Bool := false
  /-- The network time since which there has been no candidate (R492). -/
  noCand : Nat := 0
  /-- Time from release of reset to the last step that has ended, in ms (R490, START_MS). -/
  startMs : Nat := 0
  period : Option PeriodJob := none
  /-- PERIOD_Q of the TICK_SETs that wait for it, oldest first (log 74). -/
  periodNext : List Nat := []
  /-- The latest instant that a read or a record has shown (R494: reads of TIM_NOW never decrease). -/
  shown : Nat := 0
  /-- Network time at the end of step 11, from which the wait for ADMIT_EN goes on (R490). -/
  readyNs : Nat := 0
deriving DecidableEq, Repr

/-- A table entry that firmware writes by a bank switch (R32, R55), with the command that asked for it. -/
structure TabWrite where
  table : Table
  index : Nat
  words : List Word
  ring : Nat := 0
  tag : BitVec 32 := 0
  /-- The block that the entry's old value names, to be given back once the old bank is free. -/
  old : Option Nat := none
deriving DecidableEq, Repr

/-- A block of the control region to give back: when OLD_FREE of a table sets, or at a tick (R55, R281). -/
structure FreeJob where
  base : Nat
  table : Option Table
  tick : Nat
deriving DecidableEq, Repr

/-- Firmware beside its registers (R373 to R399). -/
structure Fw where
  journal : List Journal := []
  held : List (Nat × Cpl) := []
  /-- Held events, each with its TICK (R392, R393). -/
  evtHeld : List (EventRec × Nat) := []
  evtLost : Nat := 0
  logLost : Bool := false
  trcLost : Bool := false
  trcUsed : Nat := 0
  /-- Commands taken in this tick (R383). -/
  cmdUsed : Nat := 0
  /-- Vector moderation per ring: a signal is due at this tick; window opened at. -/
  sigDue : SMap Nat := []
  sigLast : SMap Nat := []
  restarts : List (Nat × Nat) := []
  /-- Cores whose tasks are to move, each with the tick of its reset (R397). -/
  moving : List (Nat × Nat) := []
  /-- Commands that firmware has not taken yet: they wait in their rings (R383, R418). -/
  waiting : List (Nat × Entry) := []
  /-- Table-fetch slots that firmware has used in this tick, by stack × 64 + pseudo-channel (R83, R374). -/
  slots : SMap Nat := []
  /-- The Iluong image in SRAM, and the digest taken of it at boot (R397). -/
  sram : List Byte := []
  sramDigest : Option (BitVec 384) := none
  /-- Table number to one plus the tick in which firmware requested its pending switch (R55). -/
  gather : SMap Nat := []
  /-- Entries of the last switch of a firmware table, still to be written into its old bank. -/
  sync : List TabWrite := []
  /-- Changes that wait for OLD_FREE of their table. -/
  deferred : List TabWrite := []
  frees : List FreeJob := []
  /-- Lines of tables that failed their check and that their writer rewrites at the next boundary (R255). -/
  rewrites : List Nat := []
  /-- What the writer of a table knows of a line that is upset: the line and its bytes (R255; log 155). -/
  masters : List (Nat × List Byte) := []
  policies : List PolicyJob := []
  blocks : List (Nat × Nat) := []
  /-- Host physical address of the task journals in the control region, 0 before the layout (R41, R398; log 157). -/
  journalBase : Nat := 0
  epochPolicy : Nat := 0
  /-- The boot configuration that the last start took (R411). -/
  config : Option BootConfig := none
deriving DecidableEq, Repr

/-- Admission (chapter 3) beside the HDG registers. -/
structure Adm where
  intake : List Queued := []
  homeQ : List (Nat × Queued) := []
  asm : List (Nat × Assembly) := []
  /-- Packets whose reply finds the port's allowance used up: port, link VC, packet (R310). -/
  ingress : List (Nat × Nat × Packet) := []
  claims : List Claim := []
  reqs : List Req := []
  /-- Shares of the boundary of a tick: key (tick*4+owner)*8+class, value shares to tiles 0 to 3. -/
  shareLog : SMap (List Nat) := []
  nextShares : SMap (List Nat) := []
  /-- Demand of the tick: key (owner*8+class)*4+tile. -/
  demand : SMap Nat := []
  report : SMap Nat := []
  throttle : SMap Nat := []
  floors : SMap Nat := []
  nextRid : Nat := 1
  dirtyUsed : SMap Nat := []
  dirtyRefused : SMap Nat := []
  /-- Groups already charged in this tick by each Headgate (R91): key tile, value group keys. -/
  dirtyGroups : List (Nat × Nat) := []
  noGrant : List (Nat × Nat) := []
  /-- Heads that each tile has taken in this tick (R78). -/
  heads : SMap Nat := []
  /-- Logical cores that run past their reserved engine-cycles in this tick (R115). -/
  overran : List Nat := []
  notices : List Notice := []
  repairUsed : SMap Nat := []
deriving DecidableEq, Repr

/-- An entry of a program cache (R106): the words read from its bank. -/
structure ProgCopy where
  words : List Word := []
  bad : Bool := false
deriving DecidableEq, Repr

/-- A table line that a tile's Headgate holds a copy of (R30, R426; log 139): its physical line. -/
structure TableCopy where
  tile : Nat
  line : Nat
  bad : Bool := false
deriving DecidableEq, Repr

/-- Tables and pool bookkeeping of firmware and the TIER blocks. -/
structure Tier where
  parcels : SMap ParcelOwner := []
  pft : SMap Pft := []
  fht : SMap Fht := []
  lsm : SMap LineSt := []
  hands : SMap Nat := []
  ebbHead : List Nat := []
  ebbBook : SMap Nat := []
  ebbLevel : SMap Nat := []
  /-- Booked bytes that each channel has moved in this tick (R223). -/
  ebbSpent : SMap Nat := []
  cleaned : List Nat := []
  cleanedNow : Nat := 0
  fetches : List Fetch := []
  programs : List Program := []
  stripes : List Stripe := []
  /-- Number of the next stripe of each set. -/
  stripeNext : SMap Nat := []
  /-- Blocks of a die that hold no data: initially bad and retired ones (R266). -/
  badBlocks : List (Nat × Nat) := []
  /-- Blocks to retire once their valid groups are elsewhere (R266). -/
  retiring : List (Nat × Nat) := []
  rebuilds : List Rebuild := []
  flash : List Host.Cell := []
  fgroups : SMap FGroup := []
  /-- Sectors by their places (R262). -/
  sectors : SMap Sector := []
  /-- Groups and sectors of each tile that the totals of R161 have counted. -/
  storedSeen : SMap (Nat × Nat) := []
  spares : SMap Nat := []
  lowSince : SMap Nat := []
  drains : List DrainJob := []
  revDrained : List Nat := []
  pins : List PinJob := []
  /-- Pinned extents in pin order (R237). -/
  pinOrder : List Nat := []
  repins : List Nat := []
  slotA : Checkpoint := {}
  slotB : Checkpoint := {}
  lost : List (Nat × Nat) := []
  stale : List Stale := []
  invals : List Inval := []
  /-- The program caches (R106): key unit times 2,048 plus bank times 1,024 plus program; units are the physical cores, then the four
  Headgates. -/
  pcache : SMap ProgCopy := []
  copies : List TableCopy := []
  retired : List Nat := []
deriving DecidableEq, Repr

/-- The Reservoir model beside the RSV registers (R224 to R231). -/
structure Rsv where
  /-- V of R225 in mV: 0 when the sense reading is out of range, the lower reading on a mismatch. -/
  v : Nat := 0
  /-- E_usable of the last tick, in units of 0.5 pJ, so that R226 is exact. -/
  energy : Nat := 0
  grantPrev : Nat := 0
  ratedMf : Option Nat := none
  capTestStartMv : Option Nat := none
  /-- Charge that the bank has given up in the running test, up to the last boundary, in units of 10⁻¹¹ C (R227). -/
  testCharge : Nat := 0
  fails : Nat := 0
  vpmb : Option Nat := none
  drain : Option Drain := none
  /-- Admission is stopped by a completed TIER_FLUSH (R239), or the device by DRAIN_DONE (R235). -/
  flushed : Bool := false
  dead : Bool := false
  /-- A compute reset has stopped admission: no grant until it resumes (R239). -/
  noGrant : Bool := false
  /-- Time for which LEVEL has been 7, in µs (R515). -/
  level7Us : Nat := 0
  lastTest : Nat := 0
deriving DecidableEq, Repr

/-- The HBM controllers and the Dredge beside their registers. -/
structure Hmc where
  /-- Stacks whose CRC_FAIL a merging write has set and whose page signals at the next boundary (R440, log 151). -/
  owed : List Nat := []
  repairs : List Repair := []
  trained : SMap LaneTrain := []
  spareUsed : List (Nat × Nat) := []
  /-- Bridge lanes of flash stacks and of inter-tile links that a spare replaces: die, lane and spare (R408, R414). -/
  bridgeSpares : List (Nat × Nat × Nat) := []
  calPos : SMap Nat := []
  /-- One plus the tick of the last calibration probe of a pseudo-channel. -/
  calTick : SMap Nat := []
  /-- Patrol of each channel: bytes of the present page already read, and the pages with a frame booked, in order: page and the tick in which
  its sense ends (R269). -/
  patrolBytes : SMap Nat := []
  patrolSense : SMap (List (Nat × Nat)) := []
  /-- Pages that the patrol of each channel has read in the present lap (R273). -/
  patrolDone : SMap Nat := []
  dredgePos : SMap Nat := []
  wrapped : SMap Bool := []
  lapStart : SMap Nat := []
  slowMarked : SMap Bool := []
  refreshes : Nat := 0
  /-- Rows that repairs have replaced (R409, R412). -/
  rowRepairs : List HbmRow := []
deriving DecidableEq, Repr

/-- A PTE that a tile's walk cache or a core's translation cache may hold (R198): its tags and its value. -/
structure PteEntry where
  tile : Nat
  asid : Nat
  mode : Nat
  level : Nat
  /-- The virtual-address bits above the entry's level. -/
  va : Nat
  pte : Word
  /-- A parity error (R426). -/
  bad : Bool := false
deriving DecidableEq, Repr

/-- Translation state beside the XLT registers (R198 to R207). -/
structure Xlt where
  /-- The walk cache of each tile, the most recently used entry last. -/
  cache : List PteEntry := []
  /-- The leaf cache of each core (physical core number), the most recently used entry last. -/
  leafs : List (Nat × PteEntry) := []
  groups : List FaultGroup := []
  gens : SMap Nat := []
  parked : List Parked := []
  /-- Pending invalidations, oldest first (log 43). -/
  inv : List XltInv := []
deriving DecidableEq, Repr

/-- A cached directory line: its physical line, its 32 entries, and a parity error (R279, R426). -/
structure DirCopy where
  line : Nat
  bytes : List Byte
  bad : Bool := false
deriving DecidableEq, Repr

/-- Coherence state beside the COH registers. -/
structure Coh where
  doms : SMap Dom := []
  recalls : List Recall := []
  /-- Lines in E or M: tile, extent and line (R289). -/
  held : List (Nat × Nat × Nat) := []
  /-- Snoop responses that wait behind earlier packets of their stream: tile, port and packet (R288). -/
  waiting : List (Nat × Nat × Packet) := []
  /-- The directory lines that the COH blocks cache (R279). -/
  dirs : List DirCopy := []
  /-- Snoops sent in this tick: key tile times 4096 plus domain (R287). -/
  snoopUsed : SMap Nat := []
deriving DecidableEq, Repr

/-- Fabric side: routers, links, schedulers, telemetry. -/
structure Fab where
  links : SMap Link := []
  scheds : SMap Sched := []
  transit : List TransitPkt := []
  /-- Transit bytes sent from tile to tile in this tick, by 4 × from + to (R317). -/
  crossed : SMap Nat := []
  routes : SMap RouteMemo := []
  tel : SMap Tel := []
  order : Nat := 0
deriving DecidableEq, Repr

/-- The whole block. -/
structure State where
  regs : SMap Word := []
  /-- Selector banks of firmware (key 2*offset) and the management controller (key 2*offset+1), R487. -/
  selBank : SMap Word := []
  hbm : List Host.Cell := []
  lmeta : SMap LineMeta := []
  tim : Tim := {}
  tier : Tier := {}
  rsv : Rsv := {}
  hmc : Hmc := {}
  adm : Adm := {}
  xlt : Xlt := {}
  coh : Coh := {}
  fab : Fab := {}
  fw : Fw := {}
  boot : BootFlash := {}
  island : Island := {}
  pins : Pins := {}
  creset : Option CReset := none
  tileFaults : List Nat := []
  opened : Bool := false
  prng : SMap Word := []
  hostWait : List (Nat × HostOp) := []
  hostUse : SMap Nat := []
  /-- A restart of the host die under R476: the tick I of its cause, and whether firmware releases the host die again. -/
  hostReset : Option (Nat × Bool) := none
  signalled : List Nat := []
  out : List Out := []
  fresh : Nat := 0
  pending : List Instr := []
deriving DecidableEq, Repr

/-- The block right after its rails come up: every register at its reset value (none listed), no memory listed, every
queue empty, DRAIN_DONE low (R502), the inputs at the levels of their pulls (R499, log 2). -/
def State.reset : State := {}

end Sys2Proof.Machine
end

