-- ==== Sys2Proof/Machine/RegMap.lean ====
section
/-! DEFINITION. The register map (chapter 19): which block a page belongs to, the fields of every register with their
access codes and reset values (R37, R66, R103, R136, R186, R209, R240, R241, R271 to R273, R296, R322, R351, R372, R401,
R439 to R441, R463, R477, R481 to R496), and which fields the host die may write (R479, R496). -/

namespace Sys2Proof.Machine

/-- Access codes of register fields (00_scope.md; RSV fields are the bits of no field). -/
inductive Acc where
  | ro | rw | w1c | w1s
deriving DecidableEq, Repr

/-- A field: bits [hi:lo], access, reset value, and whether the host die may write it (R479). -/
structure Fld where
  hi : Nat
  lo : Nat
  acc : Acc
  reset : Nat
  host : Bool
deriving DecidableEq, Repr

/-- A register, or an array of `count` registers `stride` bytes apart, at page offset `off`. -/
structure Reg where
  off : Nat
  count : Nat
  stride : Nat
  flds : List Fld
deriving DecidableEq, Repr

/-- The blocks that own register pages (R375, R488, R489); FWC owns four pages. -/
inductive Blk where
  | glb | lic | tim | thm | rsv | mgt | uci | ext | fwc | fwc1 | fwc2 | fwc3
  | hdg | xlt | tier | drg | coh | rtr | sch | lnk | hmc | fmc | eng
deriving DecidableEq, Repr

/-- The block-specific registers of the GLB page. -/
def regs_glb : List Reg :=
  [
   -- GLB_START
   ⟨0x200, 1, 0x8, [⟨47, 32, .ro, 0, false⟩, ⟨17, 16, .ro, 0, false⟩, ⟨15, 8, .ro, 0, false⟩, ⟨7, 0, .ro, 0, false⟩]⟩,
   -- GLB_SERIAL
   ⟨0x208, 1, 0x8, [⟨63, 0, .ro, 0, false⟩]⟩,
   -- GLB_RECORD
   ⟨0x210, 1, 0x8, [⟨47, 32, .ro, 0, false⟩, ⟨31, 0, .ro, 0, false⟩]⟩,
   -- GLB_RESET
   ⟨0x218, 1, 0x8, [⟨63, 16, .ro, 0, false⟩, ⟨4, 1, .ro, 0, false⟩, ⟨0, 0, .ro, 0, false⟩]⟩,
   -- GLB_TILE_FAULT
   ⟨0x220, 1, 0x8, [⟨63, 16, .ro, 0, false⟩, ⟨15, 8, .ro, 0, false⟩, ⟨5, 4, .ro, 0, false⟩, ⟨2, 1, .ro, 0, false⟩, ⟨0, 0, .ro, 0, false⟩]⟩,
   -- GLB_DISCARD
   ⟨0x228, 1, 0x8, [⟨63, 16, .ro, 0, false⟩, ⟨5, 4, .ro, 0, false⟩, ⟨3, 0, .ro, 0, false⟩]⟩,
   -- GLB_SPARES
   ⟨0x230, 1, 0x8, [⟨7, 0, .ro, 0, false⟩]⟩]

/-- The block-specific registers of the LIC page. -/
def regs_lic : List Reg :=
  [
   -- LIC_STATE
   ⟨0x200, 1, 0x8, [⟨63, 32, .ro, 0, false⟩, ⟨22, 16, .ro, 0, false⟩, ⟨9, 9, .ro, 0, false⟩, ⟨8, 8, .ro, 0, false⟩, ⟨7, 7, .ro, 0, false⟩, ⟨6, 6, .ro, 0, false⟩, ⟨5, 5, .ro, 0, false⟩, ⟨4, 4, .ro, 0, false⟩, ⟨3, 2, .ro, 0, false⟩, ⟨1, 0, .ro, 0, false⟩]⟩,
   -- LIC_PORTS
   ⟨0x208, 1, 0x8, [⟨31, 0, .ro, 0, false⟩]⟩,
   -- LIC_SLOT_SEL
   ⟨0x210, 1, 0x8, [⟨5, 0, .rw, 0, true⟩]⟩,
   -- LIC_SLOT
   ⟨0x218, 1, 0x8, [⟨63, 32, .ro, 0, false⟩, ⟨31, 16, .ro, 0, false⟩, ⟨4, 3, .ro, 0, false⟩, ⟨2, 2, .ro, 0, false⟩, ⟨1, 1, .ro, 0, false⟩, ⟨0, 0, .ro, 0, false⟩]⟩]

/-- The block-specific registers of the TIM page. -/
def regs_tim : List Reg :=
  [
   -- TIM_NOW
   ⟨0x200, 1, 0x8, [⟨63, 0, .ro, 0, false⟩]⟩,
   -- TIM_TICK
   ⟨0x208, 1, 0x8, [⟨53, 48, .ro, 8, false⟩, ⟨47, 0, .ro, 0, false⟩]⟩,
   -- TIM_CTRL
   ⟨0x210, 1, 0x8, [⟨47, 32, .rw, 0x64, false⟩, ⟨31, 16, .rw, 0x64, false⟩, ⟨1, 1, .rw, 1, false⟩, ⟨0, 0, .rw, 0, false⟩]⟩,
   -- TIM_STATUS
   ⟨0x218, 1, 0x8, [⟨20, 16, .ro, 0, false⟩, ⟨12, 12, .ro, 0, false⟩, ⟨11, 11, .ro, 0, false⟩, ⟨10, 10, .ro, 0, false⟩, ⟨9, 9, .ro, 0, false⟩, ⟨8, 8, .ro, 0, false⟩, ⟨7, 0, .ro, 0xff, false⟩]⟩,
   -- TIM_OFFSET
   ⟨0x220, 1, 0x8, [⟨63, 32, .ro, 0, false⟩, ⟨31, 0, .ro, 0, false⟩]⟩]

/-- The block-specific registers of the THM page. -/
def regs_thm : List Reg :=
  [
   -- THM_TILE
   ⟨0x200, 1, 0x8, [⟨31, 0, .ro, 0, false⟩]⟩,
   -- THM_HBM_w
   ⟨0x208, 3, 0x8, [⟨63, 0, .ro, 0, false⟩]⟩,
   -- THM_FLASH_w
   ⟨0x220, 2, 0x8, [⟨63, 0, .ro, 0, false⟩]⟩,
   -- THM_HOST
   ⟨0x230, 1, 0x8, [⟨7, 0, .ro, 0, false⟩]⟩,
   -- THM_LIMITS
   ⟨0x238, 1, 0x8, [⟨47, 40, .rw, 0x50, false⟩, ⟨39, 32, .rw, 0x46, false⟩, ⟨31, 24, .rw, 0x5f, false⟩, ⟨23, 16, .rw, 0x55, false⟩, ⟨15, 8, .rw, 0x69, false⟩, ⟨7, 0, .rw, 0x5f, false⟩]⟩,
   -- THM_THROTTLE
   ⟨0x240, 1, 0x8, [⟨23, 16, .ro, 0, false⟩, ⟨15, 8, .ro, 0, false⟩, ⟨3, 3, .ro, 0, false⟩, ⟨2, 0, .ro, 0, false⟩]⟩]

/-- The block-specific registers of the RSV page. -/
def regs_rsv : List Reg :=
  [
   -- RSV_BANK
   ⟨0x200, 1, 0x8, [⟨55, 48, .ro, 0, false⟩, ⟨47, 32, .ro, 0, false⟩, ⟨31, 16, .ro, 0, false⟩, ⟨15, 0, .ro, 0, false⟩]⟩,
   -- RSV_MODEL
   ⟨0x208, 1, 0x8, [⟨49, 40, .rw, 0x398, false⟩, ⟨39, 24, .rw, 0x7530, false⟩, ⟨23, 0, .ro, 0, false⟩]⟩,
   -- RSV_ENERGY
   ⟨0x210, 1, 0x8, [⟨31, 0, .ro, 0, false⟩]⟩,
   -- RSV_CTRL
   ⟨0x218, 1, 0x8, [⟨62, 56, .rw, 0x46, false⟩, ⟨55, 48, .rw, 0x18, false⟩, ⟨47, 32, .rw, 0x190, false⟩, ⟨31, 16, .ro, 0, false⟩, ⟨11, 0, .rw, 0x320, false⟩]⟩,
   -- RSV_POLICY
   ⟨0x220, 1, 0x8, [⟨39, 32, .rw, 0xa, false⟩, ⟨31, 24, .rw, 0x4b, false⟩, ⟨23, 16, .rw, 0x19, false⟩, ⟨15, 0, .rw, 0x800, false⟩]⟩,
   -- RSV_FREEBOARD
   ⟨0x228, 1, 0x8, [⟨39, 0, .ro, 0, false⟩]⟩,
   -- RSV_DIRTY
   ⟨0x230, 1, 0x8, [⟨39, 0, .ro, 0, false⟩]⟩,
   -- RSV_GRANT
   ⟨0x238, 1, 0x8, [⟨63, 32, .ro, 0, false⟩, ⟨31, 0, .ro, 0, false⟩]⟩,
   -- RSV_CHARGE
   ⟨0x240, 1, 0x8, [⟨16, 16, .rw, 1, false⟩, ⟨15, 0, .rw, 0x2710, false⟩]⟩,
   -- RSV_STATUS
   ⟨0x248, 1, 0x8, [⟨7, 7, .ro, 0, false⟩, ⟨6, 6, .ro, 0, false⟩, ⟨5, 5, .ro, 0, false⟩, ⟨4, 4, .ro, 0, false⟩, ⟨3, 3, .ro, 0, false⟩, ⟨2, 2, .ro, 0, false⟩, ⟨1, 1, .ro, 0, false⟩, ⟨0, 0, .ro, 0, false⟩]⟩,
   -- RSV_LAST_DRAIN
   ⟨0x250, 1, 0x8, [⟨32, 32, .ro, 0, false⟩, ⟨31, 0, .ro, 0, false⟩]⟩]

/-- The block-specific registers of the MGT page. -/
def regs_mgt : List Reg :=
  [
   -- MGT_TENANT
   ⟨0x200, 1, 0x8, [⟨63, 32, .ro, 0, false⟩, ⟨5, 5, .ro, 0, false⟩, ⟨4, 3, .ro, 0, false⟩, ⟨2, 0, .ro, 0, false⟩]⟩,
   -- MGT_KEY
   ⟨0x208, 1, 0x8, [⟨31, 16, .ro, 0, false⟩, ⟨15, 0, .ro, 0, false⟩]⟩,
   -- MGT_RELEASE
   ⟨0x210, 1, 0x8, [⟨63, 56, .ro, 0, false⟩, ⟨47, 0, .ro, 0, false⟩]⟩,
   -- MGT_PORT
   ⟨0x218, 1, 0x8, [⟨11, 9, .ro, 0, false⟩, ⟨8, 6, .ro, 0, false⟩, ⟨2, 1, .ro, 0, false⟩, ⟨0, 0, .ro, 0, false⟩]⟩]

/-- The block-specific registers of the UCI page. -/
def regs_uci : List Reg :=
  [
   -- UCI_MOD_m
   ⟨0x200, 4, 0x8, [⟨10, 8, .ro, 0, false⟩, ⟨7, 5, .ro, 0, false⟩, ⟨1, 0, .ro, 0, false⟩]⟩,
   -- UCI_HOST_CTRL
   ⟨0x220, 1, 0x8, [⟨31, 16, .rw, 0x1388, false⟩, ⟨0, 0, .rw, 1, false⟩]⟩,
   -- UCI_HOST_STATUS
   ⟨0x228, 1, 0x8, [⟨51, 4, .ro, 0, false⟩, ⟨1, 0, .ro, 0, false⟩]⟩,
   -- UCI_HOST_ALIVE
   ⟨0x230, 1, 0x8, [⟨63, 0, .rw, 0, true⟩]⟩,
   -- UCI_VEC_MASK_j
   ⟨0x240, 8, 0x8, [⟨63, 0, .rw, 0xffffffffffffffff, true⟩]⟩,
   -- UCI_VEC_PEND_j
   ⟨0x280, 8, 0x8, [⟨63, 0, .ro, 0, false⟩]⟩]

/-- The block-specific registers of the EXT page. -/
def regs_ext : List Reg :=
  [
   -- EXT_x_BASE0
   ⟨0x200, 8, 0x20, [⟨51, 12, .rw, 0, false⟩]⟩,
   -- EXT_x_BASE1
   ⟨0x208, 8, 0x20, [⟨51, 12, .rw, 0, false⟩]⟩,
   -- EXT_x_GEOM
   ⟨0x210, 8, 0x20, [⟨47, 16, .ro, 0, false⟩, ⟨3, 0, .ro, 0, false⟩]⟩,
   -- EXT_x_CTRL
   ⟨0x218, 8, 0x20, [⟨63, 16, .rw, 0, true⟩, ⟨3, 3, .w1c, 0, true⟩, ⟨2, 2, .ro, 1, false⟩, ⟨1, 1, .w1s, 0, true⟩, ⟨0, 0, .ro, 0, false⟩]⟩,
   -- EXT_MAP
   ⟨0x300, 1, 0x8, [⟨47, 32, .ro, 8, false⟩, ⟨31, 16, .ro, 0, false⟩, ⟨15, 0, .ro, 0, false⟩]⟩,
   -- EXT_FRAMES
   ⟨0x308, 1, 0x8, [⟨63, 32, .ro, 0, false⟩, ⟨31, 0, .ro, 0, false⟩]⟩,
   -- EXT_PARCELS
   ⟨0x310, 1, 0x8, [⟨63, 32, .ro, 0, false⟩, ⟨31, 0, .ro, 0, false⟩]⟩]

/-- The block-specific registers of the FWC page. -/
def regs_fwc : List Reg :=
  [
   -- FWC_VERSION
   ⟨0x200, 1, 0x8, [⟨47, 32, .ro, 0, false⟩, ⟨31, 24, .ro, 0, false⟩, ⟨23, 16, .ro, 0, false⟩, ⟨15, 8, .ro, 0, false⟩, ⟨0, 0, .ro, 0, false⟩]⟩,
   -- FWC_CORES
   ⟨0x208, 1, 0x8, [⟨26, 24, .ro, 0, false⟩, ⟨23, 16, .ro, 0, false⟩, ⟨15, 8, .ro, 0, false⟩, ⟨7, 0, .ro, 0xff, false⟩]⟩,
   -- FWC_WDT
   ⟨0x210, 1, 0x8, [⟨23, 16, .rw, 3, true⟩, ⟨15, 0, .rw, 0x40, true⟩]⟩,
   -- FWC_CMD_RATE
   ⟨0x218, 1, 0x8, [⟨8, 0, .rw, 0x40, true⟩]⟩,
   -- FWC_RING_AREA
   ⟨0x220, 1, 0x8, [⟨51, 12, .ro, 0, false⟩]⟩,
   -- FWC_LOG_LEVEL
   ⟨0x228, 1, 0x8, [⟨2, 0, .rw, 1, true⟩]⟩]

/-- The block-specific registers of the FWC1 page. -/
def regs_fwc1 : List Reg :=
  [
   -- FWC_CMD_BASE_i
   ⟨0x200, 4, 0x40, [⟨51, 12, .rw, 0, true⟩]⟩,
   -- FWC_RING_CFG_i
   ⟨0x208, 4, 0x40, [⟨63, 56, .rw, 0, true⟩, ⟨40, 32, .rw, 0, true⟩, ⟨6, 6, .w1c, 0, true⟩, ⟨5, 5, .rw, 0, true⟩, ⟨4, 0, .rw, 6, true⟩]⟩,
   -- FWC_CMD_HEAD_i
   ⟨0x210, 4, 0x40, [⟨16, 0, .rw, 0, true⟩]⟩,
   -- FWC_CMD_TAIL_i
   ⟨0x218, 4, 0x40, [⟨16, 0, .ro, 0, false⟩]⟩,
   -- FWC_CPL_BASE_i
   ⟨0x220, 4, 0x40, [⟨51, 12, .rw, 0, true⟩]⟩,
   -- FWC_CPL_HEAD_i
   ⟨0x228, 4, 0x40, [⟨16, 0, .ro, 0, false⟩]⟩,
   -- FWC_CPL_TAIL_i
   ⟨0x230, 4, 0x40, [⟨16, 0, .rw, 0, true⟩]⟩,
   -- FWC_RING_STAT_i
   ⟨0x238, 4, 0x40, [⟨28, 16, .ro, 0, false⟩, ⟨12, 0, .ro, 0, false⟩]⟩]

/-- The block-specific registers of the FWC2 page. -/
def regs_fwc2 : List Reg :=
  [
   -- FWC_x_BASE
   ⟨0x200, 3, 0x40, [⟨51, 12, .rw, 0, true⟩]⟩,
   -- FWC_x_CFG
   ⟨0x208, 3, 0x40, [⟨63, 56, .rw, 0, true⟩, ⟨40, 32, .rw, 0, true⟩, ⟨6, 6, .w1c, 0, true⟩, ⟨5, 5, .rw, 0, true⟩, ⟨4, 0, .rw, 6, true⟩]⟩,
   -- FWC_x_HEAD
   ⟨0x210, 3, 0x40, [⟨16, 0, .ro, 0, false⟩]⟩,
   -- FWC_x_TAIL
   ⟨0x218, 3, 0x40, [⟨16, 0, .rw, 0, true⟩]⟩,
   -- FWC_TRACE_EN_j
   ⟨0x300, 16, 0x8, [⟨63, 0, .rw, 0, true⟩]⟩]

/-- The block-specific registers of the FWC3 page. -/
def regs_fwc3 : List Reg :=
  [
   -- FWC_CORE_k
   ⟨0x200, 8, 0x8, [⟨57, 56, .ro, 0, false⟩, ⟨55, 48, .ro, 0, false⟩, ⟨47, 0, .ro, 0, false⟩]⟩]

/-- The block-specific registers of the HDG page. -/
def regs_hdg : List Reg :=
  [
   -- HDG_ADMIT_CTRL
   ⟨0x200, 1, 0x8, [⟨15, 8, .rw, 0x50, false⟩, ⟨1, 1, .ro, 1, false⟩, ⟨0, 0, .rw, 0, false⟩]⟩,
   -- HDG_BULK
   ⟨0x208, 1, 0x8, [⟨47, 0, .rw, 0x2000, false⟩]⟩,
   -- HDG_LEASE_POLICY
   ⟨0x210, 1, 0x8, [⟨8, 8, .rw, 0, false⟩, ⟨7, 4, .rw, 0, false⟩, ⟨3, 0, .rw, 4, false⟩]⟩,
   -- HDG_MAX_PCT
   ⟨0x218, 1, 0x8, [⟨47, 0, .ro, 0, false⟩]⟩,
   -- HDG_REFUSE_LAST
   ⟨0x220, 1, 0x8, [⟨63, 48, .ro, 0, false⟩, ⟨47, 0, .ro, 0, false⟩]⟩,
   -- HDG_REFUSE_INFO
   ⟨0x228, 1, 0x8, [⟨8, 4, .ro, 0, false⟩, ⟨3, 0, .ro, 0, false⟩]⟩,
   -- HDG_SHARE_SEL
   ⟨0x230, 1, 0x8, [⟨2, 0, .rw, 0, true⟩]⟩,
   -- HDG_SHARE
   ⟨0x238, 1, 0x8, [⟨30, 24, .ro, 0x10, false⟩, ⟨22, 16, .ro, 0x10, false⟩, ⟨14, 8, .ro, 0x10, false⟩, ⟨6, 0, .ro, 0x10, false⟩]⟩,
   -- HDG_DIRTY
   ⟨0x240, 1, 0x8, [⟨31, 0, .ro, 0, false⟩]⟩,
   -- HDG_SR_SEED
   ⟨0x248, 1, 0x8, [⟨63, 0, .rw, 0, false⟩]⟩]

/-- The block-specific registers of the XLT page. -/
def regs_xlt : List Reg :=
  [
   -- XLT_FQ_BASE
   ⟨0x200, 1, 0x8, [⟨51, 12, .ro, 0, false⟩]⟩,
   -- XLT_FQ_HEAD
   ⟨0x208, 1, 0x8, [⟨12, 0, .ro, 0, false⟩]⟩,
   -- XLT_FQ_TAIL
   ⟨0x210, 1, 0x8, [⟨12, 0, .rw, 0, true⟩]⟩,
   -- XLT_FQ_STATUS
   ⟨0x218, 1, 0x8, [⟨45, 32, .ro, 0, true⟩, ⟨28, 16, .ro, 0, true⟩, ⟨0, 0, .w1c, 0, true⟩]⟩,
   -- XLT_INV_VA
   ⟨0x220, 1, 0x8, [⟨56, 12, .rw, 0, true⟩]⟩,
   -- XLT_INV_CTRL
   ⟨0x228, 1, 0x8, [⟨31, 16, .rw, 0, true⟩, ⟨6, 6, .w1c, 0, true⟩, ⟨5, 5, .ro, 0, true⟩, ⟨4, 4, .w1s, 0, true⟩, ⟨1, 0, .rw, 0, true⟩]⟩,
   -- XLT_RESUME
   ⟨0x230, 1, 0x8, [⟨18, 18, .w1c, 0, true⟩, ⟨17, 17, .w1s, 0, true⟩, ⟨16, 16, .rw, 0, true⟩, ⟨15, 12, .rw, 0, true⟩, ⟨11, 0, .rw, 0, true⟩]⟩]

/-- The block-specific registers of the TIER page. -/
def regs_tier : List Reg :=
  [
   -- TIER_PFT_BASE
   ⟨0x200, 1, 0x8, [⟨51, 12, .ro, 0, false⟩]⟩,
   -- TIER_FHT_BASE
   ⟨0x208, 1, 0x8, [⟨51, 12, .ro, 0, false⟩]⟩,
   -- TIER_LSM_BASE
   ⟨0x210, 1, 0x8, [⟨51, 12, .ro, 0, false⟩]⟩,
   -- TIER_FRAMES
   ⟨0x218, 1, 0x8, [⟨59, 40, .ro, 0, false⟩, ⟨39, 20, .ro, 0, false⟩, ⟨19, 0, .ro, 0, false⟩]⟩,
   -- TIER_DIRTY
   ⟨0x220, 1, 0x8, [⟨39, 0, .ro, 0, false⟩]⟩,
   -- TIER_EVICT
   ⟨0x228, 1, 0x8, [⟨9, 0, .rw, 0xa, false⟩]⟩,
   -- TIER_EBB
   ⟨0x230, 1, 0x8, [⟨31, 24, .ro, 0, false⟩, ⟨23, 0, .ro, 0, false⟩]⟩]

/-- The block-specific registers of the DRG page. -/
def regs_drg : List Reg :=
  [
   -- DRG_CTRL
   ⟨0x200, 1, 0x8, [⟨31, 16, .rw, 0x100, false⟩, ⟨1, 1, .rw, 1, false⟩, ⟨0, 0, .rw, 1, false⟩]⟩,
   -- DRG_HBM_LAP
   ⟨0x208, 1, 0x8, [⟨63, 48, .ro, 0, false⟩, ⟨47, 0, .ro, 0, false⟩]⟩,
   -- DRG_FLASH_LAP
   ⟨0x210, 1, 0x8, [⟨63, 48, .ro, 0, false⟩, ⟨47, 0, .ro, 0, false⟩]⟩,
   -- DRG_LAP_LIMIT
   ⟨0x218, 1, 0x8, [⟨31, 16, .rw, 0x18, false⟩, ⟨15, 0, .rw, 0xa, false⟩]⟩,
   -- DRG_POS
   ⟨0x220, 1, 0x8, [⟨15, 8, .ro, 0, false⟩, ⟨7, 0, .ro, 0, false⟩]⟩]

/-- The block-specific registers of the COH page. -/
def regs_coh : List Reg :=
  [
   -- COH_CTRL
   ⟨0x200, 1, 0x8, [⟨15, 0, .rw, 0x100, false⟩]⟩,
   -- COH_DOM_SEL
   ⟨0x208, 1, 0x8, [⟨11, 0, .rw, 0, true⟩]⟩,
   -- COH_DOM_STATE
   ⟨0x210, 1, 0x8, [⟨41, 32, .ro, 0, false⟩, ⟨31, 16, .ro, 0, false⟩, ⟨5, 2, .ro, 0, false⟩, ⟨1, 0, .ro, 0, false⟩]⟩,
   -- COH_DOM_DOWN
   ⟨0x218, 1, 0x8, [⟨47, 0, .ro, 0, false⟩]⟩,
   -- COH_DOM_SWEPT
   ⟨0x220, 1, 0x8, [⟨31, 0, .ro, 0, false⟩]⟩,
   -- COH_OCCUPANCY
   ⟨0x228, 1, 0x8, [⟨44, 32, .ro, 0, false⟩, ⟨22, 0, .ro, 0, false⟩]⟩]

/-- The block-specific registers of the RTR page. -/
def regs_rtr : List Reg :=
  [
   -- RTR_EID
   ⟨0x200, 1, 0x8, [⟨19, 0, .ro, 0, false⟩]⟩,
   -- RTR_ROUTE
   ⟨0x208, 1, 0x8, [⟨14, 12, .rw, 2, false⟩, ⟨10, 8, .rw, 1, false⟩, ⟨7, 0, .rw, 8, false⟩]⟩,
   -- RTR_REPLY
   ⟨0x210, 1, 0x8, [⟨31, 16, .rw, 0x20, false⟩, ⟨15, 0, .rw, 0x100, false⟩]⟩,
   -- RTR_RTC
   ⟨0x218, 1, 0x8, [⟨38, 32, .ro, 0, false⟩, ⟨16, 0, .ro, 0, false⟩]⟩,
   -- RTR_TEL_SEL
   ⟨0x220, 1, 0x8, [⟨5, 3, .rw, 0, true⟩, ⟨2, 0, .rw, 0, true⟩]⟩,
   -- TEL_TX_PKTS
   ⟨0x228, 1, 0x8, [⟨63, 0, .ro, 0, false⟩]⟩,
   -- TEL_TX_BYTES
   ⟨0x230, 1, 0x8, [⟨63, 0, .ro, 0, false⟩]⟩,
   -- TEL_RX_PKTS
   ⟨0x238, 1, 0x8, [⟨63, 0, .ro, 0, false⟩]⟩,
   -- TEL_RX_BYTES
   ⟨0x240, 1, 0x8, [⟨63, 0, .ro, 0, false⟩]⟩,
   -- TEL_STALL
   ⟨0x248, 1, 0x8, [⟨63, 0, .ro, 0, false⟩]⟩,
   -- TEL_HIST_i
   ⟨0x280, 16, 0x8, [⟨63, 0, .ro, 0, false⟩]⟩]

/-- The block-specific registers of the SCH page. -/
def regs_sch : List Reg :=
  [
   -- SCH_FLOOR_k
   ⟨0x200, 8, 0x8, [⟨44, 32, .ro, 0, false⟩, ⟨9, 0, .rw, 0, false⟩]⟩,
   -- SCH_SVC_WEIGHT_k
   ⟨0x240, 8, 0x8, [⟨63, 0, .rw, 0x101010101010101, false⟩]⟩,
   -- SCH_TRANSIT_k
   ⟨0x280, 8, 0x8, [⟨31, 24, .rw, 1, false⟩, ⟨23, 0, .rw, 0, false⟩]⟩,
   -- SCH_LIST_k
   ⟨0x2C0, 8, 0x8, [⟨58, 32, .ro, 0, false⟩, ⟨10, 10, .ro, 0, false⟩, ⟨9, 9, .ro, 1, false⟩, ⟨8, 8, .ro, 0, false⟩, ⟨7, 0, .ro, 0, false⟩]⟩]

/-- The block-specific registers of the LNK page. -/
def regs_lnk : List Reg :=
  [
   -- LNK_CFG
   ⟨0x200, 1, 0x8, [⟨59, 52, .rw, 0x40, false⟩, ⟨51, 44, .rw, 8, false⟩, ⟨43, 32, .rw, 0x1f4, false⟩, ⟨31, 16, .rw, 0x1000, false⟩, ⟨10, 10, .rw, 0, false⟩, ⟨9, 8, .rw, 0, false⟩, ⟨7, 4, .rw, 4, false⟩, ⟨1, 0, .rw, 2, false⟩]⟩,
   -- LNK_CTRL
   ⟨0x208, 1, 0x8, [⟨11, 4, .rw, 0, false⟩, ⟨3, 3, .rw, 1, false⟩, ⟨2, 2, .w1s, 0, false⟩, ⟨1, 1, .w1s, 0, false⟩, ⟨0, 0, .w1s, 0, false⟩]⟩,
   -- LNK_STATE
   ⟨0x210, 1, 0x8, [⟨43, 40, .ro, 0, false⟩, ⟨39, 20, .ro, 0, false⟩, ⟨16, 16, .ro, 0, false⟩, ⟨15, 14, .ro, 0, false⟩, ⟨13, 6, .ro, 0, false⟩, ⟨5, 4, .ro, 0, false⟩, ⟨3, 3, .ro, 0, false⟩, ⟨2, 0, .ro, 0, false⟩]⟩,
   -- LNK_RTT
   ⟨0x218, 1, 0x8, [⟨47, 32, .ro, 0, false⟩, ⟨31, 16, .ro, 0, false⟩, ⟨15, 0, .ro, 0, false⟩]⟩,
   -- LNK_FC
   ⟨0x220, 1, 0x8, [⟨63, 56, .ro, 0, false⟩, ⟨55, 48, .ro, 0, false⟩, ⟨43, 32, .ro, 0, false⟩, ⟨27, 16, .ro, 0, false⟩, ⟨11, 0, .ro, 0, false⟩]⟩,
   -- LNK_SEQ
   ⟨0x228, 1, 0x8, [⟨47, 36, .ro, 0, false⟩, ⟨35, 24, .ro, 0, false⟩, ⟨23, 12, .ro, 0, false⟩, ⟨11, 0, .ro, 0, false⟩]⟩,
   -- LANE_SYM_i
   ⟨0x240, 8, 0x8, [⟨63, 0, .ro, 0, false⟩]⟩]

/-- The block-specific registers of the HMC page. -/
def regs_hmc : List Reg :=
  [
   -- HMC_POLICY
   ⟨0x200, 1, 0x8, [⟨10, 0, .rw, 0x78, false⟩]⟩,
   -- HMC_TRAIN
   ⟨0x208, 1, 0x8, [⟨55, 48, .ro, 0, false⟩, ⟨47, 40, .ro, 0, false⟩, ⟨39, 32, .ro, 0, false⟩, ⟨31, 24, .ro, 0, false⟩, ⟨1, 0, .ro, 0, false⟩]⟩,
   -- HMC_CAL
   ⟨0x210, 1, 0x8, [⟨0, 0, .rw, 1, false⟩]⟩,
   -- HMC_REPAIRQ
   ⟨0x218, 1, 0x8, [⟨10, 0, .ro, 0, false⟩]⟩]

/-- The block-specific registers of the FMC page. -/
def regs_fmc : List Reg :=
  [
   -- FMC_BLOCKS
   ⟨0x200, 1, 0x8, [⟨47, 32, .ro, 0, false⟩, ⟨31, 16, .ro, 0, false⟩, ⟨15, 0, .ro, 0, false⟩]⟩,
   -- FMC_DIES
   ⟨0x208, 1, 0x8, [⟨31, 0, .ro, 0, false⟩]⟩,
   -- FMC_WEAR
   ⟨0x210, 1, 0x8, [⟨31, 16, .ro, 0, false⟩, ⟨15, 0, .ro, 0, false⟩]⟩,
   -- FMC_SPARE
   ⟨0x218, 1, 0x8, [⟨15, 0, .rw, 0x20, false⟩]⟩]

/-- The block-specific registers of the ENG page. -/
def regs_eng : List Reg :=
  [
   -- ENG_CORE_MAP
   ⟨0x200, 1, 0x8, [⟨8, 8, .ro, 0, false⟩, ⟨4, 0, .ro, 0, false⟩]⟩,
   -- ENG_LOAD
   ⟨0x208, 1, 0x8, [⟨46, 32, .ro, 0, false⟩, ⟨17, 0, .ro, 0, false⟩]⟩,
   -- ENG_PCACHE
   ⟨0x210, 1, 0x8, [⟨11, 0, .ro, 0, false⟩]⟩]

/-- The block-specific registers of a page. -/
def Blk.regs : Blk → List Reg
  | .glb => regs_glb
  | .lic => regs_lic
  | .tim => regs_tim
  | .thm => regs_thm
  | .rsv => regs_rsv
  | .mgt => regs_mgt
  | .uci => regs_uci
  | .ext => regs_ext
  | .fwc => regs_fwc
  | .fwc1 => regs_fwc1
  | .fwc2 => regs_fwc2
  | .fwc3 => regs_fwc3
  | .hdg => regs_hdg
  | .xlt => regs_xlt
  | .tier => regs_tier
  | .drg => regs_drg
  | .coh => regs_coh
  | .rtr => regs_rtr
  | .sch => regs_sch
  | .lnk => regs_lnk
  | .hmc => regs_hmc
  | .fmc => regs_fmc
  | .eng => regs_eng

/-- Block code of R375. -/
def Blk.code : Blk → Nat
  | .glb => 0 | .lic => 1 | .tim => 2 | .thm => 3 | .rsv => 4 | .mgt => 5 | .uci => 6 | .ext => 7
  | .fwc => 8 | .fwc1 => 8 | .fwc2 => 8 | .fwc3 => 8
  | .hdg => 0x10 | .xlt => 0x11 | .tier => 0x12 | .drg => 0x13 | .coh => 0x14 | .rtr => 0x15 | .sch => 0x16
  | .lnk => 0x17 | .hmc => 0x18 | .fmc => 0x19 | .eng => 0x1A

/-- PAGE_INDEX of BLK_ID (R482). -/
def Blk.pageIndex : Blk → Nat
  | .fwc1 => 1 | .fwc2 => 2 | .fwc3 => 3 | _ => 0

/-- Counters the block defines (R483; the counter tables of the chapters). -/
def Blk.counters : Blk → Nat
  | .glb => 5 | .lic => 3 | .tim => 5 | .thm => 4 | .rsv => 4 | .mgt => 9 | .uci => 12 | .ext => 0
  | .fwc => 12 | .fwc1 => 0 | .fwc2 => 0 | .fwc3 => 0
  | .hdg => 32 | .xlt => 9 | .tier => 9 | .drg => 7 | .coh => 13 | .rtr => 20 | .sch => 32
  | .lnk => 19 | .hmc => 16 | .fmc => 8 | .eng => 10

/-- Event bits the block defines (R483; the event lists of the chapters). -/
def Blk.events : Blk → Nat
  | .glb => 5 | .lic => 5 | .tim => 5 | .thm => 4 | .rsv => 7 | .mgt => 5 | .uci => 6 | .ext => 0
  | .fwc => 6 | .fwc1 => 0 | .fwc2 => 0 | .fwc3 => 0
  | .hdg => 4 | .xlt => 4 | .tier => 4 | .drg => 4 | .coh => 4 | .rtr => 5 | .sch => 4
  | .lnk => 7 | .hmc => 7 | .fmc => 5 | .eng => 3

/-- Whether the block writes DETAIL0 to DETAIL3 (R439). -/
def Blk.detail : Blk → Bool
  | .hmc | .fmc | .lnk | .hdg | .xlt | .ext => true
  | _ => false

/-- A page: its block, its device-wide instance and its tile (R375, R482). -/
structure Page where
  blk : Blk
  inst : Nat
  tile : Nat
deriving DecidableEq, Repr

/-- The page map of R488 and R489: the page numbered `p` (offset over 4096), none where the maps name no page. -/
def pageOf (p : Nat) : Option Page :=
  if p < 0x400 then
    match p with
    | 0 => some ⟨.glb, 0, 0⟩ | 1 => some ⟨.lic, 0, 0⟩ | 2 => some ⟨.tim, 0, 0⟩ | 3 => some ⟨.thm, 0, 0⟩
    | 4 => some ⟨.rsv, 0, 0⟩ | 5 => some ⟨.mgt, 0, 0⟩ | 6 => some ⟨.uci, 0, 0⟩ | 7 => some ⟨.ext, 0, 0⟩
    | 8 => some ⟨.fwc, 0, 0⟩ | 9 => some ⟨.fwc1, 0, 0⟩ | 10 => some ⟨.fwc2, 0, 0⟩ | 11 => some ⟨.fwc3, 0, 0⟩
    | _ => none
  else if p < 0xC00 then
    let t := (p - 0x400) / 0x200
    let o := (p - 0x400) % 0x200
    if o = 0 then some ⟨.hdg, t, t⟩
    else if o = 1 then some ⟨.xlt, t, t⟩
    else if o = 3 then some ⟨.tier, t, t⟩
    else if o = 4 then some ⟨.drg, t, t⟩
    else if o = 5 then some ⟨.coh, t, t⟩
    else if o = 6 then some ⟨.rtr, t, t⟩
    else if o = 7 then some ⟨.sch, t, t⟩
    else if 0x10 ≤ o ∧ o < 0x18 then some ⟨.lnk, 8 * t + (o - 0x10), t⟩
    else if 0x20 ≤ o ∧ o < 0x26 then some ⟨.hmc, 6 * t + (o - 0x20), t⟩
    else if 0x30 ≤ o ∧ o < 0x34 then some ⟨.fmc, 4 * t + (o - 0x30), t⟩
    else if 0x100 ≤ o ∧ o < 0x122 then some ⟨.eng, 34 * t + (o - 0x100), t⟩
    else none
  else none

/-- The page's base offset in the register space (R488, R489): the inverse of `pageOf`. -/
def Blk.base (b : Blk) (i : Nat) : Nat :=
  match b with
  | .glb => 0 | .lic => 0x1000 | .tim => 0x2000 | .thm => 0x3000 | .rsv => 0x4000 | .mgt => 0x5000 | .uci => 0x6000
  | .ext => 0x7000 | .fwc => 0x8000 | .fwc1 => 0x9000 | .fwc2 => 0xA000 | .fwc3 => 0xB000
  | .hdg => 0x400000 + i * 0x200000
  | .xlt => 0x401000 + i * 0x200000
  | .tier => 0x403000 + i * 0x200000
  | .drg => 0x404000 + i * 0x200000
  | .coh => 0x405000 + i * 0x200000
  | .rtr => 0x406000 + i * 0x200000
  | .sch => 0x407000 + i * 0x200000
  | .lnk => 0x410000 + i / 8 * 0x200000 + i % 8 * 0x1000
  | .hmc => 0x420000 + i / 6 * 0x200000 + i % 6 * 0x1000
  | .fmc => 0x430000 + i / 4 * 0x200000 + i % 4 * 0x1000
  | .eng => 0x500000 + i / 34 * 0x200000 + i % 34 * 0x1000

/-- The register of a page's block-specific part that `off` names, if the layout defines it (R478). -/
def Blk.regAt (b : Blk) (off : Nat) : Option Reg :=
  b.regs.find? fun r => decide (r.off ≤ off ∧ off < r.off + r.count * r.stride ∧ (off - r.off) % r.stride = 0)

/-- A word with `v` in bits [hi:lo]. -/
def place (hi lo v : Nat) : Word := BitVec.ofNat 64 (v % 2 ^ (hi - lo + 1)) <<< lo

/-- The bits [hi:lo] as a mask. -/
def mask (hi lo : Nat) : Word := place hi lo (2 ^ (hi - lo + 1) - 1)

/-- Entries and log2 of the entry size of each table, in the order of the EXT groups (R29). -/
def tableGeom : List (Nat × Nat) :=
  [(65536, 7), (262144, 6), (33554432, 2), (1048576, 3), (4096, 8), (1024, 8), (262144, 4), (8192, 4)]

/-- Reset value of the block-specific register at `off` of a page (the field tables of the chapters). Fields the spec
calls 'per start' or 'per record' read 0 until a start writes them (log 2). -/
def Blk.resetAt (b : Blk) (off : Nat) : Word :=
  match b.regAt off with
  | none => 0
  | some r =>
    let w := r.flds.foldl (fun a f => a ||| place f.hi f.lo f.reset) (0 : Word)
    match b with
    | .ext =>
      if off < 0x300 ∧ off % 0x20 = 0x10 then
        match tableGeom[(off - 0x200) / 0x20]? with
        | some g => place 47 16 g.1 ||| place 3 0 g.2
        | none => w
      else w
    | .fwc3 => w ||| place 55 48 (2 ^ ((off - 0x200) / 8))
    | .mgt => if off = 0x200 then w ||| place 63 32 1 else w
    | _ => w

/-- BLK_ID of a page (R482). -/
def Page.blkId (p : Page) : Word :=
  place 47 32 1 ||| place 31 24 p.blk.pageIndex ||| place 17 16 p.tile ||| place 15 8 p.inst ||| place 7 0 p.blk.code

/-- BLK_CAP of a page without BLOCK_CAP (R483). -/
def Page.blkCap (p : Page) : Word :=
  place 16 16 (if p.blk.detail then 1 else 0) ||| place 15 8 p.blk.events ||| place 7 0 p.blk.counters

/-- Reset value of the register at offset `off` of the register space (R481 and the field tables). -/
def resetReg (off : Nat) : Word :=
  match pageOf (off / 4096) with
  | none => 0
  | some p =>
    let o := off % 4096
    if o = 0x38 then place 15 14 2 else if o < 0x200 then 0 else p.blk.resetAt o

end Sys2Proof.Machine
end

