-- ==== Sys2Proof/Machine/Ops.lean ====
section
/-! DEFINITION. The named operations over sparse data, registers, time, memory bytes, rings, vectors and events that every
command uses. -/

namespace Sys2Proof

/-- Register offset of a ring's BASE, CFG, HEAD and TAIL. -/
def RingId.base : RingId → Nat
  | .cpl i => 0x9220 + 0x40 * i | .evt => 0xA200 | .log => 0xA240 | .trc => 0xA280

/-- CFG register; a completion ring has its pair's. -/
def RingId.cfg : RingId → Nat
  | .cpl i => 0x9208 + 0x40 * i | .evt => 0xA208 | .log => 0xA248 | .trc => 0xA288

/-- HEAD register. -/
def RingId.head : RingId → Nat
  | .cpl i => 0x9228 + 0x40 * i | .evt => 0xA210 | .log => 0xA250 | .trc => 0xA290

/-- TAIL register. -/
def RingId.tail : RingId → Nat
  | .cpl i => 0x9230 + 0x40 * i | .evt => 0xA218 | .log => 0xA258 | .trc => 0xA298

/-- Words per entry (R376). -/
def RingId.words : RingId → Nat
  | .log => 8 | _ => 4

/-- Offset of the ring's HEAD copy in the shadow block; its TAIL copy follows (R379). -/
def RingId.shadow : RingId → Nat
  | .cpl i => 0x20 * i + 0x10 | .evt => 0x80 | .log => 0x90 | .trc => 0xA0

/-- A number for each ring (for keyed data). -/
def RingId.num : RingId → Nat
  | .cpl i => i | .evt => 4 | .log => 5 | .trc => 6

/-- Words of an event entry posted at tick `t` (R392). -/
def EventRec.words (e : EventRec) (t : Nat) : List Word :=
  [Machine.place 15 8 e.block.toNat ||| Machine.place 23 16 e.inst'.toNat ||| Machine.place 39 24 e.code.toNat, Machine.place 47 0 t, e.arg0, e.arg1]

end Sys2Proof

namespace Sys2Proof.Machine

/-! ### Sparse data in canonical form -/

/-- The value at key `k`; keys not listed hold `d k`. -/
def sget {α : Type} (d : Nat → α) : SMap α → Nat → α
  | [], k => d k
  | (k', v) :: r, k => if k = k' then v else sget d r k

/-- Put a value at key `k`, in the place that keeps rising keys rising. -/
def sput {α : Type} : SMap α → Nat → α → SMap α
  | [], k, v => [(k, v)]
  | (k', v') :: r, k, v =>
    if k = k' then (k, v) :: r else if k < k' then (k, v) :: (k', v') :: r else (k', v') :: sput r k v

/-- Store `v` at key `k`; storing the default removes the entry, so that equal contents are equal lists. -/
def sset {α : Type} [DecidableEq α] (d : Nat → α) (m : SMap α) (k : Nat) (v : α) : SMap α :=
  if v = d k then m.filter (fun e => decide (e.1 ≠ k)) else sput m k v

/-- The canonical form: keys strictly rising and no entry equal to the default of its key. -/
def SMap.wf {α : Type} [DecidableEq α] (d : Nat → α) : SMap α → Bool
  | [] => true
  | [(k, v)] => decide (v ≠ d k)
  | (k, v) :: (k', v') :: r => decide (v ≠ d k) && decide (k < k') && SMap.wf d ((k', v') :: r)

/-! ### Bit fields -/

/-- Bits [hi:lo] of a word. -/
def bits (w : Word) (hi lo : Nat) : Nat := w.toNat / 2 ^ lo % 2 ^ (hi - lo + 1)

/-- Bit `i` of a word. -/
def bit (w : Word) (i : Nat) : Bool := w.getLsbD i

/-- `w` with bits [hi:lo] replaced by `v`. -/
def setBits (w : Word) (hi lo v : Nat) : Word := (w &&& ~~~ (mask hi lo)) ||| place hi lo v

/-- A Bool as a number. -/
def b2n (b : Bool) : Nat := if b then 1 else 0

/-- Ceiling division. -/
def cdiv (a b : Nat) : Nat := (a + b - 1) / b

/-- The signed value of the low `n` bits. -/
def sint (n v : Nat) : Int := if v % 2 ^ n < 2 ^ (n - 1) then (v % 2 ^ n : Nat) else ((v % 2 ^ n : Nat) : Int) - (2 ^ n : Nat)

/-- A signed value as an `n`-bit field. -/
def ofInt (n : Nat) (v : Int) : Nat := (v % ((2 ^ n : Nat) : Int)).toNat

/-! ### Registers (R6, R478) -/

/-- The register at a register-space offset. -/
def State.reg (s : State) (off : Nat) : Word := sget resetReg s.regs off

/-- Write a register's whole image. -/
def State.setReg (s : State) (off : Nat) (w : Word) : State := { s with regs := sset resetReg s.regs off w }

/-- The field [hi:lo] of a register. -/
def State.fld (s : State) (off hi lo : Nat) : Nat := bits (s.reg off) hi lo

/-- Write the field [hi:lo] of a register. -/
def State.setFld (s : State) (off hi lo v : Nat) : State := s.setReg off (setBits (s.reg off) hi lo v)

/-- Offset of a block-specific or common register of a page. -/
def rOff (b : Blk) (i off : Nat) : Nat := b.base i + off

/-! ### Free values -/

/-- The next free natural number, and the state with the counter advanced (log 3). -/
def State.drawNat (s : State) : Nat × State := (Config.freeNat s.fresh, { s with fresh := s.fresh + 1 })

/-- The next free choice. -/
def State.drawBool (s : State) : Bool × State := (Config.freeBool s.fresh, { s with fresh := s.fresh + 1 })

/-- Network time at an instant of the present tick, as a read or a record shows it: free within the tick, and not before one shown already
(R395, R396, R494; log 3). -/
def State.instant (s : State) : Nat := max s.tim.shown (s.tim.netTime + Config.freeNat s.fresh % max 1 (250 * s.tim.periodQ))

/-- The instant has been shown. -/
def State.seeTime (s : State) : State := { s with fresh := s.fresh + 1, tim := { s.tim with shown := s.instant } }

/-! ### Ticks (R67) -/

/-- The modulus of tick numbers. -/
def tickMod : Nat := 2 ^ 48

/-- A tick number plus `n`, modulo 2^48. -/
def tadd (t n : Nat) : Nat := (t + n) % tickMod

/-- `a` is later than `b`: ahead modulo 2^48 by less than 2^47 (R67). -/
def later (a b : Nat) : Bool :=
  let d := (a + tickMod - b % tickMod) % tickMod
  decide (0 < d ∧ d < 2 ^ 47)

/-- `a` is `b` or earlier. -/
def tle (a b : Nat) : Bool := !later a b

/-- How far `a` is ahead of `b`, modulo 2^48. -/
def tsub (a b : Nat) : Nat := (a + tickMod - b % tickMod) % tickMod

/-- The later of two ticks. -/
def tmax (a b : Nat) : Nat := if later a b then a else b

/-- The current tick. -/
def State.tick (s : State) : Nat := s.tim.tick

/-- The period in ns: PERIOD_Q times 250 (R68, R494). -/
def State.periodNs (s : State) : Nat := s.tim.periodQ * 250

/-- ceil(x / P) with x in µs and P the period: a number of ticks (R432 and others). -/
def State.ticksOfUs (s : State) (us : Nat) : Nat := cdiv (us * 4) s.tim.periodQ

/-- A per-tick budget of `perUs` per µs, rounded down (R70's table). -/
def State.budget (s : State) (perUsTimes4 : Nat) : Nat := perUsTimes4 * s.tim.periodQ / 16

/-! ### Counters (R441) -/

/-- Add `n` to the counter at page offset `c`, unless the page is frozen. -/
def State.bumpN (s : State) (b : Blk) (i c n : Nat) : State :=
  if s.fld (rOff b i 0x80) 0 0 = 1 then s
  else s.setReg (rOff b i c) (s.reg (rOff b i c) + BitVec.ofNat 64 n)

/-- Increment a counter. -/
def State.bump (s : State) (b : Blk) (i c : Nat) : State := s.bumpN b i c 1

/-! ### Outputs -/

/-- Record something the device shows. -/
def State.emit (s : State) (o : Out) : State := { s with out := s.out ++ [o] }

/-! ### CRCs (R251, R301, R329) -/

/-- One bit of reflected CRC-32C. -/
def crc32cBit (c : BitVec 32) : BitVec 32 := if c.getLsbD 0 then (c >>> 1) ^^^ 0x82F63B78#32 else c >>> 1

/-- One byte of CRC-32C. -/
def crc32cByte (c : BitVec 32) (b : Byte) : BitVec 32 :=
  let x := c ^^^ b.setWidth 32
  crc32cBit (crc32cBit (crc32cBit (crc32cBit (crc32cBit (crc32cBit (crc32cBit (crc32cBit x)))))))

/-- CRC-32C of a byte string: reflected polynomial 0x1EDC6F41, initial value and final XOR all ones (R251, R301). -/
def crc32c (bs : List Byte) : BitVec 32 := bs.foldl crc32cByte 0xFFFFFFFF#32 ^^^ 0xFFFFFFFF#32

/-- One bit of CRC-16 with polynomial 0x8BB7, most significant bit first. -/
def crc16Bit (c : BitVec 16) : BitVec 16 := if c.getLsbD 15 then (c <<< 1) ^^^ 0x8BB7#16 else c <<< 1

/-- One byte of CRC-16. -/
def crc16Byte (c : BitVec 16) (b : Byte) : BitVec 16 :=
  let x := c ^^^ (b.setWidth 16 <<< 8)
  crc16Bit (crc16Bit (crc16Bit (crc16Bit (crc16Bit (crc16Bit (crc16Bit (crc16Bit x)))))))

/-- CRC-16 of a byte string: initial value 0xFFFF, no reflection, no final XOR (R329). -/
def crc16 (bs : List Byte) : BitVec 16 := bs.foldl crc16Byte 0xFFFF#16

/-! ### First-error capture (R439) -/

/-- What a first-error capture records besides the tick (R439). -/
structure ErrInfo where
  evtBit : Nat := 0
  status : Nat := 0
  code : Nat := 0
  cycle : Option Nat := none
  port : Option Nat := none
  src : Nat := 0
  ctx : Nat := 0
  addr : Word := 0
  d0 : Word := 0
  d1 : Word := 0
  d2 : Word := 0
  d3 : Word := 0
deriving DecidableEq, Repr

/-- First-error capture of R439: the first error fills the eight words; later ones count and set OVERFLOW. The cycle within
the tick is a free value where no operand gives it (log 3). Log 13. -/
def State.capture (s : State) (b : Blk) (i : Nat) (e : ErrInfo) : State :=
  let o := rOff b i 0x40
  let w := s.reg o
  if bit w 0 then
    s.setReg o (setBits (setBits w 1 1 1) 63 48 (min 0xFFFF (bits w 63 48 + 1)))
  else
    let cs := match e.cycle with
      | some c => (c, s)
      | none => s.drawNat
    let s := cs.2
    let s := s.setReg o (place 63 48 1 ||| place 39 32 e.evtBit ||| place 31 24 e.status ||| place 23 8 e.code ||| place 0 0 1)
    let s := s.setReg (o + 8) (place 61 48 cs.1 ||| place 47 0 s.tick)
    let s := s.setReg (o + 16) ((match e.port with
      | some p => place 41 41 1 ||| place 40 36 p
      | none => 0) ||| place 35 16 e.src ||| place 15 0 e.ctx)
    let s := s.setReg (o + 24) e.addr
    let s := s.setReg (o + 32) e.d0
    let s := s.setReg (o + 40) e.d1
    let s := s.setReg (o + 48) e.d2
    s.setReg (o + 56) e.d3

/-! ### Memory bytes: HBM by stack and offset (R40) -/

/-- What a byte that nothing has written reads as: 0 (log 1). -/
def cellDefault (_ : Nat) : Byte := 0

/-- One byte of HBM at physical address stack times 2^36 plus offset. -/
def State.rdB (s : State) (a : Nat) : Byte := sget cellDefault s.hbm a

/-- Store one byte of HBM. -/
def State.wrB (s : State) (a : Nat) (b : Byte) : State := { s with hbm := sset cellDefault s.hbm a b }

/-- Store bytes at consecutive physical addresses. -/
def State.wrBs (s : State) (a : Nat) (bs : List Byte) : State :=
  match bs with
  | [] => s
  | b :: r => (s.wrB a b).wrBs (a + 1) r

/-- `n` bytes from a physical address. -/
def State.rdBs (s : State) (a n : Nat) : List Byte := (List.range n).map fun i => s.rdB (a + i)

/-- A little-endian number from bytes (R7). -/
def leNat : List Byte → Nat
  | [] => 0
  | b :: r => b.toNat + 256 * leNat r

/-- A number as `n` little-endian bytes (R7). -/
def leBytes (n v : Nat) : List Byte := (List.range n).map fun i => BitVec.ofNat 8 (v / 256 ^ i)

/-- Words as bytes, word 0 first (R7). -/
def wordsBytes (ws : List Word) : List Byte := ws.flatMap fun w => leBytes 8 w.toNat

/-- Bytes as words. -/
def bytesWords (n : Nat) (bs : List Byte) : List Word :=
  (List.range n).map fun i => BitVec.ofNat 64 (leNat ((bs.drop (8 * i)).take 8))

/-- Metadata of a physical line (address over 256). -/
def State.meta' (s : State) (ln : Nat) : LineMeta := sget (fun _ => ({} : LineMeta)) s.lmeta ln

/-- Write the metadata of a physical line. -/
def State.setMeta (s : State) (ln : Nat) (m : LineMeta) : State :=
  { s with lmeta := sset (fun _ => ({} : LineMeta)) s.lmeta ln m }

/-- The stack of a physical line. -/
def stackOf (ln : Nat) : Nat := ln / 2 ^ 28

/-- Units of the host region (4 KiB each), from EXT_MAP (R39, R40, R66). -/
def State.hostUnits (s : State) : Nat :=
  (s.fld (rOff .ext 0 0x300) 15 0 + s.fld (rOff .ext 0 0x300) 31 16) * 2 ^ 18

/-- Units of the control region. -/
def ctlUnits : Nat := 2 ^ 21

/-- Units that a region of `n` units places on stack `st` (R40). -/
def unitsOn (n st : Nat) : Nat := (n + 23 - st) / 24

/-- Physical address of byte `o` of the host region (R40). -/
def hostPhys (o : Nat) : Nat :=
  let n := o / 4096
  (n % 24) * 2 ^ 36 + n / 24 * 4096 + o % 4096

/-- Physical address of byte `o` of the control region (R40). -/
def State.ctlPhys (s : State) (o : Nat) : Nat :=
  let n := o / 4096
  let st := n % 24
  st * 2 ^ 36 + (unitsOn s.hostUnits st + n / 24) * 4096 + o % 4096

/-- First pool frame index of a stack (R40). -/
def State.firstFrame (s : State) (st : Nat) : Nat := cdiv (unitsOn s.hostUnits st + unitsOn ctlUnits st) 512

/-- The windows of the host physical map (R38). -/
inductive Win where
  | host (o : Nat) | reg (o : Nat) | ctl (o : Nat) | pool (o : Nat) | hole
deriving DecidableEq, Repr

/-- The host region. -/
def Win.isHost : Win → Bool
  | .host _ => true
  | _ => false

/-- Which window a host physical address lies in, and where (R38, R39). -/
def State.win (s : State) (a : Nat) : Win :=
  let low := s.fld (rOff .ext 0 0x300) 15 0 * 2 ^ 30
  let high := s.fld (rOff .ext 0 0x300) 31 16 * 2 ^ 30
  if 0x80000000 ≤ a ∧ a < 0x80000000 + low then .host (a - 0x80000000)
  else if 0x1000000000 ≤ a ∧ a < 0x1001000000 then .reg (a - 0x1000000000)
  else if 0x1100000000 ≤ a ∧ a < 0x1100000000 + high then .host (low + (a - 0x1100000000))
  else if 0x10000000000 ≤ a ∧ a < 0x10200000000 then .ctl (a - 0x10000000000)
  else if 0x400000000000 ≤ a ∧ a < 0x800000000000 then .pool (a - 0x400000000000)
  else .hole

/-- Physical address of a host-region or control-region byte; none elsewhere. -/
def State.regionPhys (s : State) (a : Nat) : Option Nat :=
  match s.win a with
  | .host o => some (hostPhys o)
  | .ctl o => some (s.ctlPhys o)
  | _ => none

/-- Cut a write at line boundaries: (address, bytes) pieces, each within one 256-byte line. -/
def pieces : Nat → Nat → List Byte → List (Nat × List Byte)
  | 0, _, _ => []
  | _, _, [] => []
  | f + 1, a, bs =>
    let n := 256 - a % 256
    (a, bs.take n) :: pieces f (a + n) (bs.drop n)

/-- Host physical address of a line of the host or control region: the inverse of the interleave (R38, R40). -/
def State.lineHpa (s : State) (ln : Nat) : Nat :=
  let st := stackOf ln
  let u := ln % 2 ^ 28 / 16
  let hu := unitsOn s.hostUnits st
  let at' := fun (k : Nat) => (k * 24 + st) * 4096 + ln % 16 * 256
  let low := s.fld (rOff .ext 0 0x300) 15 0 * 2 ^ 30
  if u < hu then (if at' u < low then 0x80000000 + at' u else 0x1100000000 + (at' u - low)) else 0x10000000000 + at' (u - hu)

/-! ### The line's CRC (R250, R251) -/

/-- The tag of a line of a pool parcel; a mirror line has its primary's (R251). -/
def poolTag (p l : Nat) : Nat := p + l * 2 ^ 25

/-- The tag of a line of the host or control region (R251). -/
def State.regionTag (s : State) (ln : Nat) : Nat := s.lineHpa ln / 256 + 2 ^ 63

/-- How the CRC of a line changes when its tag changes by `x`: CRC-32C is linear (R251). -/
def tagDelta (x : Nat) : BitVec 32 := (leBytes 8 x ++ List.replicate 256 0).foldl crc32cByte 0

/-- Whether the CRC of a line does not match under the tag that the reader expects (R251). -/
def LineMeta.crcBad (m : LineMeta) (tag : Nat) : Bool :=
  match m.tag with
  | none => decide (m.crcDelta ≠ 0)
  | some w => if w = tag then decide (m.crcDelta ≠ 0) else decide (m.crcDelta ≠ tagDelta (w ^^^ tag))

/-- The CRC of a line's present data under a tag (R251). -/
def State.lineCrc (s : State) (ln tag : Nat) : BitVec 32 := crc32c (leBytes 8 tag ++ s.rdBs (ln * 256) 256)

/-- The metadata word of a line as it is read (R250); `tag` is the reader's. -/
def State.metaWord (s : State) (ln tag : Nat) : Word :=
  let m := s.meta' ln
  place 31 0 (m.crcDelta ^^^ s.lineCrc ln (m.tag.getD tag)).toNat ||| place 32 32 (b2n m.poison) ||| place 36 33 m.format.toNat |||
    place 37 37 (b2n m.mirror) ||| place 63 38 m.rsv.toNat

/-- Whether the CRC of a line of the host or control region does not match (R251). -/
def State.regionCrcBad (s : State) (ln : Nat) : Bool :=
  let m := s.meta' ln
  match m.tag with
  | none => decide (m.crcDelta ≠ 0)
  | some _ => m.crcBad (s.regionTag ln)

/-- Whether a line of the host or control region fails its check (R252). -/
def State.regionLineBad (s : State) (ln : Nat) : Bool :=
  s.regionCrcBad ln || decide ((s.meta' ln).format ≠ 0) || (s.meta' ln).mirror

/-- What the capture of a failed check of a region line holds (R439). -/
def State.regionCrcInfo (s : State) (ln pc : Nat) : ErrInfo :=
  { evtBit := 0, code := 0x118, addr := BitVec.ofNat 64 (s.lineHpa ln), d0 := s.metaWord ln (s.regionTag ln),
    d1 := BitVec.ofNat 64 (s.lineCrc ln (s.regionTag ln)).toNat, d2 := BitVec.ofNat 64 pc }

/-- Pseudo-channel of a physical line (R40, R47). -/
def State.pcOf (s : State) (ln : Nat) : Nat :=
  let o := ln % 2 ^ 28
  let hu := unitsOn s.hostUnits (stackOf ln)
  let cu := unitsOn ctlUnits (stackOf ln)
  if hu ≤ o / 16 ∧ o / 16 < hu + cu then (o - 16 * hu) % 64 else o % 64

/-- Event bit `k` of an HMC page sets by a merging write; where the page is to signal for it, that follows at the next boundary (log 151). -/
def State.oweSignal (s : State) (st k : Nat) : State :=
  let o := rOff .hmc st 0x20
  let s := if !bit (s.reg o) k && bit (s.reg (rOff .hmc st 0x28)) k then { s with hmc := { s.hmc with owed := s.hmc.owed ++ [st] } } else s
  s.setReg o (s.reg o ||| place k k 1)

/-- Queue a repair on a line's pseudo-channel (R257): at most one entry per line, at most 16 per pseudo-channel. -/
def State.queueRepair (s : State) (ln : Nat) (d : Option (List Byte × Bool)) : State :=
  let st := stackOf ln
  let pc := s.pcOf ln
  if s.hmc.repairs.any (fun r => decide (r.line = ln)) then s
  else if 16 ≤ (s.hmc.repairs.filter fun r => decide (r.stack = st ∧ r.pc = pc)).length then s.bump .hmc st 0x158
  else { s with hmc := { s.hmc with repairs := s.hmc.repairs ++ [⟨st, pc, ln, d⟩] } }

/-- The read of a line of a region that a narrower write merges into (R253): it is counted; a failed check is counted and captured and its
rewrite queued (R255), which the merged write then cancels; poison is delivered. The page's signals follow at the next boundary (log 151). -/
def State.mergeRead (s : State) (ln : Nat) (bad : Bool) : State :=
  let st := stackOf ln
  let s := s.bump .hmc st 0x100
  let s := if bad then
      let s := (s.bump .hmc st 0x118).capture .hmc st (s.regionCrcInfo ln (s.pcOf ln))
      let s := if s.regionCrcBad ln then s else s.bump .hmc st 0x120
      (s.oweSignal st 0).queueRepair ln none
    else s
  if bad || (s.meta' ln).poison then (s.bump .hmc st 0x140).oweSignal st 1 else s

/-- A write to a line cancels its queued rewrite (R257). -/
def State.dropRewrite (s : State) (ln : Nat) : State :=
  if s.hmc.repairs.any (fun r => decide (r.line = ln)) then
    ({ s with hmc := { s.hmc with repairs := s.hmc.repairs.filter fun r => decide (r.line ≠ ln) } }).bump .hmc (stackOf ln) 0x160
  else s

/-- Write bytes within one physical line (R253): a full line stores a fresh CRC and the poison the data carries; a
narrower write reads and merges, and keeps poison when the old line was poisoned or failed its check (`bad`). -/
def State.writeLine (s : State) (p : Nat) (bs : List Byte) (poison bad : Bool) (fmt : BitVec 4) (mirror : Bool) (tag : Option Nat) :
    State :=
  let m := s.meta' (p / 256)
  let full := decide (bs.length = 256)
  let psn := poison || (!full && (m.poison || bad))
  let s := if full then s else s.mergeRead (p / 256) bad
  let s := s.wrBs p bs
  let s := if s.fw.masters.isEmpty then s
    else { s with fw := { s.fw with masters := s.fw.masters.map fun x => if x.1 = p / 256 then (x.1, x.2.take (p % 256) ++ bs ++ x.2.drop (p % 256 + bs.length)) else x } }
  let s := s.setMeta (p / 256) { poison := psn, format := fmt, mirror := mirror, tag := tag }
  let s := s.bump .hmc (stackOf (p / 256)) 0x108
  let s := if psn then s.bump .hmc (stackOf (p / 256)) 0x148 else s
  let s := if full then s else s.bump .hmc (stackOf (p / 256)) 0x110
  s.dropRewrite (p / 256)

/-- Write bytes at a host physical address of the host or control region; other addresses take nothing. -/
def State.writeRegion (s : State) (a : Nat) (bs : List Byte) (poison : Bool) : State :=
  (pieces (bs.length + 1) a bs).foldl (fun s pb =>
    match s.regionPhys pb.1 with
    | some p => s.writeLine p pb.2 poison (s.regionLineBad (p / 256)) 0 false none
    | none => s) s

/-- Read bytes at a host physical address of the host or control region. -/
def State.readRegion (s : State) (a n : Nat) : List Byte :=
  (List.range n).map fun i =>
    match s.regionPhys (a + i) with
    | some p => s.rdB p
    | none => 0

/-- Read `n` words at a host physical address of the host or control region. -/
def State.readWords (s : State) (a n : Nat) : List Word := bytesWords n (s.readRegion a (8 * n))

/-- Write words at a host physical address of the host or control region. -/
def State.writeWords (s : State) (a : Nat) (ws : List Word) : State := s.writeRegion a (wordsBytes ws) false

/-- Whether any line of a range of the host or control region fails its check. -/
def State.regionBad (s : State) (a n : Nat) : Bool :=
  (List.range (cdiv (a % 256 + n) 256)).any fun i =>
    match s.regionPhys (a / 256 * 256 + 256 * i) with
    | some p => s.regionLineBad (p / 256)
    | none => true

/-! ### Vectors toward the host die (R470) -/

/-- Signal message vector `v`: a message when unmasked, its pending bit when masked. -/
def State.vecSignal (s : State) (v : Nat) : State :=
  if (s.reg (rOff .uci 0 (0x240 + v / 64 * 8))).getLsbD (v % 64) then
    let o := rOff .uci 0 (0x280 + v / 64 * 8)
    s.setReg o (s.reg o ||| place (v % 64) (v % 64) 1)
  else
    -- one message for the signals of a vector that arrive while its message waits (R470)
    (s.emit (.msi v)).bump .uci 0 0x150

/-! ### Rings (R376 to R381) -/

/-- N of a ring whose CFG is `cfg`: LOG2_N limited to its range (R401). -/
def ringSize (cfg : Word) (maxLog : Nat) : Nat := 2 ^ (min maxLog (max 6 (bits cfg 4 0)))

/-- N of a firmware-produced ring. -/
def State.ringN (s : State) (r : RingId) : Nat :=
  ringSize (s.reg r.cfg) (match r with | .cpl _ => 12 | _ => 16)

/-- N of command ring `i`. -/
def State.cmdN (s : State) (i : Nat) : Nat := ringSize (s.reg (0x9208 + 0x40 * i)) 12

/-- Whether a ring is enabled. -/
def State.ringOn (s : State) (cfg : Nat) : Bool := bit (s.reg cfg) 5

/-- Full: (HEAD − TAIL) mod 2N = N (R377). -/
def State.ringFull (s : State) (r : RingId) : Bool :=
  let n := s.ringN r
  decide ((s.fld r.head 16 0 % (2 * n) + 2 * n - s.fld r.tail 16 0 % (2 * n)) % (2 * n) = n)

/-- Firmware's access to `n` bytes of the control region from `a` on goes through the table-fetch share (R83, R374). -/
def State.useFwSlots (s : State) (a n : Nat) : State :=
  (List.range (cdiv (a % 256 + n) 256)).foldl (fun s i =>
    match s.regionPhys (a / 256 * 256 + 256 * i) with
    | some p =>
      let k := stackOf (p / 256) * 64 + s.pcOf (p / 256)
      { s with fw := { s.fw with slots := sset (fun _ => 0) s.fw.slots k (sget (fun _ => 0) s.fw.slots k + 1) } }
    | none => s) s

/-- Write one word of the shadow block (R379). -/
def State.shadow (s : State) (o : Nat) (v : Nat) : State :=
  s.writeWords (s.fld 0x8220 51 12 * 4096 + o) [BitVec.ofNat 64 v]

/-- Signal a ring's vector, at most once in MOD_TICKS + 1 ticks (R381): at once, or at the window's end. -/
def State.ringSignal (s : State) (r : RingId) : State :=
  let last := sget (fun _ => 0) s.fw.sigLast r.num
  let mod' := s.fld r.cfg 63 56
  if last = 0 ∨ later s.tick (tadd (last - 1) mod') then
    let fw' := { s.fw with sigLast := sset (fun _ => 0) s.fw.sigLast r.num (s.tick + 1), sigDue := sset (fun _ => 0) s.fw.sigDue r.num 0 }
    { s with fw := fw' }.vecSignal (s.fld r.cfg 40 32)
  else
    { s with fw := { s.fw with sigDue := sset (fun _ => 0) s.fw.sigDue r.num (tadd (last - 1) (mod' + 1) + 1) } }

/-- Write one entry at HEAD with its PHASE and advance HEAD (R377, R378, R379, R381). -/
def State.ringPut (s : State) (r : RingId) (ws : List Word) : State :=
  let n := s.ringN r
  let h := s.fld r.head 16 0
  let w0 := setBits (ws.headD 0) 0 0 (if h < n then 1 else 0)
  let a := s.fld r.base 51 12 * 4096 + (h % n) * (8 * r.words)
  let s := (s.useFwSlots a (8 * r.words)).writeWords a (w0 :: ws.drop 1)
  let h' := (h + 1) % (2 * n)
  let s := s.setFld r.head 16 0 h'
  let s := s.shadow r.shadow h'
  s.ringSignal r

/-! ### The tasks of firmware (R373, R397) -/

/-- FWC_CORE of a core. -/
def coreReg (k : Nat) : Nat := 0xB200 + 8 * k
/-- TASKS of a core; the reset value is task k on core k. -/
def State.tasksOf (s : State) (k : Nat) : Nat := s.fld (coreReg k) 55 48
/-- Live cores. -/
def State.liveCores (s : State) : List Nat := (List.range 8).filter fun k => bit (s.reg 0x8208) k
/-- Number of set bits of an 8-bit mask. -/
def popCount (m : Nat) : Nat := ((List.range 8).filter fun i => decide (m / 2 ^ i % 2 = 1)).length
/-- The core that runs a task. -/
def State.coreOfTask (s : State) (t : Nat) : Option Nat := (List.range 8).find? fun k => decide (s.tasksOf k / 2 ^ t % 2 = 1)

/-- A compute reset holds the control cores (R417). -/
def State.coresDown (s : State) : Bool :=
  match s.creset with
  | some r => r.asserted && !r.restarted
  | none => false

/-- A task does not run: the cores are in reset, or its core is not live and the task has not moved yet (R397, R417). -/
def State.taskDown (s : State) (t : Nat) : Bool :=
  s.coresDown || (match s.coreOfTask t with
    | some k => !bit (s.reg 0x8208) k
    | none => true)

/-! ### Events (R392, R393, R440) -/

/-- Drop an event: count it; FWC EVT_LOST rises (R393). Its BLOCK_EVENT finds the same full queue, so only a host-die
target is signalled. Log 19. -/
def State.dropEvent (s : State) : State :=
  let s := s.bump .fwc 0 0x128
  let s := { s with fw := { s.fw with evtLost := s.fw.evtLost + 1 } }
  let o := rOff .fwc 0 0x20
  let was := bit (s.reg o) 2
  let s := s.setReg o (s.reg o ||| place 2 2 1)
  if !was && bit (s.reg (rOff .fwc 0 0x28)) 2 && bit (s.reg (rOff .fwc 0 0x38)) 14 && !s.signalled.contains 8 then
    { s with signalled := 8 :: s.signalled }.vecSignal (s.fld (rOff .fwc 0 0x38) 8 0)
  else s

/-- Post an event of tick `t`: into the ring, or into the SRAM queue when the ring is full or disabled or MSG does not run, or dropped
(R373, R392, R393). Log 18. -/
def State.postEventAt (s : State) (t : Nat) (e : EventRec) : State :=
  if s.ringOn RingId.evt.cfg && !s.ringFull .evt && s.fw.evtHeld.isEmpty && !s.taskDown 7 then
    (s.ringPut .evt (e.words t)).bump .fwc 0 0x120
  else if s.fw.evtHeld.length < 1024 then { s with fw := { s.fw with evtHeld := s.fw.evtHeld ++ [(e, t)] } }
  else s.dropEvent

/-- Post an event of the present tick. -/
def State.postEvent (s : State) (e : EventRec) : State := s.postEventAt s.tick e

/-- Signal a page's target (R440): at most once per tick. -/
def State.signalPage (s : State) (b : Blk) (i : Nat) : State :=
  let pg := b.base i / 4096
  if s.signalled.contains pg then s
  else
    let s := { s with signalled := pg :: s.signalled }
    let rt := s.reg (rOff b i 0x38)
    let s := if bit rt 14 then s.vecSignal (bits rt 8 0) else s
    if bit rt 15 then
      s.postEvent ⟨BitVec.ofNat 8 b.code, BitVec.ofNat 8 i, 0x00FF, s.reg (rOff b i 0x20), s.reg (rOff b i 0x40)⟩
    else s

/-- Set event bit `k` of a page and signal when an enabled bit goes from 0 to 1 (R440). -/
def State.raise (s : State) (b : Blk) (i k : Nat) : State :=
  let o := rOff b i 0x20
  let was := bit (s.reg o) k
  let s := s.setReg o (s.reg o ||| place k k 1)
  if !was && bit (s.reg (rOff b i 0x28)) k then s.signalPage b i else s

/-- An error: its counter, its capture, then its event bit. -/
def State.error (s : State) (b : Blk) (i : Nat) (e : ErrInfo) : State :=
  let s := if e.code = 0 then s else s.bump b i e.code
  (s.capture b i e).raise b i e.evtBit

end Sys2Proof.Machine
end

