-- ==== Sys2Proof/Machine/Fp.lean ====
section
/-! DEFINITION. Floating-point formats and arithmetic of chapter 5: exact dyadic values, one rounding to nearest even, the
row encoders and decoders of R143 to R147, and the flash line methods of R159. -/

namespace Sys2Proof.Machine

/-- A decoded value: NaN, an infinity, or a finite (−1)^neg × m × 2^e. -/
inductive Val where
  | nan
  | inf (neg : Bool)
  | fin (neg : Bool) (m : Nat) (e : Int)
deriving DecidableEq, Repr

/-- A floating-point format (R142): exponent and fraction bits, bias, code of the greatest finite value, code of +infinity
if it has one, and the NaN it stores. -/
structure FFmt where
  eb : Nat
  fb : Nat
  bias : Int
  maxFin : Nat
  infCode : Option Nat
  nanCode : Nat
deriving DecidableEq, Repr

/-- IEEE binary32. -/
def fp32 : FFmt := ⟨8, 23, 127, 0x7F7FFFFF, some 0x7F800000, 0x7FC00000⟩
/-- BF16. -/
def bf16 : FFmt := ⟨8, 7, 127, 0x7F7F, some 0x7F80, 0x7FC0⟩
/-- IEEE binary16. -/
def fp16 : FFmt := ⟨5, 10, 15, 0x7BFF, some 0x7C00, 0x7E00⟩
/-- FP8-E4M3. -/
def e4m3 : FFmt := ⟨4, 3, 7, 0x7E, none, 0x7F⟩
/-- FP8-E5M2. -/
def e5m2 : FFmt := ⟨5, 2, 15, 0x7B, some 0x7C, 0x7E⟩

/-- Bytes of an element. -/
def FFmt.width (f : FFmt) : Nat := (1 + f.eb + f.fb) / 8

/-- Decode a code exactly (R142, R143). -/
def FFmt.decode (f : FFmt) (c : Nat) : Val :=
  let neg := decide (c / 2 ^ (f.eb + f.fb) % 2 = 1)
  let a := c % 2 ^ (f.eb + f.fb)
  if a > f.maxFin then (if some a = f.infCode then .inf neg else .nan)
  else
    let e := a / 2 ^ f.fb
    let m := a % 2 ^ f.fb
    if e = 0 then .fin neg m (1 - f.bias - f.fb)
    else .fin neg (2 ^ f.fb + m) ((e : Int) - f.bias - f.fb)

/-- m × 2^(−n), rounded to nearest even. -/
def rneShift (m n : Nat) : Nat :=
  let q := m / 2 ^ n
  let r := m % 2 ^ n
  if 2 * r > 2 ^ n then q + 1 else if 2 * r = 2 ^ n then q + q % 2 else q

/-- The magnitude code of m × 2^e rounded to nearest even; it exceeds `maxFin` on overflow. -/
def FFmt.roundMag (f : FFmt) (m : Nat) (e : Int) : Nat :=
  if m = 0 then 0
  else
    let emin : Int := 1 - f.bias - f.fb
    let top : Int := e + (Nat.log2 m : Nat)
    let q : Int := max (top - f.fb) emin
    let mant := if q ≤ e then m * 2 ^ (e - q).toNat else rneShift m (q - e).toNat
    (q - emin).toNat * 2 ^ f.fb + mant

/-- Sign bit of a format. -/
def FFmt.sign (f : FFmt) (neg : Bool) : Nat := if neg then 2 ^ (f.eb + f.fb) else 0

/-- Encode with one rounding to nearest even; a finite overflow gives infinity (R150, R157). -/
def FFmt.round (f : FFmt) : Val → Nat
  | .nan => f.nanCode
  | .inf n => match f.infCode with
    | some c => f.sign n + c
    | none => f.sign n + f.maxFin
  | .fin n m e =>
    let c := f.roundMag m e
    if c > f.maxFin then f.sign n + (f.infCode.getD f.maxFin) else f.sign n + c

/-- Encode by R147: a finite overflow gives the greatest finite value. -/
def FFmt.encode (f : FFmt) : Val → Nat
  | .nan => f.nanCode
  | .inf n => match f.infCode with
    | some c => f.sign n + c
    | none => f.sign n + f.maxFin
  | .fin n m e => f.sign n + min f.maxFin (f.roundMag m e)

/-- The value of an FP32 word. -/
def fval (x : F32) : Val := fp32.decode x.toNat

/-- An FP32 word from a value, rounded (R150). -/
def fword (v : Val) : F32 := BitVec.ofNat 32 (fp32.round v)

/-- The NaN that engines produce (R150). -/
def fnan : F32 := 0x7FC00000#32

/-- Sum of two finite dyadics as a signed integer over the smaller exponent. -/
def dyAdd (n1 : Bool) (m1 : Nat) (e1 : Int) (n2 : Bool) (m2 : Nat) (e2 : Int) : Val :=
  let e := min e1 e2
  let a : Int := (m1 * 2 ^ (e1 - e).toNat : Nat)
  let b : Int := (m2 * 2 ^ (e2 - e).toNat : Nat)
  let s : Int := (if n1 then -a else a) + (if n2 then -b else b)
  if s = 0 then .fin (n1 && n2) 0 e else .fin (decide (s < 0)) s.natAbs e

/-- Exact sum. -/
def vadd : Val → Val → Val
  | .nan, _ => .nan
  | _, .nan => .nan
  | .inf a, .inf b => if a = b then .inf a else .nan
  | .inf a, .fin .. => .inf a
  | .fin .., .inf b => .inf b
  | .fin n1 m1 e1, .fin n2 m2 e2 => dyAdd n1 m1 e1 n2 m2 e2

/-- Exact product. -/
def vmul : Val → Val → Val
  | .nan, _ => .nan
  | _, .nan => .nan
  | .inf a, .inf b => .inf (a != b)
  | .inf a, .fin b m _ => if m = 0 then .nan else .inf (a != b)
  | .fin a m _, .inf b => if m = 0 then .nan else .inf (a != b)
  | .fin a m1 e1, .fin b m2 e2 => .fin (a != b) (m1 * m2) (e1 + e2)

/-- Negation. -/
def vneg : Val → Val
  | .nan => .nan
  | .inf a => .inf (!a)
  | .fin a m e => .fin (!a) m e

/-- Quotient, exact up to a sticky bit far below any rounding position. -/
def vdiv : Val → Val → Val
  | .nan, _ => .nan
  | _, .nan => .nan
  | .inf _, .inf _ => .nan
  | .inf a, .fin b _ _ => .inf (a != b)
  | .fin a _ _, .inf b => .fin (a != b) 0 0
  | .fin a m1 e1, .fin b m2 e2 =>
    if m2 = 0 then (if m1 = 0 then .nan else .inf (a != b))
    else
      let k := 64 + Nat.log2 m2
      let n := m1 * 2 ^ k
      .fin (a != b) (2 * (n / m2) + (if n % m2 = 0 then 0 else 1)) (e1 - e2 - k - 1)

/-- Integer square root by bits, for arguments below 2^240. -/
def isqrt (n : Nat) : Nat :=
  (List.range 120).foldl (fun r i => let c := r + 2 ^ (119 - i); if c * c ≤ n then c else r) 0

/-- Square root, exact up to a sticky bit. -/
def vsqrt : Val → Val
  | .nan => .nan
  | .inf true => .nan
  | .inf false => .inf false
  | .fin n m e =>
    if m = 0 then .fin n 0 e
    else if n then .nan
    else
      let odd := e % 2 = 1
      let m' := (if odd then m * 2 else m) * 2 ^ 128
      let e' := (if odd then e - 1 else e) - 128
      let r := isqrt m'
      .fin false (2 * r + (if r * r = m' then 0 else 1)) (e' / 2 - 1)

/-- FP32 addition (R150). -/
def fadd (x y : F32) : F32 := fword (vadd (fval x) (fval y))
/-- FP32 subtraction. -/
def fsub (x y : F32) : F32 := fword (vadd (fval x) (vneg (fval y)))
/-- FP32 multiplication. -/
def fmul (x y : F32) : F32 := fword (vmul (fval x) (fval y))
/-- FP32 fused multiply-add: x × y + z rounded once. -/
def ffma (x y z : F32) : F32 := fword (vadd (vmul (fval x) (fval y)) (fval z))
/-- FP32 division. -/
def fdiv (x y : F32) : F32 := fword (vdiv (fval x) (fval y))
/-- FP32 square root. -/
def fsqrt (x : F32) : F32 := fword (vsqrt (fval x))
/-- A natural number as FP32, rounded to nearest even. -/
def fnat (n : Nat) : F32 := fword (.fin false n 0)
/-- One rounding of FP32 to BF16, as an FP32 word (R151, R157). -/
def toBf16 (x : F32) : F32 := fword (bf16.decode (bf16.round (fval x)))
/-- A BF16 code as FP32. -/
def ofBf16 (c : Nat) : F32 := fword (bf16.decode c)

/-- Whether an FP32 word is a NaN. -/
def isNan (x : F32) : Bool := decide (fval x = .nan)

/-- Whether an FP32 word is finite. -/
def isFin (x : F32) : Bool := match fval x with | .fin .. => true | _ => false

/-- A zero of either sign. -/
def isZero (x : F32) : Bool := decide (x.toNat % 2 ^ 31 = 0)

/-- A monotone integer key of a non-NaN FP32 word; +0 ranks above −0. -/
def fkey (x : F32) : Int := if x.getLsbD 31 then -((x.toNat % 2 ^ 31 : Nat) : Int) - 1 else ((x.toNat % 2 ^ 31 : Nat) : Int)

/-- ACC MAX (R152): the greater value, a NaN operand gives NaN, +0 above −0. -/
def fmax (x y : F32) : F32 := if isNan x || isNan y then fnan else if fkey x ≤ fkey y then y else x

/-- TwoSum: the rounded sum and its exact error; 0 where an operand or the sum is infinite or a NaN (R156; DESIGN CHOICE, log 146). -/
def twoSum (x y : F32) : F32 × F32 :=
  let s := fadd x y
  match fval x, fval y, fval s with
  | .fin .., .fin .., .fin .. => (s, fword (vadd (vadd (fval x) (fval y)) (vneg (fval s))))
  | _, _, _ => (s, 0)

/-- One level of the pairwise tree of R151: neighbours are added, and an odd last one goes up as it is (DEDUCED, log 170). -/
def pairUp : List F32 → List F32
  | a :: b :: r => fadd a b :: pairUp r
  | l => l

/-- The fixed pairwise tree of R151, in element order. -/
def treeSum : Nat → List F32 → F32
  | 0, l => l.headD 0
  | n + 1, l => match l with
    | [] => 0
    | [x] => x
    | l => treeSum n (pairUp l)

/-! ### Row formats (R138 to R147) -/

/-- The floating-point format of a format code. -/
def ffmtOf (c : Nat) : Option FFmt :=
  match c with
  | 1 => some fp32 | 2 => some bf16 | 3 => some fp16 | 4 => some e4m3 | 5 => some e5m2 | _ => none

/-- Row bytes for `e` elements (R139). -/
def rowBytes (fmt e : Nat) : Nat :=
  match fmt with
  | 1 => 4 * e | 2 => 2 * e | 3 => 2 * e | 4 => e | 5 => e | 6 => e + 4 | 7 => 20 * cdiv e 32 | _ => 0

/-- Whether FORMAT, ROW_ELEMS and ROW_LINES fit one another (R138, R139). -/
def rowOk (fmt e lines : Nat) : Bool :=
  if fmt = 0 then decide (e = 0)
  else decide (fmt ≤ 7 ∧ e % 16 = 0 ∧ 16 ≤ e ∧ e ≤ 4096 ∧ cdiv (rowBytes fmt e) 256 ≤ lines ∧ lines ≤ 64)

/-- Split a byte list into elements of `w` bytes. -/
def elemsOf (w n : Nat) (bs : List Byte) : List Nat := (List.range n).map fun i => leNat ((bs.drop (w * i)).take w)

/-- Decode a stored row to `e` FP32 elements (R140, R143, R144). -/
def decodeRow (fmt e : Nat) (bs : List Byte) : List F32 :=
  match ffmtOf fmt with
  | some f => (elemsOf f.width e bs).map fun c => fword (f.decode c)
  | none =>
    if fmt = 6 then
      let s := fword (fp16.decode (leNat (bs.take 2)))
      let b := fword (fp16.decode (leNat ((bs.drop 2).take 2)))
      (List.range e).map fun i => ffma (fnat ((bs.drop (4 + i)).headD 0).toNat) s b
    else if fmt = 7 then
      (List.range e).map fun i =>
        let g := bs.drop (20 * (i / 32))
        let s := fword (fp16.decode (leNat ((g.drop 16).take 2)))
        let b := fword (fp16.decode (leNat ((g.drop 18).take 2)))
        let c := ((g.drop (i % 32 / 2)).headD 0).toNat
        ffma (fnat (if i % 2 = 0 then c % 16 else c / 16)) s b
    else []

/-- A finite FP32 value times 2^149, as an integer, clamped to ±65,504 (R145 step 1). -/
def clampInt (x : F32) : Int :=
  let lim : Int := (65504 * 2 ^ 149 : Nat)
  match fval x with
  | .fin n m e =>
    let v : Int := (m * 2 ^ (e + 149).toNat : Nat)
    max (-lim) (min lim (if n then -v else v))
  | .inf n => if n then -lim else lim
  | .nan => 0

/-- The value times 2^149 of a non-negative FP16 code. -/
def fp16Int (c : Nat) : Int :=
  match fp16.decode c with
  | .fin _ m e => (m * 2 ^ (e + 149).toNat : Nat)
  | _ => 0

/-- Greatest FP16 code in 0 to 0x7BFF whose value times `d` is at most `v` (v ≥ 0), by bits. -/
def fp16Floor (v d : Int) : Nat :=
  (List.range 15).foldl (fun r i => let c := r + 2 ^ (14 - i); if c ≤ 0x7BFF ∧ fp16Int c * d ≤ v then c else r) 0

/-- Least FP16 code whose value times `d` is at least `v` (v ≥ 0). -/
def fp16Ceil (v d : Int) : Nat :=
  let c := fp16Floor v d
  if fp16Int c * d = v then c else c + 1

/-- The bias b: the greatest FP16 value not above `v` (R145 step 3). -/
def fp16Down (v : Int) : Nat := if 0 ≤ v then fp16Floor v 1 else 2 ^ 15 + fp16Ceil (-v) 1

/-- The exact value times 2^149 of an FP32 word that is finite. -/
def exactInt (x : F32) : Int :=
  match fval x with
  | .fin n m e => let v : Int := (m * 2 ^ (e + 149).toNat : Nat); if n then -v else v
  | _ => 0

/-- The code that minimises |x − D(q)|: ties to the even code, then to the least (R145 step 5). -/
def bestCode (x : Int) (s b : F32) (top : Nat) : Nat :=
  let dist := fun q => (x - exactInt (ffma (fnat q) s b)).natAbs
  ((List.range (top + 1)).foldl (fun (best : Nat × Nat) q =>
    let d := dist q
    if d < best.2 then (q, d)
    else if d = best.2 ∧ best.1 % 2 = 1 ∧ q % 2 = 0 then (q, d) else best) (0, dist 0)).1

/-- Scale and bias codes and element codes of one range (R145); `top` is 255 or 15. Log 56. -/
def quantize (xs : List F32) (top : Nat) : Nat × Nat × List Nat :=
  let vs := xs.map clampInt
  let mn := vs.foldl min (vs.headD 0)
  let mx := vs.foldl max (vs.headD 0)
  let bc := fp16Down mn
  let bv : Int := if bc < 2 ^ 15 then fp16Int bc else -(fp16Int (bc - 2 ^ 15))
  let sc := fp16Ceil (mx - bv) top
  let s := fword (fp16.decode sc)
  let b := fword (fp16.decode bc)
  (sc, bc, vs.map fun v => if sc = 0 then 0 else bestCode v s b top)

/-- Encode elements into one floating-point format (R147). -/
def encodeElems (f : FFmt) (xs : List F32) : List Byte := xs.flatMap fun x => leBytes f.width (f.encode (fval x))

/-- Pack GQ4 codes two to a byte, low half first, 16 bytes to a group (R140). -/
def packNibbles (cs : List Nat) : List Byte :=
  (List.range 16).map fun j => BitVec.ofNat 8 (cs.getD (2 * j) 0 + 16 * cs.getD (2 * j + 1) 0)

/-- Encode a whole row, padded with zeros to `lines` lines (R140, R145, R147). -/
def encodeRow (fmt lines : Nat) (xs : List F32) : List Byte :=
  let body : List Byte :=
    match ffmtOf fmt with
    | some f => encodeElems f xs
    | none =>
      if fmt = 6 then
        let q := quantize xs 255
        leBytes 2 q.1 ++ leBytes 2 q.2.1 ++ q.2.2.map (BitVec.ofNat 8)
      else if fmt = 7 then
        (List.range (cdiv xs.length 32)).flatMap fun g =>
          let q := quantize ((xs.drop (32 * g)).take 32) 15
          packNibbles q.2.2 ++ leBytes 2 q.1 ++ leBytes 2 q.2.1
      else []
  body ++ List.replicate (256 * lines - body.length) 0

/-! ### Flash line methods (R159, R160) -/

/-- Encoded bytes of a line under the method that gives the fewest (R159). -/
def lineEncoded (bs : List Byte) : Nat :=
  let z := (bs.filter (· ≠ 0)).length
  if z = 0 then 0
  else if decide ((List.range 64).all fun i => (bs.drop (4 * i)).take 4 = bs.take 4) then 4
  else if z < 224 then 32 + z
  else 256

/-- Encoded bytes of a group of 16 lines. -/
def groupEncoded (bs : List Byte) : Nat :=
  ((List.range 16).map fun i => lineEncoded ((bs.drop (256 * i)).take 256)).sum

/-- Greedy packing of groups in order: sectors that hold 1 to 4 whole groups whose encoded bytes fit in 4,096 (R160). -/
def packGroups : List (Nat × Nat) → Nat → Nat → List (List Nat) → List (List Nat)
  | [], _, _, acc => acc
  | (g, n) :: r, used, cnt, acc =>
    match acc with
    | [] => packGroups r n 1 [[g]]
    | cur :: rest =>
      if cnt < 4 ∧ used + n ≤ 4096 then packGroups r (used + n) (cnt + 1) ((cur ++ [g]) :: rest)
      else packGroups r n 1 ([g] :: cur :: rest)

end Sys2Proof.Machine
end

