-- ==== Sys2Proof/Machine/Operands.lean ====
section
/-! DEFINITION. Operand forms: pool pointers, packets, batches, programs, and the entries of the tables of R29. -/

namespace Sys2Proof

/-! ### Packets (R299 to R307) -/

/-- The 16 header bytes (R299). -/
def Packet.header (p : Packet) : List Byte :=
  let w0 : Nat := p.dst.toNat + p.src.toNat * 2 ^ 20 + p.ctxid.toNat * 2 ^ 40 + p.opcode.toNat * 2 ^ 56
  let w1 : Nat := p.length.toNat + p.vc.toNat * 2 ^ 14 + Machine.b2n p.ordered * 2 ^ 17 +
    Machine.b2n p.poisoned * 2 ^ 18 + Machine.b2n p.rsv * 2 ^ 19 + p.tag.toNat * 2 ^ 20 + p.osf.toNat * 2 ^ 32
  Machine.leBytes 8 w0 ++ Machine.leBytes 8 w1

/-- The CRC the packet should carry (R301). -/
def Packet.goodCrc (p : Packet) : BitVec 32 := Machine.crc32c (p.header ++ p.payload)

/-- Whether the end CRC is right (R301). -/
def Packet.crcOk (p : Packet) : Bool := decide (p.endCrc = p.goodCrc)

/-- The packet with its end CRC filled in. -/
def Packet.sealed (p : Packet) : Packet := { p with endCrc := p.goodCrc }

/-- Whether the packet passes R300. -/
def Packet.lenOk (p : Packet) : Bool := decide (p.length.toNat ≤ 8192 ∧ p.payload.length = p.length.toNat)

/-- Link blocks of a packet of `n` payload bytes (R88, R300). -/
def Machine.blocksOf (n : Nat) : Nat := Machine.cdiv (20 + n) 248

/-- Whether payload segment `j` counts as poisoned: its bit, or every segment when POISONED stands alone (R302). -/
def Packet.seg (p : Packet) (j : Nat) : Bool := p.segPoison.getLsbD j || (p.poisoned && decide (p.segPoison = 0))

/-- Poison of payload byte `k`. -/
def Packet.bytePoison (p : Packet) (k : Nat) : Bool := p.seg (k / 256)

/-- Payload word `i` (R7). -/
def Packet.word (p : Packet) (i : Nat) : Word := BitVec.ofNat 64 (Machine.leNat ((p.payload.drop (8 * i)).take 8))

/-- The response field of R133 as OSF (R304). -/
def Machine.respField (status tick seq : Nat) (last : Bool) : BitVec 32 :=
  BitVec.ofNat 32 (status % 256 + tick % 65536 * 256 + seq % 128 * 2 ^ 24 + Machine.b2n last * 2 ^ 31)

/-- Poison map from one flag per segment (R302). -/
def Machine.poisonMap (fs : List Bool) : BitVec 32 :=
  BitVec.ofNat 32 ((fs.zipIdx.map fun f => Machine.b2n f.1 * 2 ^ f.2).sum)

/-- Build a packet that the device originates. -/
def Machine.mkPacket (dst src : BitVec 20) (ctx : BitVec 16) (op : Nat) (vc : Nat) (ordered : Bool) (tag : BitVec 12)
    (osf : BitVec 32) (payload : List Byte) (poison : List Bool) : Packet :=
  Packet.sealed
    { dst, src, ctxid := ctx, opcode := BitVec.ofNat 8 op, length := BitVec.ofNat 14 payload.length,
      vc := BitVec.ofNat 3 vc, ordered, poisoned := poison.any id, tag, osf, payload,
      segPoison := Machine.poisonMap poison, endCrc := 0 }

/-! ### Command-ring entries (R382) -/

/-- An entry from its eight words. -/
def Machine.entryOf (ring : Fin 4) (ws : List Word) : Entry :=
  let w0 := ws.getD 0 0
  { ring, flags := BitVec.ofNat 8 (Machine.bits w0 15 8), arg := BitVec.ofNat 16 (Machine.bits w0 31 16),
    tag := BitVec.ofNat 32 (Machine.bits w0 63 32),
    w1 := ws.getD 1 0, w2 := ws.getD 2 0, w3 := ws.getD 3 0, w4 := ws.getD 4 0, w5 := ws.getD 5 0,
    w6 := ws.getD 6 0, w7 := ws.getD 7 0 }

/-- Whether every bit of the entry outside the given masks is zero (R382, R384 check 2). -/
def Entry.rsvOk (e : Entry) (arg : BitVec 16) (m1 m2 m3 m4 m5 m6 m7 : Word) : Bool :=
  decide (e.flags = 0 ∧ e.arg &&& ~~~arg = 0 ∧ e.w1 &&& ~~~m1 = 0 ∧ e.w2 &&& ~~~m2 = 0 ∧ e.w3 &&& ~~~m3 = 0 ∧
    e.w4 &&& ~~~m4 = 0 ∧ e.w5 &&& ~~~m5 = 0 ∧ e.w6 &&& ~~~m6 = 0 ∧ e.w7 &&& ~~~m7 = 0)

/-! ### Tables (R29, R386) -/

/-- The number TABLE_INVALIDATE gives a table. -/
def Table.num : Table → Nat
  | .ctxt => 0 | .extt => 1 | .pkt => 2 | .rtt => 3 | .domt => 4 | .prgt => 5 | .tft => 6 | .slt => 7

/-- The table of a number. -/
def Table.ofNum : Nat → Option Table
  | 0 => some .ctxt | 1 => some .extt | 2 => some .pkt | 3 => some .rtt
  | 4 => some .domt | 5 => some .prgt | 6 => some .tft | 7 => some .slt | _ => none

/-- Entries of a table (R29). -/
def Table.entries : Table → Nat
  | .ctxt => 65536 | .extt => 262144 | .pkt => 33554432 | .rtt => 1048576
  | .domt => 4096 | .prgt => 1024 | .tft => 262144 | .slt => 8192

/-- Bytes of an entry (R29). -/
def Table.size : Table → Nat
  | .ctxt => 128 | .extt => 64 | .pkt => 4 | .rtt => 8 | .domt => 256 | .prgt => 256 | .tft => 16 | .slt => 16

/-- Offset of the table's register group in the register space (R29, R37). -/
def Table.group (t : Table) : Nat := 0x7200 + 0x20 * t.num

/-- Tables whose inactive bank the driver writes (R29). -/
def Table.byDriver : Table → Bool
  | .rtt | .prgt | .tft | .slt => true | _ => false

/-- Every table, in the order of its number. -/
def Machine.allTables : List Table := [.ctxt, .extt, .pkt, .rtt, .domt, .prgt, .tft, .slt]

namespace Machine

/-! ### Pool pointers (R59) -/

/-- A decoded pool pointer. -/
inductive Ptr where
  | null
  | at' (ext off : Nat)
  | bad
deriving DecidableEq, Repr

/-- Decode a pool pointer. -/
def ptrOf (w : Word) : Ptr :=
  if w = 0 then .null else if bits w 63 62 = 2 then .at' (bits w 61 44) (bits w 43 0) else .bad

/-- Encode a pool pointer. -/
def ptrTo (ext off : Nat) : Word := place 63 62 2 ||| place 61 44 ext ||| place 43 0 off

/-- A 24-bit parcel count, 0 standing for 8,388,608 (R45, R60). -/
def parcelCount (v : Nat) : Nat := if v = 0 then 8388608 else v

/-! ### Extent table entries (R45) -/

/-- The fields of an EXTT entry. -/
structure Extt where
  valid : Bool
  state : Nat
  pinned : Bool
  assured : Bool
  coherent : Bool
  format : Nat
  rowElems : Nat
  rowLines : Nat
  domain : Nat
  parcels : Nat
  prev : Nat
  pmap : Nat
  revoke : Nat
  resize : Nat
  upd5 : Word
  upd6 : Word
  stackMask : Nat
  startStack : Nat
deriving DecidableEq, Repr

/-- Decode an EXTT entry. -/
def exttOf (ws : List Word) : Extt :=
  let w0 := ws.getD 0 0
  let w1 := ws.getD 1 0
  let w7 := ws.getD 7 0
  { valid := bit w0 0, state := bits w0 2 1, pinned := bit w0 3, assured := bit w0 4, coherent := bit w0 5,
    format := bits w0 11 8, rowElems := bits w0 28 16, rowLines := bits w0 38 32, domain := bits w0 51 40,
    parcels := parcelCount (bits w1 23 0), prev := parcelCount (bits w1 55 32),
    pmap := bits (ws.getD 2 0) 51 12 * 4096, revoke := bits (ws.getD 3 0) 47 0, resize := bits (ws.getD 4 0) 47 0,
    upd5 := ws.getD 5 0, upd6 := ws.getD 6 0, stackMask := bits w7 23 0, startStack := bits w7 28 24 }

/-- Encode an EXTT entry. -/
def Extt.words (e : Extt) : List Word :=
  [place 0 0 (b2n e.valid) ||| place 2 1 e.state ||| place 3 3 (b2n e.pinned) ||| place 4 4 (b2n e.assured) |||
     place 5 5 (b2n e.coherent) ||| place 11 8 e.format ||| place 28 16 e.rowElems ||| place 38 32 e.rowLines |||
     place 51 40 e.domain,
   place 23 0 (e.parcels % 8388608) ||| place 55 32 (e.prev % 8388608), place 51 12 (e.pmap / 4096), place 47 0 e.revoke, place 47 0 e.resize,
   e.upd5, e.upd6, place 23 0 e.stackMask ||| place 28 24 e.startStack]

/-- STATE other than ACTIVE counts as REVOKED (R45). -/
def Extt.revoked (e : Extt) : Bool := decide (e.state ≠ 0)

/-- Extent size in parcels for a request admitted in tick `t` (R51). -/
def Extt.sizeAt (e : Extt) (t : Nat) : Nat := if later e.resize t then e.prev else e.parcels

/-- Extent size in bytes for a request admitted in tick `t`. -/
def Extt.bytesAt (e : Extt) (t : Nat) : Nat := e.sizeAt t * 2 ^ 21

/-- A zero ROW_LINES field cannot occur in a valid non-RAW entry; row size in bytes (R45). -/
def Extt.rowSize (e : Extt) : Nat := e.rowLines * 256

/-- Rows of the extent at tick `t` (R123). -/
def Extt.rowsAt (e : Extt) (t : Nat) : Nat := if e.rowLines = 0 then 0 else e.bytesAt t / e.rowSize

/-! ### Context table entries (R53, chapter 13) -/

/-- The fields of a CTXT entry that requests use. -/
structure Ctxt where
  valid : Bool
  host : Bool
  xlt : Nat
  owner : Nat
  asid : Nat
  root : Nat
  keys : List Nat
  keyRights : Nat
  rights : Nat
  ebl : Nat
  eblCount : Nat
  sub : List Word
deriving DecidableEq, Repr

/-- Decode a CTXT entry. -/
def ctxtOf (ws : List Word) : Ctxt :=
  let w0 := ws.getD 0 0
  let w4 := ws.getD 4 0
  { valid := bit w0 0, host := bit w0 1, xlt := bits w0 3 2, owner := bits w0 35 16, asid := bits w0 51 36,
    root := bits (ws.getD 1 0) 43 0,
    keys := (List.range 8).map fun k => bits (ws.getD (2 + k / 4) 0) (16 * (k % 4) + 15) (16 * (k % 4)),
    keyRights := bits w4 15 0, rights := bits w4 23 16,
    ebl := bits (ws.getD 5 0) 51 4 * 16, eblCount := bits (ws.getD 5 0) 60 52, sub := (ws.drop 8).take 4 }

/-- CLASS_RIGHTS bit `i` (0 LOOKUP, 1 READ, 2 WRITE, 3 UPDATE, 4 ATOMIC, 5 BULK, 6 DEEP, 7 HOSTVA). -/
def Ctxt.may (c : Ctxt) (i : Nat) : Bool := decide (c.rights / 2 ^ i % 2 = 1)

/-- The key check of R57: some key equals `key` ≠ 0 and its rights grant the access. -/
def Ctxt.keyOk (c : Ctxt) (key : Nat) (write : Bool) : Bool :=
  decide (key ≠ 0) && (c.keys.zipIdx.any fun k =>
    let r := c.keyRights / 4 ^ k.2 % 4
    decide (k.1 = key) && (decide (r = 3) || (!write && decide (r = 1))))

/-- An entry of an extent base list (R60). -/
structure Ebl where
  valid : Bool
  ext : Nat
  rawParcels : Nat
  va : Nat
deriving DecidableEq, Repr

/-- Decode an extent base list entry. -/
def eblOf (w0 w1 : Word) : Ebl :=
  { valid := bit w0 63, ext := bits w0 17 0, rawParcels := bits w0 47 24, va := w1.toNat }

/-- Bytes an entry maps. -/
def Ebl.bytes (e : Ebl) : Nat := parcelCount e.rawParcels * 2 ^ 21

/-- Lower canonical bound of a mode: addresses below it, or at and above 2^64 minus it, are canonical (R60, R194). -/
def canonHalf (xlt : Nat) : Nat := if xlt = 1 then 2 ^ 47 else 2 ^ 56

/-- Whether the list obeys R60 for a context of the given mode. -/
def eblOk (es : List Ebl) (xlt : Nat) : Bool :=
  let vs := es.filter (·.valid)
  decide (vs.length ≤ 256) &&
  vs.all (fun e => decide (e.rawParcels < 0x800000 ∧ e.va % 0x200000 = 0 ∧ e.va + e.bytes ≤ 2 ^ 64)) &&
  (vs.zip (vs.drop 1)).all (fun p => decide (p.1.va + p.1.bytes ≤ p.2.va)) &&
  vs.zipIdx.all (fun e => vs.zipIdx.all fun f => decide (e.2 = f.2 ∨ e.1.ext ≠ f.1.ext)) &&
  (decide (xlt = 0) || vs.all (fun e =>
    decide (e.va + e.bytes ≤ canonHalf xlt ∨ 2 ^ 64 - canonHalf xlt ≤ e.va)))

/-- CVT from pool pointer to virtual address (R61); none is a failure. -/
def cvtToVa (es : List Ebl) (p : Word) : Option Word :=
  match ptrOf p with
  | .null => some 0
  | .bad => none
  | .at' x o =>
    match es.find? (fun e => e.valid && decide (e.ext = x)) with
    | some e => if o < e.bytes then some (BitVec.ofNat 64 (e.va + o)) else none
    | none => none

/-- CVT from virtual address to pool pointer (R61). -/
def cvtToPtr (es : List Ebl) (v : Word) : Option Word :=
  if v = 0 then some 0
  else
    match es.find? (fun e => e.valid && decide (e.va ≤ v.toNat ∧ v.toNat < e.va + e.bytes)) with
    | some e => some (ptrTo e.ext (v.toNat - e.va))
    | none => none

/-! ### Programs (R119 to R122, R128) -/

/-- A micro-op word. -/
structure MicroOp where
  opc : Nat
  mode : Nat
  ka : Nat
  kb : Nat
  imm : Nat
deriving DecidableEq, Repr

/-- Decode a micro-op. -/
def microOf (v : Nat) : MicroOp :=
  { opc := v / 2 ^ 27 % 32, mode := v / 2 ^ 24 % 8, ka := v / 2 ^ 20 % 16, kb := v / 2 ^ 16 % 16, imm := v % 65536 }

/-- The micro-ops of a PRGT entry. -/
def microOps (ws : List Word) : List MicroOp :=
  (List.range (bits (ws.getD 0 0) 5 1 + 1)).map fun i =>
    microOf (if i % 2 = 0 then bits (ws.getD (16 + i / 2) 0) 31 0 else bits (ws.getD (16 + i / 2) 0) 63 32)

/-- Defined opcode and mode (R122): a mode of an opcode whose row lists none is not listed (DEDUCED, log 161). -/
def MicroOp.defined (m : MicroOp) : Bool :=
  match m.opc with
  | 1 => decide (m.mode ≤ 1) | 2 => decide (m.mode = 0) | 3 => decide (m.mode = 0) | 4 => decide (m.mode = 0)
  | 5 => decide (m.mode ≤ 2) | 6 => decide (m.mode ≤ 2 ∨ m.mode = 4 ∨ m.mode = 5) | 7 => decide (m.mode = 0)
  | 8 => decide (m.mode ≤ 1) | 9 => decide (m.mode ≤ 1) | 10 => decide (m.mode ≤ 1) | 11 => decide (m.mode ≤ 1)
  | _ => false

/-- An address micro-op: IDX, HASH, CHASE, or CVT with MODE 1. -/
def MicroOp.index (m : MicroOp) : Bool := decide (m.opc = 1 ∨ m.opc = 2 ∨ m.opc = 3 ∨ (m.opc = 11 ∧ m.mode = 1))

/-- A reducer: ACC, CONCAT or TOPK. -/
def MicroOp.reducer (m : MicroOp) : Bool := decide (m.opc = 6 ∨ m.opc = 7 ∨ m.opc = 9)

/-- Engine-cycle costs of a micro-op (R128): INDEX_COST, ROW_FIXED, ROW_V32, ROW_V64. -/
def MicroOp.cost (m : MicroOp) : Nat × Nat × Nat × Nat :=
  match m.opc with
  | 1 => (1, 0, 0, 0) | 2 => (4, 0, 0, 0) | 3 => (2, 0, 0, 0) | 4 => (0, 1, 0, 0) | 5 => (0, 0, 1, 0)
  | 6 => (0, 0, if m.mode ≥ 4 then 2 else 1, 0) | 7 => (0, 0, 1, 0)
  | 8 => if m.mode = 0 then (0, 0, 0, 1) else (0, 0, 1, 0)
  | 9 => (0, 2, 0, 0) | 11 => if m.mode = 1 then (8, 0, 0, 0) else (0, 8, 0, 0)
  | _ => (0, 0, 0, 0)

/-- The four cost fields as the device computes them (R120, R128): 1 cycle of ROW_FIXED starts the thread. -/
def progCosts (ops : List MicroOp) : Nat × Nat × Nat × Nat :=
  ops.foldl (fun a m => let c := m.cost; (a.1 + c.1, a.2.1 + c.2.1, a.2.2.1 + c.2.2.1, a.2.2.2 + c.2.2.2)) (0, 1, 0, 0)

/-- The reducer of a program. -/
def progReducer (ops : List MicroOp) : MicroOp := (ops.find? (·.reducer)).getD ⟨0, 0, 0, 0, 0⟩

/-- OUT_ELEMS of a PRGT entry. -/
def progOut (ws : List Word) : Nat := bits (ws.getD 0 0) 45 32

/-- Whether the device accepts the program (R120, R121, the TOPK part). -/
def progOk (ws : List Word) : Bool :=
  let w0 := ws.getD 0 0
  let ops := microOps ws
  let pre := ops.takeWhile (·.opc ≠ 4)
  let post := ops.drop (pre.length + 1)
  let body := post.dropLast
  let mid := body.takeWhile (fun m => !m.reducer)
  let red := progReducer ops
  let c := progCosts ops
  let first := (ops.headD ⟨0, 0, 0, 0, 0⟩).opc
  bit w0 0 && ops.all (·.defined) && decide (first = 1 ∨ first = 2) &&
  pre.all (·.index) && decide ((ops.filter (·.opc = 4)).length = 1) && !(post.any (·.index)) &&
  decide ((ops.filter (·.opc = 3)).length ≤ 4) &&
  decide ((post.filter (·.reducer)).length = 1) &&
  ((body.drop (mid.length + 1)).all fun m => decide (m.opc = 11 ∧ m.mode = 0)) &&
  decide ((ops.filter (·.opc = 8)).length ≤ 1) &&
  decide ((ops.any (·.opc = 8)) = (ops.any (·.opc = 9))) &&
  decide ((ops.filter (fun m => m.opc = 11 ∧ m.mode = 0)).length ≤ 1) &&
  decide ((ops.filter (·.opc = 10)).length = 1) && decide ((ops.getLast?.map (·.opc)) = some 10) &&
  (ops.all fun m => !(decide (m.opc = 2 ∨ (m.opc = 5 ∧ m.mode = 2))) || decide (m.ka ≠ 0)) &&
  (!(decide (red.opc = 9)) || decide (1 ≤ red.imm ∧ red.imm ≤ 1024 ∧ progOut ws = 4 * red.imm)) &&
  decide (1 ≤ progOut ws ∧ progOut ws ≤ 8192) &&
  decide (bits w0 15 8 = c.1 ∧ bits w0 23 16 = c.2.1 ∧ bits w0 27 24 = c.2.2.1 ∧ bits w0 29 28 = c.2.2.2)

/-- Word 0 with the four cost fields as the device computes them (R391, PRG_CHECK). -/
def progWord0 (ws : List Word) : Word :=
  let c := progCosts (microOps ws)
  setBits (setBits (setBits (setBits (ws.getD 0 0) 15 8 c.1) 23 16 c.2.1) 27 24 c.2.2.1) 29 28 c.2.2.2

/-- Whether the partial of an output carries compensation (R156). -/
def progComp (ops : List MicroOp) : Bool := let r := progReducer ops; decide (r.opc = 6 ∧ r.mode ≥ 4)

/-- Whether the output is BF16 (EMIT MODE 1). -/
def progBf16 (ops : List MicroOp) : Bool := ops.any fun m => decide (m.opc = 10 ∧ m.mode = 1)

/-- The hash of R123. -/
def hashRow (key seed : Word) (n : Nat) : Nat :=
  let h := key ^^^ seed
  let h := h ^^^ (h >>> 32)
  let h := h * 0x8B51F3A724D96C35#64
  let h := h ^^^ (h >>> 29)
  let h := h * 0xE17C49B39F02A6D1#64
  let h := h ^^^ (h >>> 32)
  h.toNat * n / 2 ^ 64

/-! ### Batches (R108 to R112) -/

/-- Round up to a multiple of 8. -/
def pad8 (n : Nat) : Nat := cdiv n 8 * 8

/-- A table section (R110). -/
structure BatchTable where
  ext : Nat
  prog : Nat
  e64 : Bool
  weighted : Bool
  lookups : Nat
  outputs : Nat
deriving DecidableEq, Repr

/-- Bytes of one entry (R111). -/
def BatchTable.entry (t : BatchTable) : Nat := (if t.e64 then 8 else 4) + (if t.weighted then 4 else 0)

/-- Whether the bag array is present (R111). -/
def BatchTable.bagArray (t : BatchTable) : Bool := decide (t.outputs ≠ 1 ∧ t.outputs ≠ t.lookups)

/-- Bytes of the table's bag array and entries. -/
def BatchTable.bytes (t : BatchTable) : Nat :=
  (if t.bagArray then pad8 (2 * t.outputs) else 0) + pad8 (t.entry * t.lookups)

/-- Word `i` of batch data. -/
def wordAt (bs : List Byte) (i : Nat) : Word := BitVec.ofNat 64 (leNat ((bs.drop (8 * i)).take 8))

/-- The table sections of a batch. -/
def batchTables (bs : List Byte) : List BatchTable :=
  (List.range (bits (wordAt bs 0) 5 0 + 1)).map fun i =>
    let w := wordAt bs (1 + 2 * i)
    { ext := bits w 17 0, prog := bits w 27 18, e64 := bit w 28, weighted := bit w 29, lookups := bits w 48 32,
      outputs := bits (wordAt bs (2 + 2 * i)) 16 0 }

/-- Offset of the query vector. -/
def batchQueryAt (bs : List Byte) : Nat := 8 + 16 * (bits (wordAt bs 0) 5 0 + 1)

/-- Bytes of a query element. -/
def batchQueryWidth (bs : List Byte) : Nat := if bit (wordAt bs 0) 8 then 2 else 4

/-- Offset of the position weights. -/
def batchPoswAt (bs : List Byte) : Nat := batchQueryAt bs + pad8 (batchQueryWidth bs * bits (wordAt bs 0) 28 16)

/-- Offset of the first table's data. -/
def batchDataAt (bs : List Byte) : Nat := batchPoswAt bs + pad8 (4 * bits (wordAt bs 0) 40 32)

/-- The exact length of R110. -/
def batchLength (bs : List Byte) : Nat := batchDataAt bs + ((batchTables bs).map (·.bytes)).sum

/-- Offsets of each table's data, in table order. -/
def batchOffsets (bs : List Byte) : List Nat :=
  ((batchTables bs).foldl (fun (a : List Nat × Nat) t => (a.1 ++ [a.2], a.2 + t.bytes)) ([], batchDataAt bs)).1

/-- Bag lengths of a table whose data begins at `o` (R111). -/
def batchBags (bs : List Byte) (t : BatchTable) (o : Nat) : List Nat :=
  if t.outputs = 1 then [t.lookups]
  else if t.outputs = t.lookups then List.replicate t.outputs 1
  else elemsOf 2 t.outputs (bs.drop o)

/-- Keys and weights of a table's entries with the byte offset of each entry. -/
def batchEntries (bs : List Byte) (t : BatchTable) (o : Nat) : List (Word × F32 × Nat) :=
  let at0 := o + (if t.bagArray then pad8 (2 * t.outputs) else 0)
  (List.range t.lookups).map fun i =>
    let p := at0 + i * t.entry
    let kw := if t.e64 then 8 else 4
    (BitVec.ofNat 64 (leNat ((bs.drop p).take kw)),
     if t.weighted then BitVec.ofNat 32 (leNat ((bs.drop (p + kw)).take 4)) else 0x3F800000#32, p)

/-- Result bytes of one output (R134). -/
def outBytes (ws : List Word) : Nat :=
  let ops := microOps ws
  if (progReducer ops).opc = 9 then 4 * progOut ws
  else if progBf16 ops then 2 * progOut ws else 4 * progOut ws

/-- Split `n` result bytes into packets of 8,192, the last with the rest; no bytes still take one packet (R134). -/
def packetSizes (n : Nat) : List Nat :=
  if n = 0 then [0]
  else List.replicate (n / 8192) 8192 ++ (if n % 8192 = 0 then [] else [n % 8192])

/-! ### Route-table entries (R312) and transit filter (R63, R64) -/

/-- A decoded RTT entry. -/
structure Rtt where
  valid : Bool
  filter : Bool
  cands : List Nat
  vcmap : Nat
deriving DecidableEq, Repr

/-- Decode an RTT entry: NCAND 0 acts as VALID 0, above 4 as 4. -/
def rttOf (w : Word) : Rtt :=
  let n := min 4 (bits w 26 24)
  { valid := bit w 0 && decide (n ≠ 0), filter := bit w 2,
    cands := [bits w 8 4, bits w 13 9, bits w 18 14, bits w 23 19].take n, vcmap := bits w 55 32 }

/-- VCMAP for arrival VC `v`. -/
def Rtt.vc (r : Rtt) (v : Nat) : Nat := r.vcmap / 8 ^ v % 8

/-- Bucket of a filter entry (R63). -/
def tftBucket (dst src : Nat) : Nat := ((dst * 16) ^^^ src ^^^ (src / 65536)) % 65536

/-- Whether a filter entry permits (dst, src, extent, write) (R64). -/
def tftAllows (w0 w1 : Word) (dst src ext : Nat) (write : Bool) : Bool :=
  bit w1 63 && decide (bits w0 19 0 = dst ∧ bits w0 39 20 = src ∧ bits w1 17 0 ≤ ext ∧ ext ≤ bits w1 41 24) &&
    (!write || bit w1 61)

end Machine
end Sys2Proof
end

