-- ==== Sys2Proof/Machine/Tables.lean ====
section
/-! DEFINITION. The banked tables of R29 in the control region: reads, in-place writes, invalidation and bank switches
(R30 to R37), parcel maps, extent base lists and the allocation of control-region space (R41). -/

namespace Sys2Proof.Machine

/-- The active bank of a table (CTRL bit 0, R37). -/
def State.activeBank (s : State) (t : Table) : Bool := bit (s.reg (t.group + 0x18)) 0

/-- Host physical base of a bank (R37). -/
def State.bankBase (s : State) (t : Table) (bank : Bool) : Nat := s.fld (t.group + 8 * b2n bank) 51 12 * 4096

/-- The active banks of the eight tables, as R31 binds them. -/
def State.banks (s : State) : BitVec 8 :=
  BitVec.ofNat 8 ((allTables.map fun t => b2n (s.activeBank t) * 2 ^ t.num).sum)

/-- The bank a request is bound to. -/
def boundBank (banks : BitVec 8) (t : Table) : Bool := banks.getLsbD t.num

/-- Words a table entry reads as (PKT: one word holding its 4 bytes). -/
def Table.wordsOf (t : Table) : Nat := max 1 (t.size / 8)

/-- Host physical address of an entry. -/
def State.entryAddr (s : State) (t : Table) (bank : Bool) (i : Nat) : Nat := s.bankBase t bank + i * t.size

/-- The entry as memory holds it. -/
def State.entryMem (s : State) (t : Table) (bank : Bool) (i : Nat) : List Word :=
  let a := s.entryAddr t bank i
  if t.size = 4 then [BitVec.ofNat 64 (leNat (s.readRegion a 4))] else s.readWords a (t.size / 8)

/-- Values of an entry that a change in place has replaced and that may still be seen (R36). -/
def State.olds (s : State) (t : Table) (bank : Bool) (i : Nat) : List (List Word) :=
  (s.tier.stale.filter fun e => decide (e.table = t ∧ e.bank = bank ∧ e.index = i) && !e.dropped && later e.effect s.tick).map (·.old)

/-- The entry as a request reads it: of a live entry changed in place, an old or the new value until the invalidation takes
effect (R36; the choice is free, log 3). -/
def State.entry (s : State) (t : Table) (bank : Bool) (i : Nat) : List Word :=
  let os := s.olds t bank i
  if os.isEmpty then s.entryMem t bank i
  else os.getD (Config.freeNat ((s.fresh * 8 + t.num) * 2 ^ 26 + i) % (os.length + 1)) (s.entryMem t bank i)

/-- Words of an extent entry that a push is bound to: the old ones until the change takes effect (R173). -/
def State.descWords (s : State) (bank : Bool) (x : Nat) : List Word :=
  let os := (s.tier.stale.filter fun e => decide (e.table = .extt ∧ e.bank = bank ∧ e.index = x) && later e.effect s.tick).map (·.old)
  os.getLast?.getD (s.entryMem .extt bank x)

/-- Whether the read of an entry fails its check (R255). -/
def State.entryBad (s : State) (t : Table) (bank : Bool) (i : Nat) : Bool :=
  s.regionBad (s.entryAddr t bank i) t.size

/-- Write an entry into one bank. -/
def State.putEntry (s : State) (t : Table) (bank : Bool) (i : Nat) (ws : List Word) : State :=
  let a := s.entryAddr t bank i
  if t.size = 4 then s.writeRegion a (leBytes 4 (ws.headD 0).toNat) false else s.writeWords a ws

/-- Write an entry into both banks. -/
def State.putBoth (s : State) (t : Table) (i : Nat) (ws : List Word) : State :=
  (s.putEntry t false i ws).putEntry t true i ws

/-- Change a live entry in place in both banks: readers may see the old value until tick `effect` (R36). -/
def State.changeLive (s : State) (t : Table) (i : Nat) (ws : List Word) (effect : Nat) : State :=
  let old := fun (b : Bool) => ({ table := t, bank := b, index := i, old := s.entryMem t b i, effect := effect } : Stale)
  let s' := s.putBoth t i ws
  { s' with tier := { s'.tier with stale := old (s.activeBank t) :: old (!s.activeBank t) :: s'.tier.stale } }

/-- Ask for the invalidation of `n` entries from `i`, in effect at the current tick plus 2 (R36). -/
def State.invalidate (s : State) (t : Table) (i n : Nat) : State :=
  let x := tadd s.tick 2
  let st := s.tier.stale.map fun e =>
    if e.table = t ∧ i ≤ e.index ∧ e.index < i + n ∧ later e.effect x = true then { e with effect := x } else e
  { s with tier := { s.tier with stale := st, invals := s.tier.invals ++ [⟨t, i, n, x⟩] } }

/-- Whether an entry of a table that the driver fills has its valid bit set (R36). -/
def entryValid (t : Table) (ws : List Word) : Bool :=
  match t with
  | .tft => bit (ws.getD 1 0) 63
  | _ => bit (ws.headD 0) 0

/-- Entries of a bank that a write of `n` bytes at host physical address `a` touches: (index, words before). Log 27. -/
def State.touchedEntries (s : State) (t : Table) (bank : Bool) (a n : Nat) : List (Nat × List Word) :=
  let b := s.bankBase t bank
  let lo := max a b
  let hi := min (a + n) (b + t.entries * t.size)
  if b = 0 ∨ hi ≤ lo then []
  else (List.range ((hi - 1 - b) / t.size + 1 - (lo - b) / t.size)).map fun k =>
    let i := (lo - b) / t.size + k
    (i, s.entryMem t bank i)

/-- A write in place of entries: cached copies of the changed entries that were valid, of the bank written, may still be seen until an
invalidation of them takes effect (R30, R36) or a switch makes the bank active (log 137). -/
def State.writeTables (s : State) (a : Nat) (bs : List Byte) (poison : Bool) : State :=
  let before := [Table.rtt, .prgt, .tft].flatMap fun t => [false, true].flatMap fun b =>
    (s.touchedEntries t b a bs.length).map fun x => (t, b, x.1, x.2)
  let s := s.writeRegion a bs poison
  let late := tadd s.tick (2 ^ 47 - 1)
  let add := before.filter fun x => entryValid x.1 x.2.2.2 && decide (s.entryMem x.1 x.2.1 x.2.2.1 ≠ x.2.2.2)
  { s with tier := { s.tier with stale := (add.map fun x => ({ table := x.1, bank := x.2.1, index := x.2.2.1, old := x.2.2.2, effect := late } : Stale)) ++ s.tier.stale } }

/-- A context entry. -/
def State.ctxt (s : State) (banks : BitVec 8) (c : Nat) : Ctxt := ctxtOf (s.entry .ctxt (boundBank banks .ctxt) c)

/-- An extent entry. -/
def State.extt (s : State) (banks : BitVec 8) (x : Nat) : Extt := exttOf (s.entry .extt (boundBank banks .extt) x)

/-- An extent entry as firmware last wrote it. -/
def State.exttNow (s : State) (x : Nat) : Extt := exttOf (s.entryMem .extt (s.activeBank .extt) x)

/-- A parcel's key: (VALID, KEY) of PKT (R48). -/
def State.pkt (s : State) (banks : BitVec 8) (p : Nat) : Bool × Nat :=
  let w := (s.entry .pkt (boundBank banks .pkt) p).headD 0
  (bit w 16, bits w 15 0)

/-- Write a PKT entry in both banks (R49). -/
def State.setPkt (s : State) (p key : Nat) (valid : Bool) : State :=
  s.putBoth .pkt p [place 15 0 key ||| place 16 16 (b2n valid)]

/-- A route entry. -/
def State.rtt (s : State) (bank : Bool) (eid : Nat) : Rtt := rttOf ((s.entry .rtt bank eid).headD 0)

/-- A program table entry. -/
def State.prgt (s : State) (bank : Bool) (i : Nat) : List Word := s.entry .prgt bank i

/-- Entry `i` of a parcel map: (VALID, PARCEL, HOME_STACK) (R46). -/
def State.pmapAt (s : State) (base i : Nat) : Bool × Nat × Nat :=
  let v := leNat (s.readRegion (base + 4 * i) 4)
  (decide (v / 2 ^ 31 % 2 = 1), v % 2 ^ 25, v / 2 ^ 25 % 32)

/-- Write a parcel map entry. -/
def State.setPmap (s : State) (base i : Nat) (valid : Bool) (parcel stack : Nat) : State :=
  s.writeRegion (base + 4 * i) (leBytes 4 (parcel + stack * 2 ^ 25 + b2n valid * 2 ^ 31)) false

/-- The parcel and home stack of byte `off` of an extent. -/
def State.parcelOf (s : State) (e : Extt) (off : Nat) : Nat × Nat := (s.pmapAt e.pmap (off / 2 ^ 21)).2

/-- The extent base list of a context (R60). -/
def State.ebl (s : State) (c : Ctxt) : List Ebl :=
  (List.range c.eblCount).map fun i =>
    let ws := s.readWords (c.ebl + 16 * i) 2
    eblOf (ws.getD 0 0) (ws.getD 1 0)

/-! ### Space in the control region (R41) -/

/-- Whether [a, a + n) overlaps no block that firmware has placed. -/
def blockFree (bs : List (Nat × Nat)) (a n : Nat) : Bool := bs.all fun b => decide (a + n ≤ b.1 ∨ b.1 + b.2 ≤ a)

/-- First byte of the control region. -/
def ctlBase : Nat := 0x10000000000

/-- `n` bytes at `a` lie wholly inside the control region and overlap no block already placed (R41). -/
def State.blockFits (s : State) (n a : Nat) : Bool := decide (ctlBase ≤ a ∧ a + n ≤ ctlBase + 2 ^ 33) && blockFree s.fw.blocks a n

/-- Firmware's choice of a place for `n` bytes aligned to `align`: the free value where it fits, otherwise the first place that fits at the
region's start or behind a block (R41; log 4). -/
def State.placeBlock (s : State) (n align : Nat) : Nat × State :=
  let prop := ctlBase + Config.fwPlace s.fresh % (2 ^ 33 / align) * align
  let ends := (prop :: ctlBase :: s.fw.blocks.map fun b => cdiv (b.1 + b.2) align * align)
  let a := (ends.find? (s.blockFits n)).getD ctlBase
  (a, { s with fresh := s.fresh + 1, fw := { s.fw with blocks := (a, n) :: s.fw.blocks } })

/-- Give a block back. -/
def State.freeBlock (s : State) (a : Nat) : State :=
  { s with fw := { s.fw with blocks := s.fw.blocks.filter fun b => decide (b.1 ≠ a) } }

/-! ### Bank switches (R32 to R35) -/

/-- Whether a switch of the table is pending. -/
def State.switchPending (s : State) (t : Table) : Bool := bit (s.reg (t.group + 0x18)) 1

/-- OLD_FREE. -/
def State.oldFree (s : State) (t : Table) : Bool := bit (s.reg (t.group + 0x18)) 2

/-- An ignored request or base write: BUSY_ERR and the EXT page's first-error capture (R35). -/
def State.busyErr (s : State) (t : Table) (off : Nat) (value : Word) (cycle : Nat) : State :=
  let s := s.setFld (t.group + 0x18) 3 3 1
  s.capture .ext 0 { cycle := some cycle, addr := BitVec.ofNat 64 t.num, d0 := BitVec.ofNat 64 (off % 4096), d1 := value }

/-- The tick at which a switch asked for tick `want` takes effect (R32, R33). -/
def State.switchTick (s : State) (t : Table) (want : Nat) : Nat :=
  let least := tadd s.tick (if t = .slt then 4097 else 2)
  if later least want then least else want

/-- Firmware's own switch of a table it writes: SWITCH_TICK I + 2 and SWITCH_REQ (R32, R55). -/
def State.fwSwitch (s : State) (t : Table) : State :=
  let o := t.group + 0x18
  s.setReg o (setBits (setBits (s.reg o) 63 16 (s.switchTick t (tadd s.tick 2))) 1 1 1)

end Sys2Proof.Machine
end

