-- ==== Sys2Proof/Machine/Ledger.lean ====
section
/-! DEFINITION. Budgets of a tick: capacities (R70, R83 to R91, R514), Sluice segments and egress (R88, R355 to R364),
leases between tiles in three horizons (R95 to R98), claims, and the reasons of R100. -/

namespace Sys2Proof.Machine

/-! ### Sluice lists in time (R357 to R361) -/

/-- Cycle length of a list. -/
def SluiceList.cycle (l : SluiceList) : Nat := (l.entries.map (·.2)).sum

/-- Gates at offset `o` of the cycle, ns left in the entry, and the entry's number. -/
def gatesFrom : List (Byte × Nat) → Nat → Nat → Byte × Nat × Nat
  | [], _, _ => (0xFF, 1, 0)
  | (g, d) :: r, o, i => if o < d then (g, d - o, i) else gatesFrom r (o - d) (i + 1)

/-- Where network time `t` stands in the list's cycle, and the ns left of that cycle: cycles begin at every t with
(t − PHASE_NS) mod CYCLE_NS = 0 (R359); the first cycle after a switch begins with entry 0 at Z and ends at the next of those
times (R361; log 42). -/
def SluiceList.place (l : SluiceList) (t : Nat) : Nat × Nat :=
  let c := l.cycle
  let o := (t + c - l.phase % c) % c
  match l.z with
  | some z =>
    let oz := (z + c - l.phase % c) % c
    if z ≤ t ∧ oz ≠ 0 ∧ t < z + (c - oz) then (t - z, z + (c - oz) - t) else (o, c - o)
  | none => (o, c - o)

/-- Gates of the list at network time `t`, the ns until its next entry boundary, and the running entry; a list not in force
holds every service open (R357). -/
def SluiceList.at' (l : SluiceList) (t : Nat) : Byte × Nat × Nat :=
  if l.inForce && decide (0 < l.cycle) then
    let pl := l.place t
    let g := gatesFrom l.entries pl.1 0
    (g.1, min g.2.1 pl.2, g.2.2)
  else (0xFF, 2 ^ 40, 0)

/-- First cycle boundary at or after `t` (R361): `t` itself without a cycle. -/
def SluiceList.nextCycle (l : SluiceList) (t : Nat) : Nat :=
  if l.inForce && decide (0 < l.cycle) then
    let pl := l.place t
    if pl.1 = 0 then t else t + pl.2
  else t

/-- The scheduler of a port. -/
def State.sched (s : State) (p : Nat) : Sched := sget (fun _ => ({} : Sched)) s.fab.scheds p

/-- Replace a port's scheduler. -/
def State.setSched (s : State) (p : Nat) (c : Sched) : State :=
  { s with fab := { s.fab with scheds := sset (fun _ => ({} : Sched)) s.fab.scheds p c } }

/-- The link engine of a port. -/
def State.link (s : State) (p : Nat) : Link := sget (fun _ => ({} : Link)) s.fab.links p

/-- Replace a port's link engine. -/
def State.setLink (s : State) (p : Nat) (l : Link) : State :=
  { s with fab := { s.fab with links := sset (fun _ => ({} : Link)) s.fab.links p l } }

/-- Tick `u` comes after the one that holds Z; an instant at which a tick begins belongs to the tick before (R359, R361). -/
def State.afterZ (s : State) (z u : Nat) : Bool := later u (tsub (cdiv z s.periodNs % tickMod) 1)

/-- The lists that bound step 2 on port `p` in tick `u` (R361): before S the old one, from S to the tick of Z both, then
the new one. -/
def State.listsFor (s : State) (p u : Nat) : List SluiceList :=
  let c := s.sched p
  match c.next, c.z with
  | some n, some z =>
    if later c.sTick u then [c.list]
    else if s.afterZ z u then [n]
    else [c.list, n]
  | _, _ => match c.prev with
    | some (l, z) => if s.afterZ z u then [c.list] else [l, c.list]
    | none => [c.list]

/-- A segment (R362): its start in the tick, its length and its open gates. -/
structure Seg where
  start : Nat
  len : Nat
  gates : Byte
deriving DecidableEq, Repr

/-- Cut the time from `t` to `stop` at the entry boundaries of every list; a service is open when all lists open it. -/
def cutSegs (ls : List SluiceList) (t0 : Nat) : Nat → Nat → Nat → List Seg
  | 0, _, _ => []
  | f + 1, t, stop =>
    if stop ≤ t then []
    else
      let gs := ls.map (·.at' t)
      let g := gs.foldl (fun a x => a &&& x.1) 0xFF
      let n := gs.foldl (fun a x => min a x.2.1) (stop - t)
      let n := max 1 n
      ⟨t - t0, n, g⟩ :: cutSegs ls t0 f (t + n) stop

/-- Segments of port `p` in tick `u` (R362). -/
def State.segs (s : State) (p u : Nat) : List Seg :=
  let t := u * s.periodNs
  cutSegs (s.listsFor p u) t 1024 t (t + s.periodNs)

/-- Whether service `v` is open in the gates; service 7 has no gate (R357). -/
def gateOpen (g : Byte) (v : Nat) : Bool := decide (v = 7) || g.getLsbD v

/-! ### Gates over a time (R361, R367) -/

/-- Time of `n` blocks at width `w`, in whole ns (R326). -/
def blockNs (w n : Nat) : Nat := cdiv (n * 256) (25 * max 1 w)

/-- The gate of service `v` stays open from `t` for `d` ns. -/
def SluiceList.openFor (l : SluiceList) (v : Nat) : Nat → Nat → Nat → Bool
  | 0, _, _ => true
  | f + 1, t, d =>
    let g := l.at' t
    gateOpen g.1 v && (decide (d ≤ g.2.1) || SluiceList.openFor l v f (t + g.2.1) (d - g.2.1))

/-- The gate of service `v` on a port stays open from `t` for `d` ns, across the instant at which the port changes lists. -/
def Sched.openFor (c : Sched) (v t d : Nat) : Bool :=
  let cross := fun (a b : SluiceList) (z : Nat) =>
    if z ≤ t then b.openFor v 1024 t d
    else if t + d ≤ z then a.openFor v 1024 t d
    else a.openFor v 1024 t (z - t) && b.openFor v 1024 z (t + d - z)
  match c.next, c.z, c.prev with
  | some n, some z, _ => cross c.list n z
  | _, _, some (l, z) => cross l c.list z
  | _, _, _ => c.list.openFor v 1024 t d

/-! ### Port figures -/

/-- LNK_STATE.STATE of a port. -/
def State.linkState (s : State) (p : Nat) : Nat := s.fld (rOff .lnk p 0x210) 2 0

/-- VC count of a port in UP, at least 1. -/
def State.portVcs (s : State) (p : Nat) : Nat :=
  match s.fld (rOff .lnk p 0x210) 15 14 with
  | 1 => 2 | 2 => 4 | 3 => 8 | _ => 1

/-- Width of a port in lanes, from LNK_STATE. -/
def State.linkWidth (s : State) (p : Nat) : Nat :=
  match s.fld (rOff .lnk p 0x210) 5 4 with
  | 1 => 2 | 2 => 4 | 3 => 8 | _ => 0

/-- Blocks per tick at the port's width (R88, R355, R326). -/
def State.portBlocks (s : State) (p : Nat) : Nat := s.periodNs * 25 * s.linkWidth p / 256

/-- REPLY_PER_US of the port's tile, at least 64 (R310, R322). -/
def State.replyPerUs (s : State) (p : Nat) : Nat := max 64 (s.fld (rOff .rtr (p / 8) 0x210) 15 0)

/-- FILTER_PER_US, at most half of REPLY_PER_US. -/
def State.filterPerUs (s : State) (p : Nat) : Nat := min (s.replyPerUs p / 2) (s.fld (rOff .rtr (p / 8) 0x210) 31 16)

/-- LNK_CFG in force: as the last TRAIN, RETRAIN or INIT took it (R351). -/
def State.linkCfg (s : State) (p : Nat) : Word := (s.link p).cfg.getD (s.reg (rOff .lnk p 0x200))

/-- REPLAY_PER_US of the port (R337, R351). -/
def State.replayPerUs (s : State) (p : Nat) : Nat := max 1 (min 64 (bits (s.linkCfg p) 51 44))

/-- A rate per µs over one tick, rounded down. -/
def State.perTick (s : State) (perUs : Nat) : Nat := perUs * s.tim.periodQ / 4

/-- The part of F that the registers set, before the port's own blocks bound it (R355). -/
def State.floorNow (s : State) (p : Nat) : Nat :=
  s.perTick (max (min 781 (s.fld (rOff .sch (p / 8) (0x200 + p % 8 * 8)) 9 0)) (s.replyPerUs p + s.replayPerUs p))

/-- The value a change log (key tick times 64 plus item) held at tick `b`, `d` before the first entry. -/
def logAt (l : SMap Nat) (item b d : Nat) : Nat :=
  ((l.foldl (fun (a : Option (Nat × Nat)) e =>
    if e.1 % 64 = item ∧ tle (e.1 / 64) b = true then
      match a with
      | some x => if later (e.1 / 64) x.1 then some (e.1 / 64, e.2) else a
      | none => some (e.1 / 64, e.2)
    else a) none).map (·.2)).getD d

/-- The oldest value of an item of a change log. -/
def logFirst (l : SMap Nat) (item : Nat) : Option Nat :=
  (l.foldl (fun (a : Option (Nat × Nat)) e =>
    if e.1 % 64 = item then
      match a with
      | some x => if later x.1 (e.1 / 64) then some (e.1 / 64, e.2) else a
      | none => some (e.1 / 64, e.2)
    else a) none).map (·.2)

/-- F of port `p` in tick `u`: the floor set when `u` entered the far horizon (R372), and at most the port's blocks at the width
in force (R326, R355). -/
def State.floorAt (s : State) (p u : Nat) : Nat :=
  min (s.portBlocks p) (logAt s.adm.floors p (tsub u 4096) ((logFirst s.adm.floors p).getD (s.floorNow p)))

/-- Thermal level that scales tick `u` (R514): LEVEL at the boundary at which `u` entered the far horizon. -/
def State.throttleAt (s : State) (u : Nat) : Nat := logAt s.adm.throttle 0 (tsub u 4096) 0

/-- Blocks admitted into a segment (R362). -/
def State.segBlocks (s : State) (p u : Nat) (σ : Seg) : Nat :=
  let f := s.floorAt p u
  σ.len * 25 * s.linkWidth p / 256 - cdiv (f * σ.len) s.periodNs - 68

/-- Usable blocks of service `v` on port `p` in tick `u` (R88). -/
def State.svcBlocks (s : State) (p u v : Nat) : Nat :=
  let sg := s.segs p u
  let openNs := ((sg.filter fun x => gateOpen x.gates v).map (·.len)).sum
  let after := (s.listsFor p (tadd u 1)).foldl (fun a l => a &&& (l.at' ((u + 1) * s.periodNs)).1) (0xFF : Byte)
  let gs := sg.map (·.gates) ++ [after]
  let edges := ((gs.zip (gs.drop 1)).filter fun g => gateOpen g.1 v && !gateOpen g.2 v).length
  openNs * 25 * s.linkWidth p / 256 - 34 * edges - s.floorAt p u

/-- Weir cap of a context on a port: none when WEIR_BPUS is 0 (R353, R364). -/
def State.weirCap (s : State) (c : Ctxt) : Option Nat :=
  let w := bits (c.sub.headD 0) 31 16
  if w = 0 then none else some (s.perTick w)

/-! ### Capacities (R70, R514) -/

/-- Sense frame length S_t and sector transfer time X_t in ticks (R70's table). -/
def State.senseTicks (s : State) : Nat := cdiv 120 s.tim.periodQ
/-- X_t. -/
def State.xferTicks (s : State) : Nat := cdiv 8 s.tim.periodQ

/-- Retry-after of a PREFETCH refusal in tick `t` (R93). -/
def State.prefetchRetry (s : State) (t : Nat) : Nat := tadd t (s.senseTicks + s.xferTicks + 2)

/-- BULK_MAX_RATE in force (R103). -/
def State.bulkRate (s : State) (tile : Nat) : Nat := min 65536 (max 64 (s.fld (rOff .hdg tile 0x208) 47 0))

/-- The tile that owns an instance (R95). -/
def Res.owner : Res → Nat
  | .hbm st _ => st / 6 | .sense d => d / 128 | .chan c => c / 16 | .engine c => c / 32 | .thread c => c / 32
  | .confCore c => c / 32 | .confTile t => t | .confColl t => t | .mergeTile t => t | .mergeColl t => t
  | .link a _ => a | .seg p _ => p / 8 | .svc p _ => p / 8 | .weir p _ => p / 8 | .walk t => t
  | .batch t => t | .index t => t | .dirty t => t

/-- Budget class (HDG_SHARE_SEL, R103). -/
def Res.cls : Res → Nat
  | .hbm .. => 0 | .sense _ => 1 | .chan _ => 2 | .engine _ => 3 | .thread _ => 3 | .index _ => 3 | .batch _ => 3
  | .confCore _ => 4 | .confTile _ => 4 | .confColl _ => 4 | .mergeTile _ => 4 | .mergeColl _ => 4
  | .link .. => 5 | .seg .. => 6 | .svc .. => 6 | .weir .. => 6 | .walk _ => 7 | .dirty _ => 0

/-- Reason code of a shortfall (R100). -/
def Res.reason : Res → Nat
  | .hbm .. => 1 | .sense _ => 2 | .chan _ => 3 | .engine _ => 4 | .index _ => 4 | .thread _ => 8 | .batch _ => 8
  | .confCore _ => 5 | .confTile _ => 5 | .confColl _ => 5 | .mergeTile _ => 5 | .mergeColl _ => 5
  | .seg .. => 6 | .svc .. => 6 | .weir .. => 6 | .link .. => 7 | .walk _ => 9 | .dirty _ => 10

/-- N × (8 − L) / 8 (R514). -/
def State.throttled (s : State) (n u : Nat) : Nat := n * (8 - min 7 (s.throttleAt u)) / 8

/-- Capacity of an instance in tick `u`. Weir caps are given with the claim, so their capacity here is unbounded. -/
def State.capacity (s : State) (r : Res) (u : Nat) : Nat :=
  let q := s.tim.periodQ
  match r with
  | .hbm .. => s.throttled (20 * q) u
  | .sense d => if s.tier.ebbBook.any (fun e => decide (e.1 = d * tickMod + u)) then 0 else 1
  | .chan _ => s.throttled (512 * q) u
  | .engine _ => s.throttled (6400 * q) u
  | .thread _ => 16384
  | .confCore _ => 128 * q
  | .confTile _ => 128 * q
  | .confColl _ => 128 * q
  | .mergeTile _ => 819200 * q
  | .mergeColl _ => 819200 * q
  | .link .. => 480000 * q
  | .seg p i => match (s.segs p u)[i]? with
    | some σ => s.segBlocks p u σ
    | none => 0
  | .svc p v => s.svcBlocks p u v
  | .weir .. => 2 ^ 40
  | .walk _ => 8 * q
  | .batch _ => 2048
  | .index _ => 32 * s.throttled (6400 * q) u
  | .dirty t => s.fld (rOff .hdg t 0x240) 31 0

/-! ### Shares (R96 to R98) -/

/-- The shares of owner `o` for class `c` at boundary `b`, in sixty-fourths to tiles 0 to 3. -/
def State.sharesAt (s : State) (b o c : Nat) : List Nat := sget (fun _ => [16, 16, 16, 16]) s.adm.shareLog ((b * 4 + o) * 8 + c)

/-- Shares from one tick's demand (R97): max(MIN_SHARE, ⌊64 D/ΣD⌋) to each other tile; the largest gives up any excess over
64, of the lowest tile among equals; the owner keeps the rest. -/
def splitShares (o minShare : Nat) (d : List Nat) : List Nat :=
  let tot := d.sum
  if tot = 0 then [16, 16, 16, 16]
  else
    let raw := (List.range 4).map fun b => if b = o then 0 else max minShare (64 * d.getD b 0 / tot)
    let excess := raw.sum - 64
    let big := raw.foldl max 0
    let who := raw.findIdx (· = big)
    let raw := raw.zipIdx.map fun x => if x.2 = who then x.1 - excess else x.1
    raw.zipIdx.map fun x => if x.2 = o then 64 - raw.sum else x.1

/-- Shares when FIXED is set: FIXED_SHARE, at most 4, in units of 4/64 to each other tile (R97, R103). -/
def fixedShares (o f : Nat) : List Nat :=
  let x := 4 * min 4 f
  (List.range 4).map fun b => if b = o then 64 - 3 * x else x

/-- Units of `n` that a share list gives tile `h`: ⌊N f / 64⌋, the owner keeping the rest (R97). -/
def partOf (o h : Nat) (sh : List Nat) (n : Nat) : Nat :=
  let f := fun b => n * sh.getD b 0 / 64
  if h = o then n - (((List.range 4).filter (· ≠ o)).map f).sum else f h

/-- The two claims compared are of one divided instance: an HBM pseudo-channel, or in the far horizon a whole stack (R95). -/
def sameInst (far : Bool) : Res → Res → Bool
  | .hbm a p, .hbm b q => decide (a = b) && (far || decide (p = q))
  | a, b => decide (a = b)

/-- Units of `r` in tick `u` claimed by requests under a condition on (holder, made). -/
def State.claimed (s : State) (far : Bool) (r : Res) (u : Nat) (p : Nat → Nat → Bool) : Nat :=
  ((s.adm.claims.filter fun c => decide (c.use' = u) && sameInst far c.res r && p c.holder c.made).map (·.units)).sum

/-- Where a tick of use `u` stands at tick `t`: the boundary at which its present split was made, and whether that is the
far horizon (R95). The ticks up to T + 3 have the split of boundary T; so has T itself for thread slots (DESIGN CHOICE, log 140: R95 names
no split for the present tick). -/
def splitTick (t u : Nat) : Nat × Bool :=
  let d := tsub u t
  if d ≤ 3 then (t, false) else if d ≤ 48 then (tsub u 48, false) else (tsub u 4096, true)

/-- The sense frames of owner `o` that start in tick `u` and were unclaimed at boundary `b`, listed from local die u mod 128
(R73, R97). -/
def State.frameList (s : State) (o u b : Nat) : List Nat :=
  ((List.range 128).map fun i => 128 * o + (u + i) % 128).filter fun d =>
    decide ((u + s.senseTicks - d % s.senseTicks) % s.senseTicks = 0) &&
    decide (s.capacity (.sense d) u = 1) &&
    decide (s.claimed false (.sense d) u (fun _ made => later b made) = 0)

/-- The tile that holds the frame of die `d` starting in `u` under the split of boundary `b` (R97). -/
def State.frameHolder (s : State) (d u b : Nat) : Option Nat :=
  let o := d / 128
  let l := s.frameList o u b
  let sh := s.sharesAt b o 1
  let m := l.length
  let i := l.findIdx (· = d)
  if m ≤ i then none
  else
    let others := [(o + 1) % 4, (o + 2) % 4, (o + 3) % 4]
    let r := others.foldl (fun (a : Nat × Option Nat) x =>
      let n := m * sh.getD x 0 / 64
      match a.2 with
      | some _ => a
      | none => if i < a.1 + n then (a.1, some x) else (a.1 + n, none)) (0, none)
    some (r.2.getD o)

/-- What is left to tile `h` of instance `r` in tick `u` (R95, R98): its part of the split in force, less what it has claimed
of that part. Own-tile figures (batch slots, index cycles, dirty grant) are not divided. -/
def State.left (s : State) (h : Nat) (r : Res) (u : Nat) (cap : Option Nat) : Nat :=
  let t := s.tick
  let sp := splitTick t u
  let far := sp.2
  let n := cap.getD (s.capacity r u)
  match r with
  | .sense d =>
    if s.claimed false r u (fun _ _ => true) = 0 ∧ s.frameHolder d u sp.1 = some h then 1 else 0
  | .batch _ => n - s.claimed false r u (fun _ _ => true)
  | .dirty _ => n - s.claimed false r u (fun _ _ => true)
  | .index tl =>
    n - s.claimed false r u (fun _ _ => true) -
      ((s.adm.claims.filter fun c => decide (c.use' = u) && (match c.res with
        | .engine k => decide (k / 32 = tl)
        | _ => false)).map (·.units)).sum
  | _ =>
    let o := r.owner
    let full := match r with
      | .hbm .. => if far then 64 * n else n
      | _ => n
    let free := full - s.claimed far r u (fun _ made => later sp.1 made)
    let mine := partOf o h (s.sharesAt sp.1 o r.cls) free
    mine - s.claimed far r u (fun hh made => decide (hh = h) && tle sp.1 made)

/-! ### Demand maps -/

/-- One entry of a demand map: units of an instance in a tick, with a cap of its own for Weir entries. -/
structure Need where
  res : Res
  use' : Nat
  units : Nat
  cap : Option Nat := none
deriving DecidableEq, Repr

/-- Merge entries of one instance and tick. -/
def mergeNeeds : List Need → List Need → List Need
  | acc, [] => acc
  | acc, n :: r =>
    if n.units = 0 then mergeNeeds acc r
    else if acc.any (fun a => decide (a.res = n.res ∧ a.use' = n.use')) then
      mergeNeeds (acc.map fun a => if a.res = n.res ∧ a.use' = n.use' then { a with units := a.units + n.units } else a) r
    else mergeNeeds (acc ++ [n]) r

/-- The entries of a merged map that do not fit the room given (R81), seen in tick `t`. In the far horizon the pseudo-channels of one
stack are compared together (R95). -/
def shortIn (room : Res → Nat → Option Nat → Nat) (t : Nat) (ns : List Need) : List Need :=
  ns.filter fun n =>
    let far := (splitTick t n.use').2
    let want := match n.res with
      | .hbm st _ => if far then ((ns.filter fun m => decide (m.use' = n.use') && (match m.res with
          | .hbm st' _ => decide (st' = st)
          | _ => false)).map (·.units)).sum else n.units
      | _ => n.units
    decide (room n.res n.use' n.cap < want)

/-- The entries of a merged map that do not fit the parts of tile `h` (R81). -/
def State.short (s : State) (h : Nat) (ns : List Need) : List Need := shortIn (s.left h) s.tick ns

/-- The room of an idle device, all of it one Headgate's (R75; log 149). -/
def State.idleRoom (s : State) (r : Res) (u : Nat) (cap : Option Nat) : Nat :=
  let n := cap.getD (s.capacity r u)
  match r with
  | .hbm .. => if (splitTick s.tick u).2 then 64 * n else n
  | _ => n

/-- The lowest reason among entries (R100), 0 for none. -/
def leastReason (ns : List Need) : Nat :=
  ns.foldl (fun a n => if a = 0 ∨ n.res.reason < a then n.res.reason else a) 0

/-- Add to the demand that tile `h` reports to an owner for a class (R96). -/
def State.addDemand (s : State) (h o c n : Nat) : State :=
  let k := (o * 8 + c) * 4 + h
  { s with adm := { s.adm with demand := sset (fun _ => 0) s.adm.demand k (sget (fun _ => 0) s.adm.demand k + n) } }

/-- Whether a resource is divided between tiles (R95). -/
def Res.leased : Res → Bool
  | .batch _ | .index _ | .dirty _ => false
  | _ => true

/-- Make the reservations of a merged map for request `rid` of tile `h` (R81, R96). -/
def State.reserve (s : State) (h rid : Nat) (ns : List Need) : State :=
  let s := { s with adm := { s.adm with claims := s.adm.claims ++ ns.map fun n => ⟨n.res, n.use', h, rid, n.units, s.tick, none⟩ } }
  ns.foldl (fun s n => if n.res.leased then s.addDemand h n.res.owner n.res.cls n.units else s) s

/-- Count a refused map in the demand reports: the units of every class and owner that fell short (R96); drain lines refused with
reason `least` = DIRTY count for the grant of R230. -/
def State.refusedDemand (s : State) (h : Nat) (ns bad : List Need) (least : Nat) : State :=
  let isDirty := fun (n : Need) => match n.res with
    | .dirty _ => true
    | _ => false
  let s := if least = 0xA then
      let n := ((ns.filter isDirty).map (·.units)).sum
      { s with adm := { s.adm with dirtyRefused := sset (fun _ => 0) s.adm.dirtyRefused h (sget (fun _ => 0) s.adm.dirtyRefused h + n) } }
    else s
  ns.foldl (fun s n =>
    if n.res.leased && bad.any (fun b => decide (b.res.owner = n.res.owner ∧ b.res.cls = n.res.cls)) then
      s.addDemand h n.res.owner n.res.cls n.units else s) s

/-- Release the claims of a request in ticks after the present one: they rejoin their part while its split is in force, and
return to the owner at the next boundary otherwise (R98). -/
def State.releaseAfter (s : State) (rid : Nat) : State :=
  let t := s.tick
  let cs := s.adm.claims.filterMap fun c =>
    if decide (c.rid = rid) && later c.use' t then
      (if tle (splitTick t c.use').1 c.made then none else some { c with rid := 0, freed := some t })
    else some c
  { s with adm := { s.adm with claims := cs } }

/-- Capacity given up after its split had ended is the owner's again once the tick of use has been split anew (R98). -/
def State.returnFreed (s : State) : State :=
  { s with adm := { s.adm with claims := s.adm.claims.filter fun c => match c.freed with
    | some f => !(later (splitTick s.tick c.use').1 f)
    | none => true } }

/-- Drop every claim of a request (its work is discarded or done). -/
def State.dropClaims (s : State) (rid : Nat) : State :=
  { s with adm := { s.adm with claims := s.adm.claims.filter fun c => decide (c.rid ≠ rid) } }

/-! ### Egress placement (R363) -/

/-- Blocks of segment `i` already taken in this placement. -/
def takenIn (got : List (Nat × Nat)) (i : Nat) : Nat := ((got.filter fun g => decide (g.1 = i)).map (·.2)).sum

/-- Place packets of the given block counts, in order, each whole into the earliest open segment at or after its
predecessor's that has the blocks left in the room given (R363). -/
def State.placeIn (room : Res → Nat → Option Nat → Nat) (s : State) (p u v : Nat) :
    List Nat → Nat → List (Nat × Nat) → Option (List (Nat × Nat))
  | [], _, got => some got
  | n :: r, from', got =>
    let sg := s.segs p u
    match sg.zipIdx.find? (fun x => decide (from' ≤ x.2) && gateOpen x.1.gates v &&
        decide (n + takenIn got x.2 ≤ room (.seg p x.2) u none)) with
    | some x => State.placeIn room s p u v r x.2 (got ++ [(x.2, n)])
    | none => none

/-- Place packets in the blocks left to tile `h`. -/
def State.placeEgress (s : State) (h p u v : Nat) (ns : List Nat) (from' : Nat) (got : List (Nat × Nat)) : Option (List (Nat × Nat)) :=
  State.placeIn (s.left h) s p u v ns from' got

/-- Egress needs of placed packets: their segments, the service's usable blocks and the Weir cap (R88, R363, R364). -/
def State.egressNeeds (s : State) (p u v ctx : Nat) (c : Ctxt) (got : List (Nat × Nat)) : List Need :=
  let tot := (got.map (·.2)).sum
  (got.map fun g => (⟨.seg p g.1, u, g.2, none⟩ : Need)) ++ [⟨.svc p v, u, tot, none⟩] ++
    (match s.weirCap c with
     | some k => [⟨.weir p ctx, u, tot, some k⟩]
     | none => [])

/-- Unreserved egress blocks of a port in a tick, for the choice of R130. -/
def State.egressFree (s : State) (p u : Nat) : Nat :=
  ((s.segs p u).map fun σ => s.segBlocks p u σ).sum -
    ((s.adm.claims.filter fun c => decide (c.use' = u) && (match c.res with
      | .seg q _ => decide (q = p)
      | _ => false)).map (·.units)).sum

/-- Whether a port is enabled by the licence and its link is up (R130, R326). -/
def State.portUp (s : State) (p : Nat) : Bool :=
  decide (s.fld 0x1208 31 0 / 2 ^ p % 2 = 1) && decide (s.linkState p = 4)

/-- The egress port of R130: among the enabled, linked candidates the one with most unreserved blocks, the earlier on a tie;
a link that came up in this tick counts from the next (R326). -/
def State.egressPort (s : State) (r : Rtt) (u : Nat) : Option Nat :=
  if !r.valid then none
  else
    let ok := r.cands.filter fun p => s.portUp p && decide ((s.link p).upSince ≠ s.tick + 1)
    (ok.foldl (fun (a : Option (Nat × Nat)) p =>
      let n := s.egressFree p u
      match a with
      | some b => if b.2 < n then some (p, n) else a
      | none => some (p, n)) none).map (·.1)

/-- The egress port toward an EID under the active routes; the EID that names no endpoint has none, and its entry is never read (R130, R298). -/
def State.portTo (s : State) (eid : BitVec 20) (u : Nat) : Option Nat :=
  if eid = 0xFFFFF then none else s.egressPort (s.rtt (s.activeBank .rtt) eid.toNat) u

end Sys2Proof.Machine
end

