-- ==== Sys2Proof/Machine/Lines.lean ====
section
/-! DEFINITION. Lines of the pool: frames and line states (R210 to R216), the line check, repair from mirrors and repair
queues (R252 to R258), key checks (R57) and the writes of R253 and R254. -/

namespace Sys2Proof.Machine

/-! ### The device in force (R1, R2, R491) -/

/-- VARIANT of LIC_STATE: 0 none, 1 A, 2 T, 3 C. -/
def State.variant (s : State) : Nat := s.fld 0x1200 1 0
/-- The variant has the flash tier. -/
def State.hasFlash (s : State) : Bool := bit (s.reg 0x1200) 5
/-- The variant allows coherent domains. -/
def State.hasCoh (s : State) : Bool := bit (s.reg 0x1200) 6
/-- The variant allows Assured extents. -/
def State.hasAssured (s : State) : Bool := bit (s.reg 0x1200) 7
/-- FW_STAGING in force. -/
def State.hasStaging (s : State) : Bool := bit (s.reg 0x1200) 9
/-- TELEMETRY in force. -/
def State.hasTelemetry (s : State) : Bool := bit (s.reg 0x1200) 8

/-! ### Frames -/

/-- PFT entry of a parcel. -/
def State.pftOf (s : State) (p : Nat) : Pft := sget (fun _ => ({} : Pft)) s.tier.pft p

/-- Write a PFT entry. -/
def State.setPft (s : State) (p : Nat) (v : Pft) : State :=
  { s with tier := { s.tier with pft := sset (fun _ => ({} : Pft)) s.tier.pft p v } }

/-- FHT entry of a frame. -/
def State.fhtOf (s : State) (f : Nat) : Fht := sget (fun _ => ({} : Fht)) s.tier.fht f

/-- Write an FHT entry. -/
def State.setFht (s : State) (f : Nat) (v : Fht) : State :=
  { s with tier := { s.tier with fht := sset (fun _ => ({} : Fht)) s.tier.fht f v } }

/-- Stored line state of a frame's line; the key is also the physical line number. -/
def State.lsmOf (s : State) (ln : Nat) : LineSt := sget (fun _ => LineSt.absent) s.tier.lsm ln

/-- Write a line state. -/
def State.setLsm (s : State) (ln : Nat) (v : LineSt) : State :=
  { s with tier := { s.tier with lsm := sset (fun _ => LineSt.absent) s.tier.lsm ln v } }

/-- The frame of a parcel. -/
def State.frameOf (s : State) (p : Nat) : Option Nat := let e := s.pftOf p; if e.has then some e.frame else none

/-- Physical line of a parcel's line, when the parcel has a frame. -/
def State.lineAt (s : State) (p l : Nat) : Option Nat := (s.frameOf p).map fun f => f * 8192 + l

/-- Whether a line is resident (R212); without flash every line of a framed parcel is (R220). -/
def State.resident (s : State) (p l : Nat) : Bool :=
  match s.lineAt p l with
  | some ln => !s.hasFlash || decide (s.lsmOf ln ≠ .absent)
  | none => false

/-- DIRTY or CLEANING. -/
def LineSt.unclean : LineSt → Bool
  | .dirty | .cleaning => true
  | _ => false

/-- Change a line's state and keep DIRTY_LINES and FIRST_DIRTY of its frame (R211). -/
def State.moveLine (s : State) (ln : Nat) (v : LineSt) : State :=
  let old := s.lsmOf ln
  let f := ln / 8192
  let h := s.fhtOf f
  let d := h.dirtyLines + b2n v.unclean - b2n old.unclean
  let h := { h with dirtyLines := d, firstDirty := if h.dirtyLines = 0 ∧ d ≠ 0 then s.tick else h.firstDirty }
  (s.setFht f h).setLsm ln v

/-- Frames of a stack that no parcel, mirror, directory or repair map holds (R40, R211). -/
def State.frameFree (s : State) (f : Nat) : Bool :=
  decide (s.firstFrame (f / 32768) ≤ f % 32768) && !(s.tier.retired.contains f) &&
    decide (s.fhtOf f = ({} : Fht)) && decide (f / 32768 < 24)

/-- Pool frames of a stack: the indices from the first one up, less the retired ones among them (R40). -/
def State.stackFrames (s : State) (st : Nat) : Nat :=
  32768 - s.firstFrame st - (s.tier.retired.dedup.filter fun f => decide (f / 32768 = st ∧ s.firstFrame st ≤ f % 32768)).length

/-- Free frames of a stack: usable ones less those with an FHT entry. -/
def State.freeFrames (s : State) (st : Nat) : Nat :=
  s.stackFrames st - (s.tier.fht.filter fun e => decide (e.1 / 32768 = st)).length

/-- A free frame of a stack: firmware's or the tier manager's choice where it is free, else the lowest free one (log 4). -/
def State.takeFrame (s : State) (st : Nat) : Option Nat × State :=
  let s' := { s with fresh := s.fresh + 1 }
  if s.freeFrames st = 0 then (none, s')
  else
    let prop := st * 32768 + Config.frameChoice s.fresh % 32768
    if s.frameFree prop then (some prop, s')
    else ((((List.range 32768).map fun i => st * 32768 + i).find? fun f => s.frameFree f), s')

/-- The mirror stack of R26. -/
def mirrorStack (st : Nat) : Nat := st / 6 * 6 + (st % 6 + 3) % 6

/-- Give a parcel a frame on its home stack, with a mirror for an Assured one (R213); none when a pool is empty. -/
def State.giveFrame (s : State) (p st : Nat) (assured : Bool) (hold : Nat) (kind : FrameSt) : Option State :=
  match s.takeFrame st with
  | (none, _) => none
  | (some f, s) =>
    let base : Fht := { st := kind, assured := assured, parcel := p, holdUntil := hold }
    if assured then
      let s := s.setFht f base
      match s.takeFrame (mirrorStack st) with
      | (none, _) => none
      | (some m, s) =>
        let s := s.setFht f { base with mirrorFrame := m }
        let s := s.setFht m { st := .mirror, assured := true, parcel := p, mirrorFrame := f, holdUntil := hold }
        some (s.setPft p ⟨f, true⟩)
    else some ((s.setFht f base).setPft p ⟨f, true⟩)

/-- Zero the line states of a frame. -/
def State.clearLsm (s : State) (f : Nat) : State :=
  { s with tier := { s.tier with lsm := s.tier.lsm.filter fun e => decide (e.1 / 8192 ≠ f) } }

/-- Drop the queued rewrites of a frame's lines: the frame holds other data from here on (R257). -/
def State.dropFrameRepairs (s : State) (f : Nat) : State :=
  { s with hmc := { s.hmc with repairs := s.hmc.repairs.filter fun r => decide (r.line / 8192 ≠ f) } }

/-- Free the frame of a parcel with its mirror: HAS_FRAME clears and every line becomes ABSENT (R212, R215). -/
def State.freeFrame (s : State) (p : Nat) : State :=
  match s.frameOf p with
  | none => s
  | some f =>
    let h := s.fhtOf f
    let s := ((s.setPft p {}).setFht f {}).dropFrameRepairs f
    let s := if h.assured then (s.setFht h.mirrorFrame {}).dropFrameRepairs h.mirrorFrame else s
    s.clearLsm f

/-- Raise HOLD_UNTIL of a parcel's frame, and of its mirror when the request writes it (R214). -/
def State.holdParcel (s : State) (mirror : Bool) (p pct : Nat) : State :=
  match s.frameOf p with
  | none => s
  | some f =>
    let h := s.fhtOf f
    let s := s.setFht f { h with holdUntil := tmax pct h.holdUntil }
    if mirror && h.assured then
      let m := s.fhtOf h.mirrorFrame
      s.setFht h.mirrorFrame { m with holdUntil := tmax pct m.holdUntil }
    else s

/-- Set REF of a frame (R211). -/
def State.touch (s : State) (f : Nat) : State := s.setFht f { s.fhtOf f with ref := true }

/-- A probe hit sets REF of the parcel's frame (R211). -/
def State.hitParcel (s : State) (p : Nat) : State :=
  match s.frameOf p with
  | none => s
  | some f => s.touch f

/-! ### Slots of a pseudo-channel (R83, R84) -/

/-- A reserved share of R83 at the present period: floor(slots × P / 2). -/
def State.share (s : State) (n : Nat) : Nat := n * s.tim.periodQ / 8

/-- Slots of kind `k` (0 repair, 1 Ebb, 2 table fetch) used on a pseudo-channel in this tick. -/
def State.slotUsed (s : State) (k st pc : Nat) : Nat :=
  sget (fun _ => 0) s.adm.repairUsed ((k * 24 + st) * 64 + pc) + (if k = 2 then sget (fun _ => 0) s.fw.slots (st * 64 + pc) else 0)

/-- Use a slot. Log 84. -/
def State.useSlot (s : State) (k st pc : Nat) : State :=
  let i := (k * 24 + st) * 64 + pc
  let m := sset (fun _ => 0) s.adm.repairUsed i (sget (fun _ => 0) s.adm.repairUsed i + 1)
  { s with adm := { s.adm with repairUsed := m } }

/-- Host-die slots used on a pseudo-channel in this tick (R467). -/
def State.hostUsed (s : State) (st pc : Nat) : Nat := sget (fun _ => 0) s.hostUse (st * 64 + pc)

/-- Use a host-die slot. -/
def State.useHost (s : State) (st pc : Nat) : State :=
  { s with hostUse := sset (fun _ => 0) s.hostUse (st * 64 + pc) (s.hostUsed st pc + 1) }

/-- Slots of the reserved shares used on a pseudo-channel in this tick: those of repair, Ebb and table fetches, those taken where a share
left them unused (kind 3), and the host die's. -/
def State.slotsUsed (s : State) (st pc : Nat) : Nat :=
  s.slotUsed 0 st pc + s.slotUsed 1 st pc + s.slotUsed 2 st pc + s.slotUsed 3 st pc + s.hostUsed st pc

/-- A slot for a mirror read (R84, R256): repair share, then Ebb, then host die, then guard slack, which gives a slot or not
freely (log 3). -/
def State.repairSlot (s : State) (st pc : Nat) : Bool × State :=
  let spare := decide (s.slotsUsed st pc < s.share 4 + s.share 2 + s.share 8 + s.share 6)
  if spare && decide (s.slotUsed 0 st pc < s.share 4) then (true, s.useSlot 0 st pc)
  else if spare && decide (s.slotUsed 1 st pc < s.share 2) then (true, s.useSlot 1 st pc)
  else if spare && decide (s.hostUsed st pc < s.share 6) then (true, s.useHost st pc)
  else s.drawBool

/-- A slot of a reserved share that the tick leaves unused: the shares of repair, Ebb, host die and table fetches; guard slack
gives one or not freely (R217, R257, R268; log 3). -/
def State.spareSlot (s : State) (st pc : Nat) : Bool × State :=
  if s.slotsUsed st pc < s.share 4 + s.share 2 + s.share 8 + s.share 6 then (true, s.useSlot 3 st pc) else s.drawBool

/-- Whether a rewrite waits on a pseudo-channel (R257). -/
def State.rewriteWaits (s : State) (st pc : Nat) : Bool := s.hmc.repairs.any fun r => decide (r.stack = st ∧ r.pc = pc)

/-! ### The line check and its repair (R252, R255 to R257) -/

/-- Line `l` of parcel `p`, at physical line `ln`, fails its check in a primary frame, or in a mirror frame (`mir`). -/
def State.lineBad (s : State) (ln p l fmt : Nat) (mir : Bool) : Bool :=
  let m := s.meta' ln
  m.crcBad (poolTag p l) || decide (m.format.toNat ≠ fmt) || (m.mirror != mir)

/-- A line of a directory frame, or of its mirror, fails its check (R277; log 152). -/
def State.dirLineBad (s : State) (ln : Nat) (mir : Bool) : Bool :=
  let m := s.meta' ln
  decide (m.crcDelta ≠ 0) || decide (m.format ≠ 0) || (m.mirror != mir)

/-- The extent that a parcel belongs to. -/
def State.ownerOf (s : State) (p : Nat) : ParcelOwner := sget (fun _ => ({} : ParcelOwner)) s.tier.parcels p

/-- Whether the mirror serves a line (R254): DIRTY or CLEANING; a PINNED frame whose extent has reached PIN_DONE; no flash. -/
def State.mirrorServes (s : State) (ln : Nat) : Bool :=
  let h := s.fhtOf (ln / 8192)
  let x := (s.ownerOf h.parcel).ext
  h.assured && decide (h.st ≠ .mirror) &&
    (!s.hasFlash || (s.lsmOf ln).unclean ||
      (decide (h.st = .pinned) && (s.exttNow x).pinned && !(s.tier.pins.any fun j => decide (j.ext = x))))

/-- Queue a refetch of a line's group, merging with one that has not begun; a line already queued adds none and counts nothing (R257,
R217). -/
def State.queueRefetch (s : State) (p l : Nat) : State :=
  let g := l / 16
  let mine := fun (f : Fetch) => decide (f.parcel = p ∧ f.group = g ∧ f.refetch = true)
  if s.tier.fetches.any (fun f => mine f && f.lines.contains l) then s
  else
    let s := s.bump .hmc ((s.lineAt p l).getD 0 / 2 ^ 28) 0x138
    if s.tier.fetches.any (fun f => mine f && f.todo.isNone) then
      { s with tier := { s.tier with fetches := s.tier.fetches.map fun f => if mine f && f.todo.isNone then { f with lines := f.lines ++ [l] } else f } }
    else { s with tier := { s.tier with fetches := s.tier.fetches ++ [{ parcel := p, group := g, refetch := true, lines := [l], started := s.tick }] } }

/-- A write landed on a line: queued refetches of it are cancelled (R257). -/
def State.cancelRefetch (s : State) (p l : Nat) : State :=
  let fs := s.tier.fetches.map fun f =>
    if f.refetch = true ∧ f.parcel = p then { f with lines := f.lines.filter (· ≠ l), todo := f.todo.map fun t => t.filter (· ≠ l) } else f
  { s with tier := { s.tier with fetches := fs.filter fun f => !f.refetch || !f.lines.isEmpty } }

/-- A read of line `l` of parcel `p` that fails its check: counters and first-error capture of the HMC page (R252, R271, R439). -/
def State.noteCrcFail (s : State) (p l ln : Nat) : State :=
  let st := stackOf ln
  let o := s.ownerOf p
  let s := s.error .hmc st {
    evtBit := 0, code := 0x118, addr := ptrTo o.ext (o.index * 2 ^ 21 + l * 256), d0 := s.metaWord ln (poolTag p l),
    d1 := BitVec.ofNat 64 (s.lineCrc ln (poolTag p l)).toNat, d2 := BitVec.ofNat 64 (s.pcOf ln), d3 := BitVec.ofNat 64 l }
  if (s.meta' ln).crcBad (poolTag p l) then s else s.bump .hmc st 0x120

/-- The same for a directory line, which has no tag of its own (log 152): its address is its physical one. -/
def State.noteDirFail (s : State) (ln : Nat) : State :=
  let st := stackOf ln
  let s := s.error .hmc st {
    evtBit := 0, code := 0x118, addr := BitVec.ofNat 64 (ln * 256), d0 := s.metaWord ln 0,
    d1 := BitVec.ofNat 64 (s.lineCrc ln 0).toNat, d2 := BitVec.ofNat 64 (s.pcOf ln), d3 := BitVec.ofNat 64 (ln % 8192) }
  if (s.meta' ln).crcDelta = 0 then s.bump .hmc st 0x120 else s

/-- Who reads a line of the pool (R255, R258, R268): a requester, the Dredge on its own account, the Ebb, or the drain. -/
inductive Reader where
  | requester | dredge | ebb | drain
deriving DecidableEq, Repr

/-- A line is delivered to a requester with poison: counter and event (R252, R255, R271). -/
def State.deliverPoison (s : State) (who : Reader) (st : Nat) : State :=
  match who with
  | .requester => (s.bump .hmc st 0x140).raise .hmc st 1
  | _ => s

/-- How a mirror read ends: the mirror line serves, with its poison; it fails its check too; or no slot is left for it. -/
inductive MirrorRead where
  | serves (bytes : List Byte) (poison : Bool) | fails | noSlot
deriving DecidableEq, Repr

/-- The mirror read of a failed line `ln` (R255, R256): a repair slot on the mirror's pseudo-channel, which a drain needs not (R233), then the
check of the mirror line, of which `bad` gives the result and `note` the record of a failure. When it serves, a rewrite of `ln` from its data
is queued. -/
def State.tryMirror (s : State) (who : Reader) (ln mln : Nat) (bad : Bool) (note : State → State) : MirrorRead × State :=
  let mst := stackOf mln
  match (if who = .drain then (true, s) else s.repairSlot mst (s.pcOf mln)) with
  | (false, s) => (.noSlot, (s.bump .hmc mst 0x150).raise .hmc mst 2)
  | (true, s) =>
    let s := s.bump .hmc mst 0x100
    if bad then (.fails, (note s).bump .hmc mst 0x130)
    else
      let md := s.rdBs (mln * 256) 256
      let psn := (s.meta' mln).poison
      (.serves md psn, (s.bump .hmc (stackOf ln) 0x128).queueRepair ln (some (md, psn)))

/-- Read a line for a reader (R252, R255, R256, R258): its bytes and its poison. `ln` is its physical line, `p`, `l` the parcel and
line, `fmt` the extent's FORMAT. -/
def State.readFor (s : State) (who : Reader) (p l ln fmt : Nat) : List Byte × Bool × State :=
  let st := stackOf ln
  let m := s.meta' ln
  let data := s.rdBs (ln * 256) 256
  let s := s.bump .hmc st 0x100
  if s.lineBad ln p l fmt false then
    let s := s.noteCrcFail p l ln
    let otherwise := fun (s : State) =>
      let s := s.deliverPoison who st
      if s.hasFlash && decide (s.lsmOf ln = .clean) && decide (who ≠ .ebb ∧ who ≠ .drain) then (data, true, s.queueRefetch p l)
      else (data, true, s.queueRepair ln none)
    if s.mirrorServes ln then
      let mln := (s.fhtOf (ln / 8192)).mirrorFrame * 8192 + l
      match s.tryMirror who ln mln (s.lineBad mln p l fmt true) (fun s => s.noteCrcFail p l mln) with
      | (.serves bs psn, s) => (bs, psn, if psn then s.deliverPoison who st else s)
      | (.fails, s) => otherwise s
      | (.noSlot, s) => (data, true, s.deliverPoison who st)
    else otherwise s
  else if m.poison then (data, true, s.deliverPoison who st)
  else (data, false, s)

/-- Read a line that a requester wants. -/
def State.readLine (s : State) (p l ln fmt : Nat) : List Byte × Bool × State := s.readFor .requester p l ln fmt

/-- The check of a line of the host or control region that has been read: a failure is counted and captured, delivered with poison and its
rewrite with POISON 1 queued; a poisoned line is delivered with poison (R252, R255: as DIRTY with no mirror). Whether it failed. -/
def State.checkRegion (s : State) (who : Reader) (ln : Nat) : Bool × State :=
  let st := stackOf ln
  if s.regionLineBad ln then
    let s := s.error .hmc st (s.regionCrcInfo ln (s.pcOf ln))
    let s := if s.regionCrcBad ln then s else s.bump .hmc st 0x120
    (true, (s.deliverPoison who st).queueRepair ln none)
  else (false, if (s.meta' ln).poison then s.deliverPoison who st else s)

/-- Read a line of the host or control region. -/
def State.readRegionFor (s : State) (who : Reader) (ln : Nat) : List Byte × Bool × State :=
  let r := (s.bump .hmc (stackOf ln) 0x100).checkRegion who ln
  (s.rdBs (ln * 256) 256, r.1 || (s.meta' ln).poison, r.2)

/-- Read a line of the host or control region for a host-die access or the walker. -/
def State.readRegionLine (s : State) (ln : Nat) : List Byte × Bool × State := s.readRegionFor .requester ln

/-- A failed key check (R57): counter, event and first-error capture of the HMC page. -/
def State.keyFail (s : State) (ln ctx : Nat) (ptr : Word) : State :=
  s.error .hmc (stackOf ln) { evtBit := 5, status := 0x30, code := 0x168, ctx := ctx, addr := ptr }

/-! ### Table fetches and the caches of tables (R30, R80, R83, R106, R426) -/

/-- How a table fetch ends: done, no table-fetch slot left in the tick, or a line that fails its check. -/
inductive Fetched where
  | ok | late | bad (a : Nat)
deriving DecidableEq, Repr

/-- A table-fetch slot for a read of a line: none when the share of its pseudo-channel is used up (R83). -/
def State.fetchLine (s : State) (ln : Nat) : Option State :=
  let st := stackOf ln
  let pc := s.pcOf ln
  if s.slotUsed 2 st pc < s.share 8 then some ((s.useSlot 2 st pc).bump .hmc st 0x100) else none

/-- A table read that failed its check: TABLE_CRC (R255). -/
def State.raiseTableCrc (s : State) (a : Nat) : State :=
  match s.regionPhys a with
  | some p =>
    let s := s.error .hmc (stackOf (p / 256)) { evtBit := 6, code := 0x178, status := 0x7F, addr := BitVec.ofNat 64 p }
    { s with fw := { s.fw with rewrites := (s.fw.rewrites ++ [p / 256]).dedup } }
  | none => s

/-- A parity error of a cached entry: the first-error capture of the block's page, with STATUS 0 (R426). -/
def State.parityError (s : State) (b : Blk) (i : Nat) : State := s.capture b i {}

/-- Drop a tile's copy of a table line. -/
def State.dropCopy (s : State) (tile ln : Nat) : State :=
  { s with tier := { s.tier with copies := s.tier.copies.filter fun c => !(decide (c.tile = tile ∧ c.line = ln)) } }

/-- The Headgate of a tile reads the table line at an address, from its copy or from memory, and keeps a copy of what is valid
(R30, R80). Log 139. -/
def State.takeCopy (s : State) (tile : Nat) (x : Nat × Bool) : Fetched × State :=
  match s.regionPhys x.1 with
  | none => (.bad x.1, s)
  | some q =>
    let ln := q / 256
    let fetch := fun (s : State) =>
      match s.fetchLine ln with
      | none => (Fetched.late, s)
      | some s =>
        let r := s.checkRegion .requester ln
        if r.1 then (.bad x.1, r.2)
        else if x.2 then (.ok, { r.2 with tier := { r.2.tier with copies := r.2.tier.copies ++ [⟨tile, ln, false⟩] } })
        else (.ok, r.2)
    match s.tier.copies.find? (fun c => decide (c.tile = tile ∧ c.line = ln)) with
    | some c => if c.bad then fetch ((s.dropCopy tile ln).parityError .hdg tile) else (.ok, s)
    | none => fetch s

/-- Read table lines in turn, as far as they can be had. -/
def State.takeCopies (s : State) (tile : Nat) (xs : List (Nat × Bool)) : Fetched × State :=
  xs.dedup.foldl (fun (a : Fetched × State) x => if a.1 = .ok then a.2.takeCopy tile x else a) (.ok, s)

/-- The address of a table entry, and whether a cache may keep it (R30). -/
def State.entryRef (s : State) (t : Table) (bank : Bool) (i : Nat) : Nat × Bool :=
  let ws := s.entryMem t bank i
  (s.entryAddr t bank i, match t with
    | .pkt => bit (ws.headD 0) 16
    | .ctxt => (ctxtOf ws).valid
    | .extt => (exttOf ws).valid
    | _ => entryValid t ws)

/-- The address of entry `i` of a parcel map, and whether it is valid. -/
def State.pmapRef (s : State) (base i : Nat) : Nat × Bool := (base + 4 * i, (s.pmapAt base i).1)

/-- The lines of `n` bytes of a list in the control region from `a` on. -/
def State.listLines (s : State) (a n : Nat) : List (Nat × Bool) :=
  (List.range (cdiv (a % 256 + n) 256)).map fun i => (a / 256 * 256 + 256 * i, (s.regionPhys (a / 256 * 256 + 256 * i)).isSome)

/-- Key of a unit's cached program. -/
def progKey (unit' : Nat) (bank : Bool) (prog : Nat) : Nat := unit' * 2048 + b2n bank * 1024 + prog

/-- A unit's cached program, when it has one. -/
def State.progCopy (s : State) (k : Nat) : ProgCopy := sget (fun _ => ({} : ProgCopy)) s.tier.pcache k

/-- Write a unit's cached program. -/
def State.setProgCopy (s : State) (k : Nat) (c : ProgCopy) : State :=
  { s with tier := { s.tier with pcache := sset (fun _ => ({} : ProgCopy)) s.tier.pcache k c } }

/-- A unit takes a program of a PRGT bank for its cache: on first use, or again after a parity error (R106, R136, R426). Logs 137, 139. -/
def State.takeProgram (s : State) (unit' : Nat) (bank : Bool) (prog : Nat) : Fetched × State :=
  let k := progKey unit' bank prog
  let c := s.progCopy k
  let core := decide (unit' < 136)
  let fetch := fun (s : State) =>
    match s.regionPhys (s.entryAddr .prgt bank prog) with
    | none => (Fetched.bad (s.entryAddr .prgt bank prog), s)
    | some q =>
      match s.fetchLine (q / 256) with
      | none => (.late, s)
      | some s =>
        let r := s.checkRegion .requester (q / 256)
        let s := r.2
        if r.1 then (.bad (s.entryAddr .prgt bank prog), s)
        else
          let ws := s.prgt bank prog
          if bit (ws.getD 0 0) 0 then
            let s := s.setProgCopy k ⟨ws, false⟩
            (.ok, if core then s.bump .eng unit' 0x140 else s)
          else (.ok, s)
  if c.words.isEmpty then fetch s
  else if c.bad then
    let s := s.setProgCopy k {}
    fetch (if core then (s.parityError .eng unit').raise .eng unit' 2 else s.parityError .hdg (unit' - 136))
  else (.ok, s)

/-- The program that a unit runs: its cached words, or what memory holds. -/
def State.programOf (s : State) (unit' : Nat) (bank : Bool) (prog : Nat) : List Word :=
  let c := s.progCopy (progKey unit' bank prog)
  if c.words.isEmpty then s.prgt bank prog else c.words

/-- A cached entry takes a parity error (R426); one that is not cached takes none. -/
def State.markParity (s : State) (x : Cached) : State :=
  match x with
  | .route t b e =>
    let k := (t.val * 2 + b2n b) * 2 ^ 20 + e.toNat
    let m := sget (fun _ => ({} : RouteMemo)) s.fab.routes k
    if m.valid then { s with fab := { s.fab with routes := sset (fun _ => ({} : RouteMemo)) s.fab.routes k { m with bad := true } } } else s
  | .program u n =>
    let k := u.val * 2048 + n.val
    if (s.progCopy k).words.isEmpty then s else s.setProgCopy k { s.progCopy k with bad := true }
  | .table t ln =>
    { s with tier := { s.tier with copies := s.tier.copies.map fun c => if c.tile = t.val ∧ c.line = ln then { c with bad := true } else c } }
  | .directory ln => { s with coh := { s.coh with dirs := s.coh.dirs.map fun c => if c.line = ln then { c with bad := true } else c } }
  | .pte n =>
    let m := s.xlt.cache.length
    if n < m then { s with xlt := { s.xlt with cache := s.xlt.cache.modify n fun e => { e with bad := true } } }
    else { s with xlt := { s.xlt with leafs := s.xlt.leafs.modify (n - m) fun e => (e.1, { e.2 with bad := true }) } }

/-! ### Writes (R253, R254, R212) -/

/-- Write a line of a parcel whole, and the mirror line of an Assured frame when `mirror` says so (R253, R254): REF of both frames sets. -/
def State.putLine (s : State) (p l ln fmt : Nat) (bs : List Byte) (poison mirror : Bool) : State :=
  let f := BitVec.ofNat 4 fmt
  let tag := some (poolTag p l)
  let s := (s.writeLine (ln * 256) bs poison false f false tag).touch (ln / 8192)
  let h := s.fhtOf (ln / 8192)
  if mirror && h.assured then (s.writeLine ((h.mirrorFrame * 8192 + l) * 256) bs poison false f true tag).touch h.mirrorFrame else s

/-- Write bytes within one line of a framed parcel: read, repair and merge when narrower than the line; the mirror takes the
same line; the line becomes DIRTY, queued repairs are cancelled (R212, R253, R254, R257). -/
def State.writePool (s : State) (p l first fmt : Nat) (bs : List Byte) (poison : Bool) : State :=
  match s.lineAt p l with
  | none => s
  | some ln =>
    let full := decide (bs.length = 256)
    let r : List Byte × Bool × State := if full then ([], false, s) else s.readLine p l ln fmt
    let s := r.2.2
    let line := if full then bs else r.1.take first ++ bs ++ r.1.drop (first + bs.length)
    let s := s.putLine p l ln fmt line (poison || (!full && r.2.1)) true
    let s := if full then s else s.bump .hmc (stackOf ln) 0x110
    let s := s.cancelRefetch p l
    if s.hasFlash then s.moveLine ln .dirty else s

/-- Fill an ABSENT line with flash data (R216): CLEAN, its poison kept, no mirror write. -/
def State.fillLine (s : State) (p l fmt : Nat) (bs : List Byte) (poison : Bool) : State :=
  match s.lineAt p l with
  | none => s
  | some ln => (s.putLine p l ln fmt bs poison false).moveLine ln .clean

/-- A background fetch that fills a line of a frame writes its mirror as well: the fetch of a pin of an Assured extent, no refetch (R254). -/
def State.fetchMirrors (s : State) (refetch : Bool) (f : Nat) : Bool :=
  !refetch && (s.fhtOf f).assured && decide ((s.fhtOf f).st = .pinned)

/-- Fill a line that a background fetch brings. -/
def State.fillBoth (s : State) (refetch : Bool) (p l fmt : Nat) (bs : List Byte) (poison : Bool) : State :=
  match s.lineAt p l with
  | none => s
  | some ln => (s.putLine p l ln fmt bs poison (s.fetchMirrors refetch (ln / 8192))).moveLine ln .clean

/-! ### Flash contents (R160, R262, R263) -/

/-- The number of a sector's place: die, page and sector. -/
def siteKey (die page k : Nat) : Nat := (die * 2 ^ 24 + page) * 4 + k

/-- The place of a group's copy in force. -/
def FGroup.key (r : FGroup) : Nat := siteKey r.die r.page r.sector

/-- Map entry of a parcel's group. -/
def State.fgroup (s : State) (p g : Nat) : FGroup := sget (fun _ => ({} : FGroup)) s.tier.fgroups (p * 512 + g)

/-- Write a map entry. -/
def State.setFgroup (s : State) (p g : Nat) (v : FGroup) : State :=
  { s with tier := { s.tier with fgroups := sset (fun _ => ({} : FGroup)) s.tier.fgroups (p * 512 + g) v } }

/-- The sector at a place. -/
def State.sectorAt (s : State) (k : Nat) : Sector := sget (fun _ => ({} : Sector)) s.tier.sectors k

/-- Write the record of a sector. -/
def State.setSector (s : State) (k : Nat) (v : Sector) : State :=
  { s with tier := { s.tier with sectors := sset (fun _ => ({} : Sector)) s.tier.sectors k v } }

/-- Where a group stands among the groups of a sector. -/
def Sector.slot (x : Sector) (g : Nat) : Nat := x.groups.findIdx fun e => decide (e.1 = g)

/-- Poison of a group's lines in a sector. -/
def Sector.poisonOf (x : Sector) (g : Nat) : BitVec 16 := ((x.groups.find? fun e => decide (e.1 = g)).map (·.2)).getD 0

/-- The sector of a group that the map names; none for a group that is not in the map. -/
def State.copyOf (s : State) (p g : Nat) : Option Nat := let r := s.fgroup p g; if r.stored then some r.key else none

/-- The data of a line in a copy of its group: zeros for a group that is not in the map (R216, R262). -/
def State.copyLine (s : State) (c : Option Nat) (l : Nat) : List Byte :=
  match c with
  | none => List.replicate 256 0
  | some k => (List.range 256).map fun i => sget cellDefault s.tier.flash ((k * 4 + (s.sectorAt k).slot (l / 16)) * 4096 + l % 16 * 256 + i)

/-- Whether a line is poisoned in a copy of its group: by LINE_POISON, or because the group is lost (R262, R265). -/
def State.copyPoison (s : State) (c : Option Nat) (p l : Nat) : Bool :=
  ((s.fgroup p (l / 16)).lost && decide (c = s.copyOf p (l / 16))) ||
    (match c with
     | none => false
     | some k => ((s.sectorAt k).poisonOf (l / 16)).getLsbD (l % 16))

/-- A copy lies in a sector that fails its CRC (R265). -/
def State.copyBad (s : State) (c : Option Nat) : Bool := c.any fun k => (s.sectorAt k).bad

/-- Flash data of a line. -/
def State.flashLine (s : State) (p l : Nat) : List Byte := s.copyLine (s.copyOf p (l / 16)) l

/-- Whether the flash copy of a line is poisoned. -/
def State.flashPoison (s : State) (p l : Nat) : Bool := s.copyPoison (s.copyOf p (l / 16)) p l

/-- Store the bytes of group number `n` of a sector. -/
def State.storeFlash (s : State) (k n : Nat) (bs : List Byte) : State :=
  let cells := bs.zipIdx.foldl (fun m b => sset cellDefault m ((k * 4 + n) * 4096 + b.2) b.1) s.tier.flash
  { s with tier := { s.tier with flash := cells } }

/-- The die that holds a group: its record, or for a group never written a free choice within the tile's flash (R85: it is
charged as a full sector all the same; log 4). -/
def State.groupDie (s : State) (p g st : Nat) : Nat :=
  let r := s.fgroup p g
  if r.stored then r.die else 128 * (st / 6) + Config.flashPlace (p * 512 + g) % 128

/-- Start a background fetch of a group unless one is under way (R93, R217). -/
def State.startFetch (s : State) (p g : Nat) : State :=
  if s.tier.fetches.any (fun f => decide (f.parcel = p ∧ f.group = g ∧ f.refetch = false)) then s
  else { s with tier := { s.tier with fetches := s.tier.fetches ++ [{ parcel := p, group := g, refetch := false, lines := [], started := s.tick }] } }

end Sys2Proof.Machine
end

