-- ==== Sys2Proof/Machine/Flash.lean ====
section
/-! DEFINITION. The flash stacks (R262 to R266): how lines are encoded and sectors recorded (R159, R160, R262), where pages stand in
parity stripes (R263), how a stripe confirms its groups, and what goes on in die frames and channel bytes that no request has claimed
(R217, R265, R269). -/

namespace Sys2Proof.Machine

/-- FMC page of the flash stack that holds a die. -/
def fmcOf (die : Nat) : Nat := die / 32

/-! ### Encoded lines and sector records (R159, R160, R262) -/

/-- METHOD of a line: 0 RAW, 1 ZERO, 2 REP4, 3 MASK (R159). -/
def lineMethod (bs : List Byte) : Nat :=
  match lineEncoded bs with
  | 0 => 1
  | 4 => 2
  | 256 => 0
  | _ => 3

/-- The map of a line's nonzero bytes (R159): bit i of byte j is 1 when byte 8 j + i is not zero (DESIGN CHOICE, log 171). -/
def maskMap (bs : List Byte) : List Byte :=
  (List.range 32).map fun j => BitVec.ofNat 8 (((List.range 8).map fun i => if bs.getD (8 * j + i) 0 = 0 then 0 else 2 ^ i).sum)

/-- The encoded bytes of a line (R159). -/
def encodeLine (bs : List Byte) : List Byte :=
  match lineMethod bs with
  | 0 => bs
  | 1 => []
  | 2 => bs.take 4
  | _ => maskMap bs ++ bs.filter (· ≠ 0)

/-- Put the bytes of a MASK line back in their places. -/
def unmask : List Bool → List Byte → List Byte
  | [], _ => []
  | false :: m, bs => 0 :: unmask m bs
  | true :: m, bs => bs.headD 0 :: unmask m bs.tail

/-- The line that encoded bytes stand for under a method. -/
def decodeLine (m : Nat) (bs : List Byte) : List Byte :=
  match m with
  | 0 => bs
  | 1 => List.replicate 256 0
  | 2 => (List.replicate 64 (bs.take 4)).flatten
  | _ => unmask ((bs.take 32).flatMap fun b => (List.range 8).map fun i => b.getLsbD i) (bs.drop 32)

/-- The 16 lines of a group's bytes. -/
def groupLines (bs : List Byte) : List (List Byte) := (List.range 16).map fun i => (bs.drop (256 * i)).take 256

/-- The bytes of a sector before encryption: its groups' encoded lines in order, then zeros (R262). -/
def sectorPlain (groups : List (List Byte)) : List Byte :=
  let bs := (groups.flatMap groupLines).flatMap encodeLine
  bs ++ List.replicate (4096 - bs.length) 0

/-- Tweak of a sector (R262). -/
def sectorTweak (p g : Nat) : Nat := p * 512 + g

/-- A group in a sector: its index, its 4,096 bytes and the poison of its lines. -/
abbrev SectorGroup := Nat × List Byte × BitVec 16

/-- The bytes of a sector as flash holds them (R262). -/
def sectorStored (key : BitVec 512) (p : Nat) (gs : List SectorGroup) : List Byte :=
  Config.cipher key (sectorTweak p (gs.headD (0, [], 0)).1) (sectorPlain (gs.map (·.2.1)))

/-- Words 0 to 3 of a sector's record (R262). -/
def sectorWords (p : Nat) (gs : List SectorGroup) : List Word :=
  let w0 := gs.zipIdx.foldl (fun w x => w ||| place (36 + 9 * x.2) (28 + 9 * x.2) x.1.1) (place 24 0 p ||| place 26 25 (gs.length - 1))
  let w1 := gs.zipIdx.foldl (fun w x => w ||| place (16 * x.2 + 15) (16 * x.2) x.1.2.2.toNat) (0 : Word)
  let ms := ((gs.flatMap fun g => groupLines g.2.1).map lineMethod).zipIdx
  let w := fun (k : Nat) => ((ms.filter fun x => decide (x.2 / 32 = k)).foldl (fun w x => w ||| place (2 * (x.2 % 32) + 1) (2 * (x.2 % 32)) x.1) (0 : Word))
  [w0, w1, w 0, w 1]

/-- The record of a sector stored under a key and its generation: five words (R262). -/
def sectorRecord (key : BitVec 512) (gen : BitVec 16) (p : Nat) (gs : List SectorGroup) : List Word :=
  let ws := sectorWords p gs
  let crc := crc32c (sectorStored key p gs ++ ws.flatMap fun w => leBytes 8 w.toNat)
  ws ++ [place 31 0 crc.toNat ||| place 47 32 gen.toNat]

/-- Groups of a parcel whose copy in force lies in the sector of one of its groups, in order (R160, R262). -/
def State.sectorGroups (s : State) (p g : Nat) : List Nat :=
  (List.range 512).filter fun i => (s.fgroup p i).stored && decide ((s.fgroup p i).key = (s.fgroup p g).key)

/-- The 4,096 bytes of a group as flash gives them. -/
def State.flashGroup (s : State) (p g : Nat) : List Byte := (List.range 16).flatMap fun i => s.flashLine p (16 * g + i)

/-- The groups of a sector as it was programmed. -/
def State.sectorOf (s : State) (k : Nat) : List SectorGroup :=
  (s.sectorAt k).groups.map fun e => (e.1, (List.range 16).flatMap (fun i => s.copyLine (some k) (16 * e.1 + i)), e.2)

/-- The record of the sector at a place; a sector without groups, of a parity page or of zeros, has none (R262). -/
def State.sectorRec (s : State) (k : Nat) : List Word :=
  let x := s.sectorAt k
  if x.groups.isEmpty then [] else sectorRecord (s.island.key.getD 0) x.gen x.parcel (s.sectorOf k)

/-- A sector fails its CRC: counted, with words 0, 1 and 4 of its record and its die in the first-error capture (R265, R439). -/
def State.sectorFail (s : State) (k : Nat) : State :=
  let d := k / 2 ^ 26
  let ws := s.sectorRec k
  s.error .fmc (fmcOf d) {
    evtBit := 0, code := 0x108, d0 := ws.getD 0 0, d1 := ws.getD 1 0, d2 := ws.getD 4 0, d3 := BitVec.ofNat 64 d }

/-- The key generation of a copy of a group is not the FMC's current one (R450). -/
def State.staleGen (s : State) (c : Option Nat) : Bool := c.any fun k => decide ((s.sectorAt k).gen.toNat ≠ s.fld 0x5208 31 16)

/-- Whether the group of a line already holds a DIRTY or CLEANING line (R91, R287). -/
def State.groupDirty (s : State) (p g : Nat) : Bool :=
  (List.range 16).any fun i => match s.lineAt p (16 * g + i) with
    | some ln => (s.lsmOf ln).unclean
    | none => false

/-! ### Pages and stripes (R263 to R266) -/

/-- Pages of a die that hold sectors and parity: 160 GiB in pages of 16 KiB, less its part of the checkpoint slots (R237, R264). -/
def diePages : Nat := 10485760 - 128

/-- The erase block of a page. -/
def blockOf (page : Nat) : Nat := page / Config.blockPages 0

/-- Whether a die is marked failed (R266, R272). -/
def State.dieFailed (s : State) (d : Nat) : Bool := bit (s.reg (rOff .fmc (fmcOf d) 0x208)) (d % 32)

/-- Blocks that take no program: bad ones and those that are being emptied (R266). -/
def State.blocksOut (s : State) : List (Nat × Nat) := s.tier.badBlocks ++ s.tier.retiring

/-- Pages of a die that the pool's backing and its parity may take: 64 TiB and a seventh over 512 dies. The rest of a die, with its spare
blocks, is left for relocation and rebuilds (R264). -/
def poolPages : Nat := 9586981

/-- Programmed or open pages of a die. -/
def State.pagesUsed (s : State) (d : Nat) : Nat := ((s.tier.stripes.flatMap (·.sites)).filter fun x => decide (x.1 = d)).length

/-- A page that can be programmed now: erased, in a good block of a good die, and for backing of the pool within its part of the die
(R264, R266). -/
def State.pageUsable (s : State) (own : Bool) (d page : Nat) : Bool :=
  decide (page < diePages) && (!own || decide (s.pagesUsed d < poolPages)) && !s.dieFailed d && !(s.tier.stripes.any fun x => x.sites.contains (d, page)) &&
    !s.blocksOut.contains (d, blockOf page)

/-- Pages of a die among which its first usable one is. -/
def State.pagesAfter (s : State) (d : Nat) : List Nat :=
  0 :: (((s.tier.stripes.flatMap (·.sites)).filter fun x => decide (x.1 = d)).map fun x => x.2 + 1) ++
    (s.blocksOut.filter fun b => decide (b.1 = d)).map fun b => (b.2 + 1) * Config.blockPages 0

/-- A page on a channel: the FMC's choice where that is usable, else the first usable one (log 4). -/
def State.sitePage (s : State) (own : Bool) (c : Nat) : Option (Nat × Nat) × State :=
  let w := Config.flashPlace s.fresh
  let s' := { s with fresh := s.fresh + 1 }
  if s.pageUsable own (8 * c + w % 8) (w / 8) then (some (8 * c + w % 8, w / 8), s')
  else (((List.range 8).map (8 * c + ·)).findSome? fun d => ((s.pagesAfter d).find? fun g => s.pageUsable own d g).map fun g => (d, g), s')

/-- Replace a stripe. -/
def State.setStripe (s : State) (y : Stripe) : State :=
  { s with tier := { s.tier with stripes := s.tier.stripes.map fun x => if x.set = y.set ∧ x.n = y.n then y else x } }

/-- Open the next stripe of a set, with a page on each of its eight channels; none when a channel has no usable page. -/
def State.openStripe (s : State) (own : Bool) (set : Nat) : Option State :=
  let n := sget (fun _ => 0) s.tier.stripeNext set
  let o := (List.range 8).foldl (fun (a : Option (List (Nat × Nat)) × State) i =>
    match a.1 with
    | none => a
    | some l =>
      let r := a.2.sitePage own (8 * set + i)
      (r.1.map fun x => l ++ [x], r.2)) (some [], s)
  o.1.map fun l =>
    let s := o.2
    let x : Stripe := { set := set, n := n, sites := l }
    { s with tier := { s.tier with stripes := s.tier.stripes ++ [x], stripeNext := sset (fun _ => 0) s.tier.stripeNext set (n + 1) } }

/-- A free sector at a data position of an open stripe: the position times 4 plus the sector. The parity page is at position n mod 8. -/
def Stripe.slotFor (x : Stripe) (pos : Nat) : Option Nat :=
  if x.closed || decide (x.n % 8 = pos) then none else ((List.range 4).map (4 * pos + ·)).find? fun k => !x.used.contains k

/-- The first open stripe with a free sector on a channel. -/
def State.stripeFor (s : State) (c : Nat) : Option Stripe :=
  s.tier.stripes.find? fun x => decide (x.set = c / 8) && (x.slotFor (c % 8)).isSome

/-- Open stripes until one has a free sector on a channel: the first new one can have its parity page there. -/
def State.withSlot (s : State) (own : Bool) (c : Nat) : State :=
  let more := fun (s : State) => if (s.stripeFor c).isSome then s else (s.openStripe own (c / 8)).getD s
  more (more s)

/-- Where a stripe holds a sector: die, page and sector. -/
def Stripe.siteOf (x : Stripe) (k : Nat) : Nat × Nat × Nat := let y := x.sites.getD (k / 4) (0, 0); (y.1, y.2, k % 4)

/-- One confirmed group, number `n` of its sector: its bytes stand on flash, its CLEANING lines become CLEAN, and a group left clean counts
16 drain lines (R212, R223, R263); a group only moved keeps its lines' states (R267). -/
def State.confirmGroup (s : State) (site : Nat × Nat × Nat) (r : Program) (n : Nat) : State :=
  let t := site.1 / 128
  let s := s.storeFlash (siteKey site.1 site.2.1 site.2.2) n r.data
  let s := s.setFgroup r.parcel r.group { stored := true, die := site.1, page := site.2.1, sector := site.2.2, lost := false }
  if r.moved then s
  else
    let s := r.lines.foldl (fun s l => match s.lineAt r.parcel l with
      | some ln => if s.lsmOf ln = .cleaning then (s.moveLine ln .clean).bump .tier t 0x120 else s
      | none => s) s
    let s := if s.groupDirty r.parcel r.group then s
      else { s with tier := { s.tier with cleanedNow := s.tier.cleanedNow + 16 } }
    { s with tier := { s.tier with lost := s.tier.lost.filter fun l => decide (l ≠ (r.parcel, r.group)) } }

/-- The record that stands beside a sector of the groups given (R262). -/
def sectorOfPrograms (rs : List Program) : Sector :=
  { parcel := (rs.map (·.parcel)).headD 0, groups := rs.map fun r => (r.group, r.poison), gen := (rs.map (·.gen)).headD 0 }

/-- One confirmed sector: its record and its groups; one whose key generation is no longer the current one is dropped (R263, R450). -/
def State.confirmSector (s : State) (site : Nat × Nat × Nat) (rs : List Program) : State :=
  if rs.all fun r => decide (r.gen.toNat = s.fld 0x5208 31 16) then
    rs.zipIdx.foldl (fun s r => s.confirmGroup site r.1 r.2) (s.setSector (siteKey site.1 site.2.1 site.2.2) (sectorOfPrograms rs))
  else s.bump .mgt 0 0x140

/-- The parity page of a stripe is programmed: the stripe is closed and its sectors are confirmed (R263). -/
def State.closeStripe (s : State) (x : Stripe) : State :=
  let s := s.setStripe { x with closed := true, waiting := [] }
  let s := s.bumpN .fmc ((8 * x.set + x.n % 8) / 4) 0x138 16384
  x.waiting.foldl (fun s w => s.confirmSector (x.siteOf w.1) w.2) s

/-- Program a sector of groups of one parcel on a channel: it waits in its stripe for the parity page, which follows the last of the 28
data sectors (R263). None when flash has no page for it. -/
def State.stageSector (s : State) (c : Nat) (rs : List Program) : Option State :=
  let s := s.withSlot (rs.any fun r => !r.moved) c
  match s.stripeFor c with
  | none => none
  | some x =>
    let k := (x.slotFor (c % 8)).getD 0
    let y := { x with used := x.used ++ [k], waiting := x.waiting ++ [(k, rs)] }
    let s := (s.setStripe y).bumpN .fmc (c / 4) 0x138 4096
    let s := if rs.all (·.moved) then s.bumpN .fmc (c / 4) 0x130 4096 else s
    some (if y.used.length = 28 then s.closeStripe y else s)

/-- A drain or TIER_FLUSH fills out each open stripe of a tile with zero pages (R263). -/
def State.fillStripes (s : State) (t : Nat) : State :=
  (s.tier.stripes.filter fun x => !x.closed && decide (x.set / 2 = t)).foldl (fun s x =>
    let s := (((List.range 8).filter (· ≠ x.n % 8)).foldl (fun s i =>
      s.bumpN .fmc ((8 * x.set + i) / 4) 0x138 (4096 * (4 - (x.used.filter fun k => decide (k / 4 = i)).length))) s)
    s.closeStripe x) s

/-- Whether a group is on its way to flash: with the Ebb or in an open stripe. -/
def State.underWay (s : State) (p g : Nat) : Bool :=
  (s.tier.programs ++ s.tier.stripes.flatMap fun x => x.waiting.flatMap (·.2)).any fun r => decide (r.parcel = p ∧ r.group = g)

/-- The program-erase counts of a flash stack after an erase: each may rise, and the mean stays at most the highest (R272; log 3). -/
def State.wear (s : State) (f : Nat) : State :=
  let o := rOff .fmc f 0x210
  let (a, s) := s.drawBool
  let (b, s) := s.drawBool
  let m := min 65535 (s.fld o 15 0 + b2n a)
  s.setReg o (place 31 16 (min m (s.fld o 31 16 + b2n b)) ||| place 15 0 m)

/-- Spare blocks left on a die (R266; log 7). -/
def State.sparesOf (s : State) (d : Nat) : Nat := sget Config.spareBlocks s.tier.spares d

/-- Fewest spares on any die of a flash stack, shown in FMC_BLOCKS. -/
def State.showSpares (s : State) (f : Nat) : State :=
  s.setFld (rOff .fmc f 0x200) 47 32 (((List.range 32).map fun k => s.sparesOf (32 * f + k)).foldl min 0xFFFF)

/-- A sector is known to fail its CRC (R265). -/
def State.markBad (s : State) (k : Nat) : State := s.setSector k { s.sectorAt k with bad := true }

/-- A page waits to be rebuilt: the seven other pages of its stripe are to be sensed (R265). `found`: the patrol has found it. -/
def State.queueRebuild (s : State) (d page : Nat) (found : Bool) : State :=
  if s.tier.rebuilds.any fun j => decide (j.die = d ∧ j.page = page) then s
  else
    let dies := match s.tier.stripes.find? fun x => x.sites.contains (d, page) with
      | some x => (x.sites.filter (· ≠ (d, page))).map (·.1)
      | none => []
    { s with tier := { s.tier with rebuilds := s.tier.rebuilds ++ [{ die := d, page := page, dies := dies, ready := s.tick, found := found }] } }

/-- What the write buffer holds of an open stripe's page at position `i` is programmed again on another page of the channel; where there is
none the stripe ends without data and its groups go back to the Ebb (R266; log 154). -/
def State.moveSite (s : State) (x : Stripe) (i : Nat) : State :=
  let r := s.sitePage false (8 * x.set + i)
  match r.1 with
  | some y =>
    (r.2.setStripe { x with sites := x.sites.set i y }).bumpN .fmc ((8 * x.set + i) / 4) 0x138
      (4096 * (x.used.filter fun k => decide (k / 4 = i)).length)
  | none =>
    let s := r.2.setStripe { x with closed := true, waiting := [] }
    { s with tier := { s.tier with programs := s.tier.programs ++ x.waiting.flatMap (·.2) } }

/-- The pages of open stripes in a block that can no longer be programmed move. -/
def State.emptyBlock (s : State) (d : Nat) (inBlock : Nat → Bool) : State :=
  (s.tier.stripes.filter fun x => !x.closed).foldl (fun s x =>
    match x.sites.findIdx? fun y => decide (y.1 = d) && inBlock y.2 with
    | some i => s.moveSite x i
    | none => s) s

/-- A die fails: none of its sectors can be read; its pages, data, parity and zeros alike, are to be rebuilt on the other dies of its channel,
which keeps their stripes whole, and what its open pages hold is programmed again (R263, R265, R266). -/
def State.failDie (s : State) (d : Nat) : State :=
  let f := fmcOf d
  let s := (s.setFld (rOff .fmc f 0x208) (d % 32) (d % 32) 1).raise .fmc f 4
  let s := s.emptyBlock d fun _ => true
  let pages := (s.tier.stripes.flatMap (·.sites)).filter fun y => decide (y.1 = d)
  pages.foldl (fun s y => ((List.range 4).foldl (fun s k => s.markBad (siteKey d y.2 k)) s).queueRebuild d y.2 false) s

/-- A block leaves service as grown bad: counted, with its event; the pages of it that open stripes hold move, and a die whose spares
reach 0 is failed (R266). -/
def State.retireBlock (s : State) (d block : Nat) : State :=
  let f := fmcOf d
  let n := s.sparesOf d - 1
  let s := s.raise .fmc f 2
  let s := s.setFld (rOff .fmc f 0x200) 31 16 (s.fld (rOff .fmc f 0x200) 31 16 + 1)
  let t' := { s.tier with
    badBlocks := (s.tier.badBlocks ++ [(d, block)]).dedup
    retiring := s.tier.retiring.filter fun b => decide (b ≠ (d, block))
    spares := sset Config.spareBlocks s.tier.spares d n }
  let s := { s with tier := t' }.showSpares f
  let s := if n < s.fld (rOff .fmc f 0x218) 15 0 then s.raise .fmc f 3 else s
  let s := s.emptyBlock d fun g => decide (blockOf g = block)
  if n = 0 then s.failDie d else s

/-- Pages that hold a stored group or that an admitted request's probe has named (R263). -/
def State.livePages (s : State) : List (Nat × Nat) :=
  ((s.tier.fgroups.filter fun e => e.2.stored).map fun e => (e.2.die, e.2.page)) ++
    s.adm.reqs.flatMap fun r => r.misses.map fun m => (m.die, m.page)

/-- Erase what can be erased: closed stripes without a live page in any of their blocks; and retire the blocks whose groups have gone
elsewhere (R263, R266; log 154). -/
def State.reclaim (s : State) : State :=
  let live := s.livePages
  let dead := fun (x : Stripe) => x.closed && x.sites.all fun y => !live.contains y
  let held := (s.tier.stripes.filter fun x => !dead x).flatMap fun x => x.sites.map fun y => (y.1, blockOf y.2)
  let gone := s.tier.stripes.filter fun x => dead x && x.sites.all fun y => !held.contains (y.1, blockOf y.2)
  let sites := gone.flatMap (·.sites)
  let erased := fun (k : Nat) => sites.contains (k / 2 ^ 26, k / 4 % 2 ^ 24)
  let t' := { s.tier with
    stripes := s.tier.stripes.filter fun x => !gone.contains x
    sectors := s.tier.sectors.filter fun e => !erased e.1
    flash := s.tier.flash.filter fun c => !erased (c.1 / 16384) }
  let s := { s with tier := t' }
  let s := ((gone.flatMap fun x => x.sites.map fun y => fmcOf y.1).dedup).foldl State.wear s
  (s.tier.retiring.filter fun b => !(live.any fun y => decide ((y.1, blockOf y.2) = b))).foldl (fun s b => s.retireBlock b.1 b.2) s

/-- Groups of a tile that flash holds, and the sectors that hold them (R161). -/
def State.storedNow (s : State) (t : Nat) : Nat × Nat :=
  let gs := s.tier.fgroups.filter fun e => e.2.stored && decide (e.2.die / 128 = t)
  (gs.length, (gs.map fun e => e.2.key).dedup.length)

/-- GROUPS_STORED and SECTORS_USED of a tile count how what flash holds has changed since the last boundary (R161, R240, R441; log 82). -/
def State.showStored (s : State) (t : Nat) : State :=
  let was := sget (fun _ => (0, 0)) s.tier.storedSeen t
  let now := s.storedNow t
  let add := fun (c a b : Nat) (s : State) =>
    if s.fld (rOff .tier t 0x80) 0 0 = 1 then s
    else s.setReg (rOff .tier t c) (s.reg (rOff .tier t c) + BitVec.ofNat 64 b - BitVec.ofNat 64 a)
  let s := add 0x140 was.2 now.2 (add 0x138 was.1 now.1 s)
  { s with tier := { s.tier with storedSeen := sset (fun _ => (0, 0)) s.tier.storedSeen t now } }

/-! ### Capacity that requests leave (R217, R223, R265, R269) -/

/-- A die's frame starts in a tick and neither a Headgate nor a booking has it. -/
def State.frameOpen (s : State) (d u : Nat) : Bool :=
  decide ((u + s.senseTicks - d % s.senseTicks) % s.senseTicks = 0) && decide (s.capacity (.sense d) u = 1) &&
    decide (s.claimed false (.sense d) u (fun _ _ => true) = 0)

/-- B_full of a tile: 12,000 × P bytes (R223). -/
def State.bFull (s : State) : Nat := 3000 * s.tim.periodQ

/-- Bytes booked for the Ebb of a tile in a tick. -/
def State.ebbBooked (s : State) (t u : Nat) : Nat := sget (fun _ => 0) s.tier.ebbLevel (t * tickMod + u)

/-- Bytes booked for the patrol on each channel of a tile in a tick (R85, R269). -/
def State.patrolBooked (s : State) (t u : Nat) : Nat := sget (fun _ => 0) s.tier.ebbLevel ((4 + t) * tickMod + u)

/-- Booked bytes that a channel has moved in this tick. -/
def State.ebbMoved (s : State) (c : Nat) : Nat := sget (fun _ => 0) s.tier.ebbSpent c

/-- Bytes of a channel that are booked for the Ebb in tick `u` and not yet moved: a sixteenth of its tile's (R223). -/
def State.ebbLeft (s : State) (c u : Nat) : Nat := s.ebbBooked (c / 16) u / 16 - s.ebbMoved c

/-- Move booked bytes. -/
def State.ebbSpend (s : State) (c n : Nat) : State :=
  { s with tier := { s.tier with ebbSpent := sset (fun _ => 0) s.tier.ebbSpent c (s.ebbMoved c + n) } }

/-- The page that the patrol of a channel reads, with the tick in which its sense ends. -/
def State.patrolHead (s : State) (c : Nat) : Option (Nat × Nat) := (sget (fun _ => ([] : List (Nat × Nat))) s.hmc.patrolSense c).head?

/-- The patrol of a channel moves the bytes booked for it in tick `u`: a page is sensed and not yet read whole (R269). -/
def State.patrolMoves (s : State) (c u : Nat) : Bool :=
  match s.patrolHead c with
  | some h => tle h.2 u && decide (sget (fun _ => 0) s.hmc.patrolBytes c < 16384)
  | none => false

/-- Bytes of a channel that admitted reads, the Ebb and the patrol have left unused in tick `u` (R217). -/
def State.channelLeft (s : State) (c u : Nat) : Nat :=
  (s.capacity (.chan c) u - s.claimed false (.chan c) u (fun _ _ => true)) + s.ebbLeft c u +
    (if s.patrolMoves c u then 0 else s.patrolBooked (c / 16) u)

/-- Home stack of a parcel by its extent's parcel map (R46, R213). -/
def State.homeStackOf (s : State) (p : Nat) : Nat :=
  let o := s.ownerOf p
  (s.pmapAt (s.exttNow o.ext).pmap o.index).2.2

/-- The die that a fetch senses. -/
def State.fetchDie (s : State) (f : Fetch) : Nat := s.groupDie f.parcel f.group (s.homeStackOf f.parcel)

/-- Sensed sectors of background fetches cross their channels in bytes that tick `u` has left unused, the oldest fetch first (R217). -/
def State.moveFetches (s : State) (u : Nat) : State :=
  let o := s.tier.fetches.foldl (fun (a : List Fetch × SMap Nat) f =>
    match f.sensed with
    | none => (a.1 ++ [f], a.2)
    | some q =>
      let c := s.fetchDie f / 8
      let used := sget (fun _ => 0) a.2 c
      let n := if tle (tadd q s.senseTicks) u then min f.left (s.channelLeft c u - used) else 0
      (a.1 ++ [{ f with left := f.left - n }], sset (fun _ => 0) a.2 c (used + n))) ([], [])
  { s with tier := { s.tier with fetches := o.1 } }

/-- The die frames that begin now and that nobody has claimed go to the background fetches, in the order in which they started, and then
to the rebuilds (R217, R265). -/
def State.giveFrames (s : State) : State :=
  let o := s.tier.fetches.foldl (fun (a : List Fetch × List Nat) f =>
    let d := s.fetchDie f
    if f.sensed.isNone && s.frameOpen d s.tick && !a.2.contains d then (a.1 ++ [{ f with sensed := some s.tick }], d :: a.2)
    else (a.1 ++ [f], a.2)) ([], [])
  let r := s.tier.rebuilds.foldl (fun (a : List Rebuild × List Nat) j =>
    let now := j.dies.filter fun d => s.frameOpen d s.tick && !a.2.contains d
    let j := if now.isEmpty then j else { j with dies := j.dies.filter fun d => !now.contains d, ready := tadd s.tick s.senseTicks }
    (a.1 ++ [j], now ++ a.2)) ([], o.2)
  { s with tier := { s.tier with fetches := o.1, rebuilds := r.1 } }

/-- Rebuilt pages are programmed with what the Ebb has left of a channel's program capacity in tick `u`, the oldest first (R265). -/
def State.moveRebuilds (s : State) (u : Nat) : State :=
  let o := s.tier.rebuilds.foldl (fun (a : List Rebuild × SMap Nat) j =>
    let c := j.die / 8
    let used := sget (fun _ => 0) a.2 c
    let n := if j.dies.isEmpty && tle j.ready u then min j.left (s.bFull / 16 - s.ebbMoved c - used) else 0
    (a.1 ++ [{ j with left := j.left - n }], sset (fun _ => 0) a.2 c (used + n))) ([], [])
  { s with tier := { s.tier with rebuilds := o.1 } }

/-- A second page of the stripe that holds a page has a failing sector (R265). -/
def State.secondBad (s : State) (d page : Nat) : Bool :=
  match s.tier.stripes.find? fun x => x.sites.contains (d, page) with
  | none => false
  | some x => x.sites.any fun y => decide (y ≠ (d, page)) && (List.range 4).any fun k => (s.sectorAt (siteKey y.1 y.2 k)).bad

/-- The groups, as parcel and group, whose copy in force lies in a page, in sectors that `p` holds of. -/
def State.pageGroups (s : State) (d page : Nat) (p : Nat → Bool) : List (Nat × Nat) :=
  (s.tier.fgroups.filter fun e => e.2.stored && decide (e.2.die = d ∧ e.2.page = page) && p e.2.key).map fun e => (e.1 / 512, e.1 % 512)

/-- Groups are lost: counted, recorded, and reported by event (R265, R392). -/
def State.loseGroups (s : State) (gs : List (Nat × Nat)) : State :=
  gs.foldl (fun s x =>
    let r := s.fgroup x.1 x.2
    let f := fmcOf r.die
    let s := s.setFgroup x.1 x.2 { r with lost := true }
    let s := { s with tier := { s.tier with lost := s.tier.lost ++ [x] } }
    let s := s.error .fmc f { evtBit := 1, code := 0x118, d3 := BitVec.ofNat 64 r.die }
    s.postEvent ⟨BitVec.ofNat 8 (Blk.code .fmc), BitVec.ofNat 8 f, 0x0030, BitVec.ofNat 64 x.1, BitVec.ofNat 64 x.2⟩) s

/-- The sectors of a page stand on another page of its channel, whole again; what an admitted request's probe has named stays where it was
(R263, R265). -/
def State.copyPage (s : State) (d page : Nat) (y : Nat × Nat) : State :=
  let k0 := siteKey d page 0
  let k1 := siteKey y.1 y.2 0
  let cells := (s.tier.flash.filter fun c => decide (c.1 / 65536 = k0 / 4)).map fun c => (k1 / 4 * 65536 + c.1 % 65536, c.2)
  let s := (List.range 4).foldl (fun (s : State) k => s.setSector (k1 + k) { s.sectorAt (k0 + k) with bad := false }) s
  { s with tier := { s.tier with
    flash := cells.foldl (fun m c => sset cellDefault m c.1 c.2) s.tier.flash
    fgroups := s.tier.fgroups.map fun e => if e.2.die = d ∧ e.2.page = page then (e.1, { e.2 with die := y.1, page := y.2 }) else e
    stripes := s.tier.stripes.map fun x => { x with sites := x.sites.map fun z => if z = (d, page) then y else z } } }

/-- A rebuilt page is programmed in a new place on its channel, and the block that held it is to be retired (R265, R266). -/
def State.placeRebuilt (s : State) (j : Rebuild) : State :=
  let f := fmcOf j.die
  let r := s.sitePage false (j.die / 8)
  match r.1 with
  | none => r.2
  | some y =>
    let s := r.2.copyPage j.die j.page y
    let s := ((s.bump .fmc f 0x110).bumpN .fmc f 0x100 28).bumpN .fmc (fmcOf y.1) 0x138 16384
    let out := if s.dieFailed j.die then s.tier.retiring else (s.tier.retiring ++ [(j.die, blockOf j.page)]).dedup
    let s := { s with tier := { s.tier with retiring := out, rebuilds := s.tier.rebuilds.erase j } }
    if j.found then s.bump .drg (j.die / 128) 0x130 else s

/-- A rebuild goes on once the other pages of the stripe are sensed: the groups of the page's failing sectors are lost when one of those
pages fails too; else, once its bytes are in, the page stands in a new place (R265). -/
def State.advanceRebuild (s : State) (j : Rebuild) (secondFails : Bool) : State :=
  if !j.dies.isEmpty || later j.ready s.tick then s
  else if secondFails || s.secondBad j.die j.page then
    { s with tier := { s.tier with rebuilds := s.tier.rebuilds.erase j } }.loseGroups (s.pageGroups j.die j.page fun k => (s.sectorAt k).bad)
  else if 0 < j.left then s
  else s.placeRebuilt j

/-- Rebuilds of pages that hold no group go on by themselves (R265, R266). -/
def State.emptyRebuilds (s : State) : State :=
  (s.tier.rebuilds.filter fun j => (s.pageGroups j.die j.page fun _ => true).isEmpty).foldl (fun s j => s.advanceRebuild j false) s

/-- Programmed pages of a channel, data and parity alike, as keys in the patrol's order. -/
def State.patrolPages (s : State) (c : Nat) : List Nat :=
  (s.tier.stripes.filter fun x => decide (x.set = c / 8)).filterMap fun x =>
    if x.closed || x.used.any (fun k => decide (k / 4 = c % 8)) then (x.sites[c % 8]?).map fun y => y.1 * 2 ^ 24 + y.2 else none

/-- Where the patrol of a channel stands: one more than the key of the page it has read last. -/
def State.patrolPos (s : State) (c : Nat) : Nat := sget (fun _ => 0) s.hmc.dredgePos (1536 + c)

/-- The page that follows place `pos` of the patrol's order on a channel, with wrap (R269). -/
def State.patrolAfter (s : State) (c pos : Nat) : Option Nat :=
  let ps := s.patrolPages c
  match ((ps.filter fun k => decide (pos ≤ k)).mergeSort).head? with
  | some k => some k
  | none => (ps.mergeSort).head?

/-- The page that the patrol of a channel reads next. -/
def State.patrolNext (s : State) (c : Nat) : Option Nat := s.patrolAfter c (s.patrolPos c)

/-- PATROL_BPUS × P, at most 512 × P (R269, R273). -/
def State.patrolRate (s : State) (t : Nat) : Nat := s.perTick (min 512 (s.fld (rOff .drg t 0x200) 31 16))

/-- Whether the patrol of a tile runs. -/
def State.patrolOn (s : State) (t : Nat) : Bool := s.hasFlash && s.rsv.drain.isNone && bit (s.reg (rOff .drg t 0x200)) 1

/-- The patrols move the bytes booked for them in tick `u` once their page is sensed (R269). -/
def State.movePatrol (s : State) (u : Nat) : State :=
  (List.range 64).foldl (fun (s : State) c =>
    if s.patrolOn (c / 16) && s.patrolMoves c u then
      let n := sget (fun _ => 0) s.hmc.patrolBytes c + s.patrolBooked (c / 16) u
      { s with hmc := { s.hmc with patrolBytes := sset (fun _ => 0) s.hmc.patrolBytes c n } }
    else s) s

/-- Book the patrol of tile `t` for tick `u`: its bytes, and for each channel the die frame of the page that follows those it has frames for,
as soon as the bytes booked until that frame's sense ends will have read them; a frame that does not start then, or is claimed, is booked
for a later tick (R85, R269; log 83). -/
def State.bookPatrol (s : State) (t u : Nat) : State :=
  if !s.patrolOn t then s
  else
    let s := { s with tier := { s.tier with ebbLevel := sset (fun _ => 0) s.tier.ebbLevel ((4 + t) * tickMod + u) (s.patrolRate t) } }
    ((List.range 16).map (16 * t + ·)).foldl (fun (s : State) c =>
      let l := sget (fun _ => ([] : List (Nat × Nat))) s.hmc.patrolSense c
      if s.patrolRate t * (49 + s.senseTicks) + sget (fun _ => 0) s.hmc.patrolBytes c < 16384 * l.length then s
      else match s.patrolAfter c ((l.getLast?.map fun e => e.1 + 1).getD (s.patrolPos c)) with
        | none => s
        | some k =>
          if s.frameOpen (k / 2 ^ 24) u = true then
            { s with
              tier := { s.tier with ebbBook := sset (fun _ => 0) s.tier.ebbBook (k / 2 ^ 24 * tickMod + u) 1 }
              hmc := { s.hmc with patrolSense := sset (fun _ => []) s.hmc.patrolSense c (l ++ [(k, tadd u s.senseTicks)]) } }
          else s) s

/-- What flash does at a boundary in capacity that tick `u`, which ends, has left, and with the frames that begin now; nothing once the
drain has taken the tier (R233). -/
def State.flashTurn (s : State) (u : Nat) : State :=
  if !s.hasFlash || s.rsv.drain.isSome then s
  else (((s.moveFetches u).moveRebuilds u).movePatrol u).emptyRebuilds.giveFrames.reclaim

end Sys2Proof.Machine
end

