-- ==== Sys2Proof/Machine/Flags.lean ====
section
/-! DEFINITION. Status and flags that are computed: the priority of batch statuses (R134), licences in force (R422), common
page status (R482 to R484), and the registers that show other state (R66, R103, R136, R209, R240, R271, R296, R322, R351,
R372, R401, R463, R487, R491, R494). -/

namespace Sys2Proof.Machine

/-! ### Status codes (R11, R438) -/

/-- Status codes. -/
def stOk : Nat := 0
/-- ACCEPTED. -/
def stAccepted : Nat := 0x01
/-- REFUSED. -/
def stRefused : Nat := 0x10
/-- DISCARDED. -/
def stDiscarded : Nat := 0x11
/-- POISON. -/
def stPoison : Nat := 0x20
/-- POISON_CONSUMED. -/
def stConsumed : Nat := 0x21
/-- ACCESS. -/
def stAccess : Nat := 0x30
/-- EXTENT_INVALID. -/
def stInvalid : Nat := 0x31
/-- REVOKED. -/
def stRevoked : Nat := 0x32
/-- FAULT_XLT. -/
def stFault : Nat := 0x40
/-- FAULT_DROPPED. -/
def stDropped : Nat := 0x41
/-- DOMAIN_DOWN. -/
def stDown : Nat := 0x50
/-- BAD_PROGRAM. -/
def stBadProgram : Nat := 0x60
/-- BAD_FORMAT. -/
def stBadFormat : Nat := 0x61
/-- TENANT_CHANGED. -/
def stTenant : Nat := 0x70
/-- INTERNAL. -/
def stInternal : Nat := 0x7F

/-- Rank of a batch status: the first of ACCESS, INTERNAL, POISON_CONSUMED, EXTENT_INVALID, POISON that applies (R134);
BAD_FORMAT, which ends the whole request (R275), ranks above all. -/
def statusRank (s : Nat) : Nat :=
  if s = 0x61 then 6 else if s = 0x30 then 5 else if s = 0x7F then 4 else if s = 0x21 then 3 else if s = 0x31 then 2
  else if s = 0x20 then 1 else 0

/-- The status that stands when `b` joins `a`. -/
def worse (a b : Nat) : Nat := if statusRank a < statusRank b then b else a

/-! ### Boot flash in use (R404, R410, R422) -/

/-- The bytes of words 0 to 39 of a directory copy (R404). -/
def dirBytes (d : Directory) : List Byte :=
  wordsBytes [place 31 0 d.magic.toNat ||| place 39 32 d.format.toNat,
    place 0 0 (b2n d.active) ||| place 1 1 (b2n d.trialValid) ||| place 2 2 (b2n d.trialSlot) ||| place 7 4 d.trialLeft.toNat |||
      place 63 32 d.seq, 0, 0] ++ leBytes 96 d.fwKey.toNat ++ leBytes 96 d.recordKey.toNat ++ leBytes 96 d.licenceKey.toNat

/-- Whether a directory copy is valid (R404). -/
def Directory.valid (d : Directory) : Bool := decide (d.magic = 0x42444952 ∧ d.crc = crc32c (dirBytes d))

/-- A directory copy with the CRC of its words. -/
def Directory.sealed (d : Directory) : Directory := { d with crc := crc32c (dirBytes d) }

/-- The directory copy in use: the valid one with the higher DIR_SEQ. -/
def State.dirUsed (s : State) : Option (Nat × Directory) :=
  let a := s.boot.dir.getD 0 {}
  let b := s.boot.dir.getD 1 {}
  if a.valid && (!b.valid || decide (b.seq ≤ a.seq)) then some (0, a) else if b.valid then some (1, b) else none

/-- SHA-384 of a 768-bit key as its 96 bytes. -/
def keyDigest (k : BitVec 768) : BitVec 384 := Config.sha384 (leBytes 96 k.toNat)

/-- A public key of the directory may be used: its digest is the one that the ROM holds at a place (R402). -/
def State.keyOk (s : State) (n : Nat) (key : Directory → BitVec 768) : Bool :=
  match s.dirUsed with
  | some (_, d) => decide (s.boot.rom[n]? = some (keyDigest (key d)))
  | none => false

/-- The firmware key may be used. -/
def State.fwKeyOk (s : State) : Bool := s.keyOk 0 (·.fwKey)
/-- The record key may be used. -/
def State.recordKeyOk (s : State) : Bool := s.keyOk 1 (·.recordKey)
/-- The licence key may be used. -/
def State.licenceKeyOk (s : State) : Bool := s.keyOk 2 (·.licenceKey)

/-- Word `i` of an image. -/
def imageWord (bs : List Byte) (i : Nat) : Word := BitVec.ofNat 64 (leNat ((bs.drop (8 * i)).take 8))

/-- Words `i` to `i + 5` of an image as a digest. -/
def imageDigest (bs : List Byte) (i : Nat) : BitVec 384 := BitVec.ofNat 384 (leNat ((bs.drop (8 * i)).take 48))

end Sys2Proof.Machine

namespace Sys2Proof
open Sys2Proof.Machine

/-! The fields of a device record (R407, R408). -/

/-- MAGIC. -/
def DeviceRecord.magic (r : DeviceRecord) : Nat := bits (imageWord r.bytes 0) 31 0
/-- FORMAT. -/
def DeviceRecord.format (r : DeviceRecord) : Nat := bits (imageWord r.bytes 0) 39 32
/-- SERIAL. -/
def DeviceRecord.serial (r : DeviceRecord) : Word := imageWord r.bytes 1
/-- RECORD_SEQ. -/
def DeviceRecord.recordSeq (r : DeviceRecord) : BitVec 32 := BitVec.ofNat 32 (bits (imageWord r.bytes 2) 31 0)
/-- MIN_SEC_VERSION. -/
def DeviceRecord.minSecVersion (r : DeviceRecord) : BitVec 16 := BitVec.ofNat 16 (bits (imageWord r.bytes 2) 47 32)
/-- LENGTH. -/
def DeviceRecord.length (r : DeviceRecord) : Nat := bits (imageWord r.bytes 3) 31 0
/-- SECTIONS. -/
def DeviceRecord.count (r : DeviceRecord) : Nat := bits (imageWord r.bytes 3) 35 32
/-- IDENTITY_KEY. -/
def DeviceRecord.identityKey (r : DeviceRecord) : BitVec 768 := BitVec.ofNat 768 (leNat ((r.bytes.drop 32).take 96))

/-- Entry `w` of a section of type `t` (R408). -/
def recordEntry (t : Nat) (w : Word) : RecordEntry :=
  match t with
  | 1 => .coreMap (BitVec.ofNat 6 (bits w 5 0)) (BitVec.ofNat 6 (bits w 13 8))
  | 2 => match bits w 7 5 with
    | 0 => .hbmFrame (BitVec.ofNat 5 (bits w 4 0)) (BitVec.ofNat 15 (bits w 22 8))
    | 1 => .hbmRow ⟨BitVec.ofNat 5 (bits w 4 0), BitVec.ofNat 6 (bits w 13 8), BitVec.ofNat 6 (bits w 21 16), BitVec.ofNat 24 (bits w 47 24)⟩
    | _ => .undefined w
  | 3 => .bridgeLane (BitVec.ofNat 8 (bits w 7 0)) (BitVec.ofNat 12 (bits w 19 8)) (BitVec.ofNat 8 (bits w 27 20))
  | 4 => .ucieLane (BitVec.ofNat 2 (bits w 1 0)) (bit w 2) (BitVec.ofNat 6 (bits w 13 8)) (BitVec.ofNat 2 (bits w 17 16))
  | 5 => .flashBad (BitVec.ofNat 9 (bits w 8 0)) (BitVec.ofNat 20 (bits w 31 12))
  | _ => .undefined w

/-- Entry `i` of the section directory: TYPE, COUNT and OFFSET. -/
def DeviceRecord.section' (r : DeviceRecord) (i : Nat) : Nat × Nat × Nat :=
  let w := imageWord r.bytes (16 + i)
  (bits w 7 0, bits w 31 16, bits w 63 32)

/-- The sections of a record: type and entries. -/
def DeviceRecord.sections (r : DeviceRecord) : List (Nat × List RecordEntry) :=
  (List.range (min 8 r.count)).map fun i =>
    let x := r.section' i
    (x.1, (List.range x.2.1).map fun k => recordEntry x.1 (imageWord r.bytes (x.2.2 / 8 + k)))

/-! The fields of a licence (R421). -/

/-- Word `i`. -/
def Licence.word (l : Licence) (i : Nat) : Word := l.words.getD i 0
/-- MAGIC. -/
def Licence.magic (l : Licence) : Nat := bits (l.word 0) 31 0
/-- FORMAT. -/
def Licence.format (l : Licence) : Nat := bits (l.word 0) 39 32
/-- KIND. -/
def Licence.kind (l : Licence) : Nat := bits (l.word 0) 47 40
/-- SERIAL. -/
def Licence.serial (l : Licence) : Word := l.word 1
/-- LICENCE_SEQ. -/
def Licence.licenceSeq (l : Licence) : BitVec 32 := BitVec.ofNat 32 (bits (l.word 2) 31 0)
/-- MIN_SEC_VERSION. -/
def Licence.minSecVersion (l : Licence) : BitVec 16 := BitVec.ofNat 16 (bits (l.word 2) 47 32)
/-- VARIANT. -/
def Licence.variant (l : Licence) : Nat := bits (l.word 3) 1 0
/-- FEATURES. -/
def Licence.features (l : Licence) : Word := l.word 4
/-- KEY_HASH, as the words that hold it. -/
def Licence.keyHash (l : Licence) : List Word := (l.words.drop 5).take 6
/-- The RSV fields are zero: those that no kind defines. -/
def Licence.rsvZero (l : Licence) : Bool :=
  decide (l.words.length = 32 ∧ bits (l.word 0) 63 48 = 0 ∧ bits (l.word 2) 63 48 = 0 ∧ bits (l.word 3) 63 2 = 0) &&
    ((l.words.drop 11).take 9).all fun w => decide (w = 0)

/-! The fields of a firmware slot (R405). -/

/-- MAGIC. -/
def SlotImage.magic (i : SlotImage) : Nat := bits (imageWord i.bytes 0) 31 0
/-- FORMAT. -/
def SlotImage.format (i : SlotImage) : Nat := bits (imageWord i.bytes 0) 39 32
/-- SEC_VERSION. -/
def SlotImage.secVersion (i : SlotImage) : BitVec 16 := BitVec.ofNat 16 (bits (imageWord i.bytes 1) 15 0)
/-- RELEASE. -/
def SlotImage.release (i : SlotImage) : BitVec 24 := BitVec.ofNat 24 (bits (imageWord i.bytes 1) 39 16)
/-- Length of part `w`: word 2 ILUONG, 3 HOST, 4 DICT. -/
def SlotImage.len (i : SlotImage) (w : Nat) : Nat := bits (imageWord i.bytes w) 63 32
/-- The bytes of a part. -/
def SlotImage.part (i : SlotImage) (w : Nat) : List Byte := (i.bytes.drop (bits (imageWord i.bytes w) 31 0)).take (i.len w)
/-- Length of the host die image. -/
def SlotImage.hostLen (i : SlotImage) : Nat := i.len 3
/-- ILUONG_DIGEST. -/
def SlotImage.iluongDigest (i : SlotImage) : BitVec 384 := imageDigest i.bytes 5
/-- HOST_DIGEST. -/
def SlotImage.hostDigest (i : SlotImage) : BitVec 384 := imageDigest i.bytes 11
/-- DICT_DIGEST. -/
def SlotImage.dictDigest (i : SlotImage) : BitVec 384 := imageDigest i.bytes 17
/-- The host die image matches its digest. -/
def SlotImage.hostOk (i : SlotImage) : Bool := decide (Config.sha384 (i.part 3) = i.hostDigest)
/-- The three digests match. -/
def SlotImage.digestsOk (i : SlotImage) : Bool :=
  decide (Config.sha384 (i.part 2) = i.iluongDigest ∧ Config.sha384 (i.part 4) = i.dictDigest) && i.hostOk

end Sys2Proof

namespace Sys2Proof.Machine

/-- Whether a device record is well formed and signed (R407, R408). -/
def recordOk (r : DeviceRecord) : Bool :=
  let secs := (List.range (min 8 r.count)).map r.section'
  let types := secs.map (·.1)
  decide (r.magic = 0x44524543 ∧ r.format = 1 ∧ r.length ≤ 65536 ∧ r.length % 8 = 0 ∧ 288 ≤ r.length ∧ r.bytes.length = r.length ∧ r.count ≤ 8) &&
  r.signed && types.all (fun t => decide (1 ≤ t ∧ t ≤ 5)) && decide (types.dedup.length = types.length) &&
  secs.all (fun x => decide (x.2.2 % 8 = 0 ∧ x.2.2 + 8 * x.2.1 + 96 ≤ r.length ∧ (x.1 ≠ 1 ∨ x.2.1 = 4))) &&
  r.sections.all (fun s => s.2.all fun e => match e with
    | .coreMap a b => decide (a ≠ b ∧ a.toNat ≤ 33 ∧ b.toNat ≤ 33)
    | .hbmFrame st _ => decide (st.toNat < 24)
    | .hbmRow x => decide (x.stack.toNat < 24)
    | .bridgeLane d _ _ => decide (d.toNat < 24 ∨ (32 ≤ d.toNat ∧ d.toNat < 48) ∨ (64 ≤ d.toNat ∧ d.toNat < 70))
    | .undefined _ => false
    | _ => true)

/-- The valid record copies with their places, the higher RECORD_SEQ first. -/
def State.validRecords (s : State) : List (Nat × DeviceRecord) :=
  let l := s.boot.records.zipIdx.filterMap fun x => match x.1 with
    | some r => if recordOk r then some (x.2, r) else none
    | none => none
  match l with
  | [a, b] => if a.2.recordSeq < b.2.recordSeq then [b, a] else [a, b]
  | l => l

/-- The device record in use: the valid copy whose RECORD_SEQ GLB_RECORD shows (R410, R490). -/
def State.recordUsed (s : State) : Option (Nat × DeviceRecord) :=
  s.validRecords.find? fun r => decide (r.2.recordSeq.toNat = s.fld 0x210 31 0)

/-! ### Persistent values (R403, R411) -/

/-- Whether a copy of a value checks. -/
def Stored.ok (x : Stored) : Bool := decide (x.crc = crc32c (wordsBytes x.words))

/-- The words of persistent value `i`, from the first copy of it that checks. -/
def BootFlash.value (b : BootFlash) (i : Nat) : Option (List Word) :=
  [2 * i, 2 * i + 1].findSome? fun k => match sget (fun _ => none) b.values k with
    | some x => if x.ok then some x.words else none
    | none => none

/-- Write persistent value `i`, in both copies. -/
def BootFlash.putValue (b : BootFlash) (i : Nat) (ws : List Word) : BootFlash :=
  let x : Option Stored := some ⟨ws, crc32c (wordsBytes ws)⟩
  { b with values := sset (fun _ => none) (sset (fun _ => none) b.values (2 * i) x) (2 * i + 1) x }

/-- e_GB in centijoules per GB; the factory value where boot flash holds none (R232). -/
def BootFlash.egbCj (b : BootFlash) : Nat := ((b.value 0).map fun ws => (ws.headD 0).toNat).getD Config.egbFactoryCj

/-- The last drain: its length in ms, whether it was complete, the energy per GB that it took, and whether a start has weighed that (R232,
R241). -/
def BootFlash.lastDrain (b : BootFlash) : Nat × Bool × Nat × Bool :=
  let w := fun (i : Nat) => ((b.value 1).getD []).getD i 0
  ((w 0).toNat, bit (w 1) 0, (w 2).toNat, bit (w 3) 0)

/-- Write the last-drain record. -/
def BootFlash.putDrain (b : BootFlash) (x : Nat × Bool × Nat × Bool) : BootFlash :=
  b.putValue 1 [BitVec.ofNat 64 x.1, place 0 0 (b2n x.2.1), BitVec.ofNat 64 x.2.2.1, place 0 0 (b2n x.2.2.2)]

/-- A row as a word, its fields where R408 has them. -/
def rowWord (r : HbmRow) : Word :=
  place 4 0 r.stack.toNat ||| place 7 5 1 ||| place 13 8 r.pc.toNat ||| place 21 16 r.bank.toNat ||| place 47 24 r.row.toNat

/-- The field row repairs (R411, R412). -/
def BootFlash.rows (b : BootFlash) : List HbmRow :=
  ((b.value 2).getD []).filterMap fun w => match recordEntry 2 w with
    | .hbmRow r => some r
    | _ => none

/-- Bytes of a training cache record (R413): 0 to 1,103. -/
def trainBytes (r : TrainRec) : List Byte :=
  let lane := fun (k : Nat) => sget (fun _ => ({} : LaneTrain)) r.lanes (r.stack * 512 + k)
  let fix := fun (k : Nat) => match r.repairs[k]? with
    | some x => leBytes 4 (x.1 + x.2 % 16 * 256)
    | none => leBytes 4 0
  wordsBytes [place 4 0 r.stack ||| place 15 8 (ofInt 8 r.tempC) ||| place 23 16 r.repairs.length, r.serial] ++
    (List.range 512).map (fun k => BitVec.ofNat 8 (lane k).delay) ++ (List.range 512).map (fun k => BitVec.ofNat 8 (lane k).width) ++
    (List.range 16).flatMap fix

/-- Whether a training cache record checks: at most 16 field repairs, and its CRC (R413). -/
def TrainRec.valid (r : TrainRec) : Bool := decide (r.repairs.length ≤ 16 ∧ r.crc = crc32c (trainBytes r))

/-- The bytes of the areas of boot flash with their offsets and sizes (R403). Where a persistent value stands in its area is the model's
choice (log 172). -/
def BootFlash.areas (b : BootFlash) : List (Nat × Nat × List Byte) :=
  let two := fun (f : Nat → List (Nat × Nat × List Byte)) => f 0 ++ f 1
  let config := fun (c : BootConfig) => wordsBytes [place 31 0 c.magic.toNat, place 31 0 c.seq.toNat,
    place 19 0 c.devEid.toNat ||| place 25 24 c.hostRegion.toNat ||| place 47 32 c.timeWaitMs.toNat, c.rsvModel, c.rsvCtrl,
    c.rsvPolicy, c.rsvCharge, place 31 0 c.crc.toNat]
  two (fun i => [(0x8000 * i, 0x8000, let d := b.dir.getD i {}; dirBytes d ++ wordsBytes [place 31 0 d.crc.toNat])]) ++
  two (fun i => [(0x10000 + 0x10000 * i, 0x10000, (((b.records.getD i none).map (·.bytes)).getD []))]) ++
  b.licences.zipIdx.map (fun x => (0x30000 + 4096 * x.2, 4096, (x.1.map fun l => wordsBytes l.words).getD [])) ++
  two (fun i => [(0x70000 + 0x10000 * i, 0x10000, (((b.configs.getD i none).map config).getD []))]) ++
  two (fun i => (List.range 24).map fun st => (0x90000 + 0x20000 * i + 4096 * st, 4096,
    (((sget (fun _ => none) b.training (32 * i + st)).map fun r => trainBytes r ++ leBytes 4 r.crc.toNat).getD []))) ++
  ((List.range 6).map fun k => (0xD0000 + 0x2000 * k, 0x2000,
    (((sget (fun _ => none) b.values k).map fun x => wordsBytes x.words ++ leBytes 4 x.crc.toNat).getD []))) ++
  two (fun i => [(0x1000000 + 0x1800000 * i, 0x1800000, (((b.slots.getD i none).map (·.bytes)).getD []))])

/-- A byte of boot flash: of the area that holds it, 0xFF where it is erased (R403). -/
def BootFlash.byteAt (b : BootFlash) (a : Nat) : Byte :=
  match b.areas.find? fun x => decide (x.1 ≤ a ∧ a < x.1 + x.2.1) with
  | some x => x.2.2.getD (a - x.1) 0xFF
  | none => 0xFF

/-- Entries of a record's section of the given type. -/
def recordSection (r : DeviceRecord) (t : Nat) : List RecordEntry :=
  ((r.sections.find? fun s => decide (s.1 = t)).map (·.2)).getD []

/-- A digest as the six words that hold it. -/
def digestWords (d : BitVec 384) : List Word := (List.range 6).map fun i => BitVec.ofNat 64 (d.toNat / 2 ^ (64 * i))

/-- Whether a licence is valid (R422). -/
def State.licValid (s : State) (l : Licence) : Bool :=
  decide (l.magic = 0x4C494345 ∧ l.format = 1) && l.rsvZero && l.signed &&
  (match l.kind with
   | 1 => decide (l.variant ≠ 0 ∧ l.features = 0)
   | 2 => decide (l.variant = 0 ∧ l.features &&& ~~~(3 : Word) = 0)
   | _ => false) && s.licenceKeyOk &&
  ((s.recordUsed.map fun r => decide (r.2.serial = l.serial ∧ digestWords (keyDigest r.2.identityKey) = l.keyHash)).getD false)

/-- A valid licence is in force when MIN_SEC_VERSION is at most the running SEC_VERSION (R422). -/
def State.licInForce (s : State) (l : Licence) : Bool := s.licValid l && decide (l.minSecVersion.toNat ≤ s.fld 0x8200 47 32)

/-- The variant that the licences in force set, and its LICENCE_SEQ: of the VARIANT licences in force the one with the
highest LICENCE_SEQ (R422). -/
def State.licVariant (s : State) : Nat × Nat :=
  s.boot.licences.foldl (fun a l => match l with
    | some l => if s.licInForce l && decide (l.kind = 1) && decide (a.1 = 0 ∨ a.2 < l.licenceSeq.toNat) then
        (l.variant, l.licenceSeq.toNat) else a
    | none => a) (0, 0)

/-- The features that licences in force grant (R422): bit 0 TELEMETRY, bit 1 FW_STAGING. -/
def State.licFeatures (s : State) : Word :=
  s.boot.licences.foldl (fun a l => match l with
    | some l => if s.licInForce l && decide (l.kind = 2) then a ||| l.features else a
    | none => a) 0

/-- Ports that a variant enables (R1, R3, R4): all but local ports 6 and 7 on AXP-6840-T. -/
def variantPorts (v : Nat) : Nat := if v = 2 then 0x3F3F3F3F else 0xFFFFFFFF

/-! ### Selector banks (R487) -/

/-- The selector registers. -/
def isSelector (b : Blk) (off : Nat) : Bool :=
  match b with
  | .lic => decide (off = 0x210)
  | .hdg => decide (off = 0x230)
  | .coh => decide (off = 0x208)
  | .rtr => decide (off = 0x220)
  | _ => false

/-- Key of a requester's copy of a selector; the host die's copy is the register itself. -/
def selKey (by' : Agent) (a : Nat) : Nat := match by' with
  | .hostDie => 0 | .firmware => 2 * a | .management => 2 * a + 1

/-- Where a selector is kept: COH_DOM_SEL acts device-wide on every tile's page (R296). -/
def selHome (a : Nat) : Nat :=
  match pageOf (a / 4096) with
  | some ⟨.coh, _, _⟩ => Blk.coh.base 0 + a % 4096
  | _ => a

/-- A requester's copy of the selector at register offset `a`. -/
def State.sel (s : State) (by' : Agent) (a : Nat) : Word :=
  match by' with
  | .hostDie => s.reg (selHome a)
  | _ => sget (fun _ => (0 : Word)) s.selBank (selKey by' (selHome a))

/-- Write a requester's copy of a selector. -/
def State.setSel (s : State) (by' : Agent) (a : Nat) (w : Word) : State :=
  match by' with
  | .hostDie => s.setReg (selHome a) w
  | _ => { s with selBank := sset (fun _ => (0 : Word)) s.selBank (selKey by' (selHome a)) w }

/-! ### Registers that show other state -/

/-- MAX_PCT of a tile: the latest PCT among its outstanding requests, 0 with none (R103). -/
def State.maxPct (s : State) (t : Nat) : Nat :=
  ((s.adm.reqs.filter fun r => decide (r.tile = t)).foldl
    (fun (a : Option Nat) r => match a with
      | some x => some (tmax r.pct x)
      | none => some r.pct) none).getD 0

/-- Live state of a domain. -/
def State.dom (s : State) (d : Nat) : Dom := sget (fun _ => ({} : Dom)) s.coh.doms d

/-- Write a domain's live state. -/
def State.setDom (s : State) (d : Nat) (v : Dom) : State :=
  { s with coh := { s.coh with doms := sset (fun _ => ({} : Dom)) s.coh.doms d v } }

/-- STATE field of a domain (R296). -/
def DomSt.code : DomSt → Nat
  | .unused => 0 | .quiet => 1 | .active => 2 | .down => 3

/-- Telemetry of a port and link VC. -/
def State.tel (s : State) (port vc : Nat) : Tel := sget (fun _ => ({} : Tel)) s.fab.tel (port * 8 + vc)

/-- Write telemetry. -/
def State.setTel (s : State) (port vc : Nat) (t : Tel) : State :=
  { s with fab := { s.fab with tel := sset (fun _ => ({} : Tel)) s.fab.tel (port * 8 + vc) t } }

/-- Tile faults in the last 10 s (R427, R490). -/
def State.recentFaults (s : State) : Nat :=
  min 3 (s.tileFaults.filter fun t => decide (tsub s.tick t * s.periodNs ≤ 10 ^ 10)).length

/-- Commands of ring `i` that await their final completion. -/
def State.outstanding (s : State) (i : Nat) : Nat :=
  (s.fw.journal.filter fun j => decide (j.ring = i)).length + (s.fw.held.filter fun h => decide (h.1 = i ∧ h.2.accepted = false)).length

/-- Frames of a tile in state PINNED, with their mirrors (R240). -/
def State.pinnedFrames (s : State) (t : Nat) : Nat :=
  (s.tier.fht.filter fun e =>
    decide (e.1 / 32768 / 6 = t) && (decide (e.2.st = .pinned) ||
      (decide (e.2.st = .mirror) && decide ((s.fhtOf e.2.mirrorFrame).st = .pinned)))).length

/-- Whether a page's block is in service (R484); blocks that no rule names count as in use (log 20). -/
def State.inService (s : State) (p : Page) : Bool :=
  match p.blk with
  | .eng => bit (s.reg (rOff .eng p.inst 0x200)) 8
  | .lnk => decide (s.fld 0x1208 31 0 / 2 ^ p.inst % 2 = 1)
  | .fmc => s.hasFlash
  | _ => true

/-- Whether a block does not run: a compute reset holds it (R417, R418), or the main rails are off (R15). Accesses to its pages answer with
an error. -/
def State.blockReset (s : State) (b : Blk) : Bool :=
  (!s.pins.mainPg && decide (b ≠ .mgt)) || match s.creset with
  | some c => c.asserted && !c.restarted && (match b with
    | .hdg | .xlt | .tier | .coh | .eng => true
    | _ => false)
  | none => false

/-- BLOCK_CAP of a page (R483). -/
def State.blockCap (s : State) (p : Page) : Nat :=
  match p.blk with
  | .eng => b2n (bit (s.reg (rOff .eng p.inst 0x200)) 8)
  | .lnk => s.fld 0x1208 31 0 / 2 ^ p.inst % 2
  | .fmc => b2n s.hasFlash
  | .hmc => (s.tier.retired.filter fun f => decide (f / 32768 = p.inst)).length
  | _ => 0

/-- BLK_STATUS of a page (R484). -/
def State.blkStatus (s : State) (p : Page) : Word :=
  let b := p.blk.base p.inst
  place 2 2 (b2n (decide (s.reg (b + 0x20) &&& s.reg (b + 0x28) ≠ 0))) ||| place 1 1 (b2n (bit (s.reg (b + 0x40)) 0)) |||
    place 0 0 (b2n (s.inService p))

/-- LIC_SLOT for a store slot (R491). -/
def State.licSlot (s : State) (i : Nat) : Word :=
  match (s.boot.licences.getD i none) with
  | none => 0
  | some l => place 63 32 l.licenceSeq.toNat ||| place 31 16 l.minSecVersion.toNat ||| place 4 3 l.kind |||
      place 2 2 (b2n (s.licInForce l)) ||| place 1 1 (b2n (s.licValid l)) ||| place 0 0 1

/-- Units that the claims of the current tick hold of instances under a condition. -/
def State.heldNow (s : State) (p : Res → Bool) : Nat :=
  ((s.adm.claims.filter fun c => decide (c.use' = s.tick) && p c.res).map (·.units)).sum

/-- What an aligned 64-bit read of a populated page shows agent `by'`: the register, or the state it is a view of. -/
def State.regView (s : State) (by' : Agent) (a : Nat) : Word :=
  match pageOf (a / 4096) with
  | none => 0
  | some p =>
    let o := a % 4096
    let i := p.inst
    let b := p.blk.base i
    if o = 0 then p.blkId
    else if o = 8 then p.blkCap ||| place 63 32 (s.blockCap p)
    else if o = 0x18 then s.blkStatus p
    else if o = 0x30 then 0
    else if isSelector p.blk o then s.sel by' a
    else match p.blk, o with
    | .glb, 0x220 => setBits (s.reg a) 2 1 s.recentFaults
    | .lic, 0x218 => s.licSlot (bits (s.sel by' 0x1210) 5 0)
    | .tim, 0x200 => BitVec.ofNat 64 s.instant
    | .tim, 0x208 => place 53 48 s.tim.periodQ ||| place 47 0 s.tick
    | .tim, 0x218 => setBits (s.reg a) 7 0 s.tim.ownStratum
    | .mgt, 0x218 => setBits (setBits (s.reg a) 11 9 s.island.anchors.length) 8 6 s.island.sessions
    | .fwc1, _ =>
      if o % 0x40 = 0x38 ∧ o < 0x300 then
        let k := (o - 0x200) / 0x40
        place 28 16 (s.fw.held.filter fun h => decide (h.1 = k)).length ||| place 12 0 (s.outstanding k)
      else s.reg a
    | .hdg, 0x218 => place 47 0 (s.maxPct i)
    | .hdg, 0x238 =>
      let sh := s.sharesAt s.tick i (bits (s.sel by' (b + 0x230)) 2 0)
      place 30 24 (sh.getD 3 0) ||| place 22 16 (sh.getD 2 0) ||| place 14 8 (sh.getD 1 0) ||| place 6 0 (sh.getD 0 0)
    | .xlt, 0x218 =>
      setBits (setBits (s.reg a) 45 32 (s.xlt.parked.filter fun q => decide (q.tile = i)).length) 28 16
        (s.xlt.groups.filter fun g => decide (g.tile = i)).length
    | .tier, 0x218 =>
      place 59 40 ((List.range 6).map fun j => s.stackFrames (6 * i + j)).sum ||| place 39 20 (s.pinnedFrames i) |||
        place 19 0 ((List.range 6).map fun j => s.freeFrames (6 * i + j)).sum
    | .coh, 0x210 =>
      let d := s.dom (bits (s.sel by' (Blk.coh.base 0 + 0x208)) 11 0)
      place 41 32 d.culprit.toNat ||| place 31 16 d.epoch.toNat ||| place 5 2 d.cause.toNat ||| place 1 0 d.st.code
    | .coh, 0x218 => place 47 0 (s.dom (bits (s.sel by' (Blk.coh.base 0 + 0x208)) 11 0)).downTick
    | .coh, 0x220 => place 31 0 (s.dom (bits (s.sel by' (Blk.coh.base 0 + 0x208)) 11 0)).swept
    | .coh, 0x228 =>
      place 44 32 (s.coh.recalls.filter fun r => decide (r.tile = i)).length ||| place 22 0 (s.coh.held.filter fun l => decide (l.1 = i)).length
    | .rtr, 0x218 =>
      place 38 32 (s.fab.transit.filter fun x => x.waiting && decide (x.port / 8 = i)).length |||
        place 16 0 (s.fab.routes.filter fun e => decide (e.1 / 2 ^ 21 = i) && e.2.valid).length
    | .sch, _ =>
      if 0x200 ≤ o ∧ o < 0x240 then setBits (s.reg a) 44 32 (s.floorAt (8 * i + (o - 0x200) / 8) s.tick)
      else if 0x2C0 ≤ o ∧ o < 0x300 then
        let c := s.sched (8 * i + (o - 0x2C0) / 8)
        let slt := s.reg (Table.slt.group + 0x18)
        let waits := c.next.isSome && !(bit slt 1)
        place 58 32 (if c.list.inForce then c.list.cycle else 0) ||| place 10 10 (b2n c.next.isSome) |||
          place 9 9 (b2n (!c.list.inForce)) ||| place 8 8 (b2n (bit slt 0 != waits)) |||
          place 7 0 (c.list.at' s.tim.netTime).2.2
      else s.reg a
    | .lnk, 0x228 =>
      let l := s.link i
      place 47 36 l.unacked.length ||| place 35 24 l.expect.toNat |||
        place 23 12 ((l.unacked.head?.map fun u => u.blk.seq.toNat).getD l.txNext.toNat) ||| place 11 0 l.txNext.toNat
    | .eng, 0x208 =>
      let m := s.reg (b + 0x200)
      let k := i / 34 * 32 + bits m 4 0
      if bit m 8 then
        place 46 32 (s.heldNow fun r => decide (r = .thread k)) ||| place 17 0 (s.heldNow fun r => decide (r = .engine k))
      else 0
    | .eng, 0x210 => place 11 0 (s.tier.pcache.filter fun e => decide (e.1 / 2048 = i)).length
    | _, _ =>
      if p.blk = .rtr ∧ 0x228 ≤ o ∧ o < 0x300 then
        let w := s.sel by' (b + 0x220)
        let t := s.tel (8 * i + bits w 5 3) (bits w 2 0)
        if s.portVcs (8 * i + bits w 5 3) ≤ bits w 2 0 then 0
        else if o = 0x228 then t.txPkts else if o = 0x230 then t.txBytes else if o = 0x238 then t.rxPkts
        else if o = 0x240 then t.rxBytes else if o = 0x248 then t.stall
        else if 0x280 ≤ o then t.hist.getD ((o - 0x280) / 8) 0 else 0
      else s.reg a

end Sys2Proof.Machine
end

