-- ==== Sys2Proof/Machine/Stop.lean ====
section
/-! DEFINITION. Shared operations of commands and faults: completions and journals (R389 to R391, R398), the checks that
every ring command takes (R384, R385, R446), stopping and opening admission, the discard rule (R430 to R436), firmware's
table switches (R55) and parcel bookkeeping (R47 to R49, R219). -/

namespace Sys2Proof.Machine

/-! ### Completions (R389 to R391) -/

/-- A completion entry as firmware writes it in tick `t` (R389). -/
def Cpl.words (c : Cpl) (t : Nat) : List Word :=
  [place 1 1 (b2n c.accepted) ||| place 7 4 c.faultType.toNat ||| place 15 8 c.status.toNat ||| place 23 16 c.opcode.toNat |||
     place 27 24 c.reason.toNat ||| place 63 32 c.tag.toNat,
   place 47 0 t, c.result0, c.result1]

/-- Whether completion ring `i` can take an entry now. -/
def State.cplRoom (s : State) (i : Fin 4) : Bool := s.ringOn (RingId.cpl i).cfg && !s.ringFull (.cpl i) && !s.taskDown 7

/-- Write a completion entry at HEAD; a FINAL one counts in CMDS_COMPLETED. -/
def State.putCpl (s : State) (i : Fin 4) (c : Cpl) : State :=
  let s := s.ringPut (.cpl i) (c.words s.tick)
  if c.accepted then s else s.bump .fwc 0 0x108

/-- Post a completion, or hold it when its ring is full, disabled or already has held entries: a held ACCEPTED is replaced
by a newer one of its command and dropped when the command's final completion is ready (R390). -/
def State.postCpl (s : State) (i : Fin 4) (c : Cpl) : State :=
  let mine := fun (h : Nat × Cpl) => decide (h.1 = i.val ∧ h.2.accepted = true ∧ h.2.tag = c.tag ∧ h.2.opcode = c.opcode)
  let n := (s.fw.held.filter mine).length
  let s := { s with fw := { s.fw with held := s.fw.held.filter fun h => !mine h } }
  let s := s.bumpN .fwc 0 0x118 n
  if s.cplRoom i && !(s.fw.held.any fun h => decide (h.1 = i.val)) then s.putCpl i c
  else { s with fw := { s.fw with held := s.fw.held ++ [(i.val, c)] } }.bump .fwc 0 0x110

/-- Post the held completions of ring `i` in order while the ring has room (R390, R380). -/
def State.postHeld (i : Fin 4) : Nat → State → State
  | 0, s => s
  | n + 1, s =>
    match s.fw.held.find? (fun h => decide (h.1 = i.val)) with
    | none => s
    | some h =>
      if s.cplRoom i then
        State.postHeld i n ({ s with fw := { s.fw with held := s.fw.held.erase h } }.putCpl i h.2)
      else s

/-- A ring number as a ring. -/
def ringOf (n : Nat) : Fin 4 := ⟨n % 4, Nat.mod_lt _ (by decide)⟩

/-! ### Ring commands: checks and endings (R384, R385, R391) -/

/-- End a command in the present tick: RESULT0 is I, RESULT1 as given. -/
def State.endCmd (s : State) (op : Nat) (e : Entry) (status : Nat) (r1 : Word) (reason : Nat := 0) : State :=
  s.postCpl e.ring { status := BitVec.ofNat 8 status, opcode := BitVec.ofNat 8 op, reason := BitVec.ofNat 4 reason,
                     tag := e.tag, result0 := BitVec.ofNat 64 s.tick, result1 := r1 }

/-- End a command that has no tick of effect: RESULT1 is I. -/
def State.endNow (s : State) (op : Nat) (e : Entry) (status : Nat) : State :=
  s.endCmd op e status (BitVec.ofNat 64 s.tick)

/-- Refuse a command with a retry-after tick. -/
def State.refuse (s : State) (op : Nat) (e : Entry) (retry : Nat) : State :=
  s.endCmd op e stRefused (BitVec.ofNat 64 retry)

/-- Journal a command that completes later (R398). -/
def State.journal (s : State) (op : Nat) (e : Entry) (obj : Obj) (wait : Wait) (r1 : Word) : State :=
  let j : Journal := { ring := e.ring.val, tag := e.tag, opcode := BitVec.ofNat 8 op, taken := s.tick, obj := obj, wait := wait,
                       result0 := BitVec.ofNat 64 s.tick, result1 := r1 }
  { s with fw := { s.fw with journal := s.fw.journal ++ [j] } }

/-- Journal a command whose tick of effect is `t`. -/
def State.journalTick (s : State) (op : Nat) (e : Entry) (obj : Obj) (t : Nat) : State :=
  s.journal op e obj (.tick t) (BitVec.ofNat 64 t)

/-- Take a journaled command off the journal and post its final completion. -/
def State.finish (s : State) (j : Journal) (status : Nat) (r1 : Word) : State :=
  { s with fw := { s.fw with journal := s.fw.journal.erase j } }.postCpl (ringOf j.ring)
    { status := BitVec.ofNat 8 status, opcode := j.opcode, tag := j.tag, result0 := j.result0, result1 := r1 }

/-- Complete every journaled command under a condition. -/
def State.finishAll (s : State) (p : Journal → Bool) (status : Nat) : State :=
  (s.fw.journal.filter p).foldl (fun s j => s.finish j status j.result1) s

/-- Complete the journaled commands of the given opcodes whose tick of effect has come. -/
def State.finishDue (s : State) (ops : List Nat) : State :=
  s.finishAll (fun j => ops.contains j.opcode.toNat && (match j.wait with
    | .tick t => tle t s.tick
    | _ => false)) stOk

/-- The tick of effect of a journaled command, where it is known. -/
def Wait.effect : Wait → Option Nat
  | .tick t => some t
  | .sw _ t => t
  | _ => none

/-- E of R385 for an object that an earlier command holds; where E is not yet known the retry-after is a free value
(log 3). -/
def State.busyTick (s : State) (o : Obj) : Option Nat :=
  match s.fw.journal.find? (fun j => decide (j.obj = o)) with
  | none => none
  | some j => some ((j.wait.effect).getD (Config.freeNat s.fresh % tickMod))

/-- The queries and NOP (R384 check 1). -/
def isQuery (op : Nat) : Bool := decide (op = 0x70 ∨ op = 0x71 ∨ op = 0x72)

/-- The tenant is served (R446). -/
def State.tenantActive (s : State) : Bool := decide (s.fld 0x5200 2 0 = 2)

/-- Firmware takes commands: not while a compute reset or a dead core holds it, nor after a start has stopped, nor after the drain has ended
(R235, R397, R400, R415, R418). Log 131. -/
def State.firmwareTakes (s : State) : Bool :=
  !s.rsv.dead && decide (s.fld 0x200 7 0 = 0) && !s.taskDown 0 && (match s.creset with
    | some r => !r.stopped || r.restarted
    | none => true)

/-- With one live core left firmware serves only queries, TIER_FLUSH and COMPUTE_RESET (R399). Log 75. -/
def State.served (s : State) (op : Nat) : Bool :=
  decide (2 ≤ popCount (s.fld 0x8208 7 0)) || isQuery op || decide (op = 0x60 ∨ op = 0x62)

/-- The task that runs a command (R373; DEDUCED, log 173). -/
def taskOf (op : Nat) : Nat :=
  if op = 0x10 ∨ op = 0x11 ∨ op = 0x26 ∨ op = 0x40 ∨ op = 0x41 ∨ op = 0x45 ∨ op = 0x46 then 1
  else if 0x20 ≤ op ∧ op < 0x26 then 2
  else if op = 0x42 ∨ op = 0x43 then 3
  else if op = 0x44 then 4
  else if 0x60 ≤ op ∧ op ≤ 0x62 then 5
  else if 0x30 ≤ op ∧ op ≤ 0x33 then 6
  else 0

/-- Firmware takes a command of this opcode now. -/
def State.serves (s : State) (op : Nat) : Bool := s.firmwareTakes && s.served op && !s.taskDown (taskOf op)

/-- The journal of a task: its commands whose final completion is still to come (R398). -/
def State.taskJournal (s : State) (t : Nat) : List Journal := s.fw.journal.filter fun j => decide (taskOf j.opcode.toNat = t)

/-- A command taken in this tick: it counts, takes the checks of R384 in their order and R385 (log 9), then the tenant check
of R446 where it applies, then runs. One that firmware cannot take now waits in its ring (R383, R418). Log 184. -/
def State.command (s : State) (op : Nat) (e : Entry) (wellFormed feature : Bool) (obj : Obj) (tenant : Bool)
    (k : State → State) : State :=
  if !s.serves op then { s with fw := { s.fw with waiting := s.fw.waiting ++ [(op, e)] } }
  else
  let s := s.bump .fwc 0 0x100
  if s.variant = 0 ∧ op ≠ 0 ∧ isQuery op = false then s.endNow op e stAccess
  else if !wellFormed then s.endNow op e stBadFormat
  else if !feature then s.endNow op e stAccess
  else match (if obj = .none then none else s.busyTick obj) with
    | some t => { s with fresh := s.fresh + 1 }.refuse op e t
    | none => if tenant && !s.tenantActive then s.endNow op e stTenant else k s

/-! ### Admission -/

/-- Write STOPPED and ADMIT_EN of the four Headgates; a change of STOPPED raises STOP_CHANGED (R103). -/
def State.setAdmission (s : State) (on : Bool) : State :=
  (List.range 4).foldl (fun s t =>
    let o := rOff .hdg t 0x200
    let was := bit (s.reg o) 1
    let s := s.setReg o (setBits (setBits (s.reg o) 0 0 (b2n on)) 1 1 (b2n (!on)))
    if was = !on then s else s.raise .hdg t 2) (if on then { s with rsv := { s.rsv with noGrant := false } } else s)

/-- Stop admission on all four Headgates. -/
def State.stopAdmission (s : State) : State := s.setAdmission false

/-- Whether admission is stopped. -/
def State.stopped (s : State) : Bool := bit (s.reg (rOff .hdg 0 0x200)) 1

/-- A response of the management port: OP, REQ_ID, result and body; OPS_OK or OPS_REFUSED counts (R460, R463). -/
def State.mgtAnswer (s : State) (op : Byte) (id : BitVec 16) (result : Byte) (body : List Byte) : State :=
  (s.emit (.mgt op id result body)).bump .mgt 0 (if result = 0 then 0x118 else 0x120)

/-- The RESET operation whose response is outstanding ends with a result (R460). -/
def State.endReset (s : State) (result : Byte) : State :=
  match s.island.resetPending with
  | none => s
  | some (op, id) => { s with island := { s.island with resetPending := none, busy := none } }.mgtAnswer op id result []

/-- Open admission, unless something else keeps it stopped: a drain or its end, a completed TIER_FLUSH, a compute reset or one that
failed its engine check, a release, a failed device, the TICK_SET sequence, or the want of a second live core (R399). -/
def State.openAdmission (s : State) : State :=
  if s.rsv.dead || s.rsv.flushed || s.rsv.drain.isSome || s.creset.isSome || s.tim.period.any (fun j => tle j.stopAt s.tick) ||
      decide (s.fld 0x5200 2 0 = 3) || bit (s.reg 0x220) 0 || bit (s.reg 0x218) 0 || decide (popCount (s.fld 0x8208 7 0) ≤ 1) then s
  else
    let ds := s.coh.doms.map fun e => (e.1, { e.2 with sweepHeld := false })
    ({ s with opened := true, coh := { s.coh with doms := ds } }.setAdmission true).endReset 0

/-! ### Discard (R430 to R436) -/

/-- Work that lands without its response: writes, pushes, atomics and coherent transitions (R179, R431). -/
def Work.lands : Work → Bool
  | .write .. | .push .. | .atomic .. | .coh .. => true
  | _ => false

/-- The work with its response given up. -/
def Work.silent : Work → Work
  | .write ps f _ l => .write ps f false l
  | .push x a b c r d _ l => .push x a b c r d false l
  | w => w

/-- Whether the landing of a request's work is over. -/
def Work.landed : Work → Bool
  | .write _ _ _ l => l
  | .push _ _ _ _ _ _ _ l => l
  | .atomic _ _ _ l => l
  | .coh _ _ _ _ _ _ _ _ _ _ l => l
  | _ => false

/-- A stopping event: what it hits and what its notices say (R430). -/
structure StopEvent where
  cause : Nat
  scope : Nat
  landed : Bool
  x : Nat
  send : Nat
  domain : Nat := 0
  epoch : Nat := 0
  port : Nat := 0
deriving DecidableEq, Repr

/-- Record a stopping event in GLB_DISCARD and STOP_EVENTS (R490). -/
def State.recordStop (s : State) (v : StopEvent) : State :=
  (s.setReg 0x228 (place 63 16 v.x ||| place 5 4 v.scope ||| place 3 0 v.cause)).bump .glb 0 0x120

/-- Add a discarded request to the notice of its context (R433, R434). -/
def State.noteDiscard (s : State) (v : StopEvent) (r : Req) : State :=
  let same := fun (n : Notice) => decide (n.ctx = r.ctx ∧ n.x = v.x ∧ n.cause.toNat = v.cause ∧ n.domain = v.domain ∧ n.port = v.port ∧
    n.sendTick = v.send)
  let ns := if s.adm.notices.any same then
      s.adm.notices.map fun n => if same n then
        { n with first := if later n.first r.admitTick then r.admitTick else n.first, last := tmax n.last r.admitTick } else n
    else s.adm.notices ++
      [{ ctx := r.ctx, dst := r.src, first := r.admitTick, last := r.admitTick, cause := BitVec.ofNat 4 v.cause, scope := BitVec.ofNat 2 v.scope,
         landed := v.landed, x := v.x, domain := v.domain, domEpoch := BitVec.ofNat 16 v.epoch, port := v.port,
         sendTick := v.send, epoch := r.epoch }]
  { s with adm := { s.adm with notices := ns } }

/-- The FINAL completion of a HOST_BULK (R391). -/
def State.endBulk (s : State) (ring : Nat) (tag : BitVec 32) (status moved fault : Nat) (va : Word) (reason : Nat) : State :=
  let s := { s with fw := { s.fw with journal := s.fw.journal.filter fun j => !(decide (j.ring = ring ∧ j.tag = tag ∧ j.opcode = 0x50)) } }
  s.postCpl (ringOf ring)
    { status := BitVec.ofNat 8 status, opcode := 0x50, reason := BitVec.ofNat 4 reason, tag := tag,
      faultType := BitVec.ofNat 4 fault, result0 := BitVec.ofNat 64 moved, result1 := va }

/-- A request that a stopping event has already discarded and whose landing work alone is left (R436). -/
def Req.given (r : Req) : Bool := r.work.lands && r.egress.isNone

/-- The queued packets of a request leave the egress queues (R371, R435). -/
def State.dropPackets (s : State) (rid : Nat) : State :=
  { s with fab := { s.fab with scheds := s.fab.scheds.map fun c =>
    (c.1, { c.2 with queue := c.2.queue.filter fun e => decide (e.rid ≠ some rid) }) } }

/-- Discard one outstanding request: its queued packets and later reservations go, and its context is told once (R430, R435, R436). Work that
still lands under the event stays, without its response: under a port's event all of it, else what is due to land in the discard tick
(R431; log 58). -/
def State.discardReq (s : State) (v : StopEvent) (r : Req) : State :=
  let keep := v.landed && r.work.lands && !r.work.landed && (decide (v.scope = 2) || decide (tadd r.admitTick 1 = s.tick))
  let rs := if keep then s.adm.reqs.map fun q => if q.rid = r.rid then { q with work := q.work.silent, egress := none } else q
    else s.adm.reqs.filter fun q => decide (q.rid ≠ r.rid)
  let s := { s with adm := { s.adm with reqs := rs } }
  let s := s.dropPackets r.rid
  let s := if keep then s else s.releaseAfter r.rid
  if r.given then s
  else
    let s := s.bump .hdg r.tile 0x1A0
    match r.work with
    | .hostBulk ring tag .. => s.endBulk ring tag stDiscarded r.moved 0 0 0
    | _ => s.noteDiscard v r

/-- Landing work that has no response to lose: writes and pushes that asked for none (R431). -/
def Req.silentWork (r : Req) : Bool :=
  match r.work with
  | .write _ _ a _ => !a
  | .push _ _ _ _ _ _ a _ => !a
  | _ => false

/-- Discard every outstanding request under a condition, in ascending CTXID (R434). -/
def State.discardWhere (s : State) (v : StopEvent) (p : Req → Bool) : State :=
  let l := (s.adm.reqs.filter p).mergeSort (fun a b => decide (a.ctx.toNat ≤ b.ctx.toNat))
  l.foldl (fun s r => s.discardReq v r) s

/-- End every parked descriptor under a condition with DISCARDED (R208, R435). -/
def State.discardParked (s : State) (p : Parked → Bool) : State :=
  let l := s.xlt.parked.filter p
  let s := { s with xlt := { s.xlt with parked := s.xlt.parked.filter fun q => !p q } }
  l.foldl (fun s q => match q.req.work with
    | .hostBulk ring tag .. => (s.bump .hdg q.tile 0x1A0).endBulk ring tag stDiscarded q.resume 0 0 0
    | _ => s) s

/-- A stopping event of scope ALL: admission stops, every admitted request is discarded, parked descriptors end. A write,
push or atomic without a completion is discarded like any other when it does not land (R431). -/
def State.discardAll (s : State) (v : StopEvent) : State :=
  let s := s.stopAdmission
  let s := s.recordStop v
  let s := s.discardWhere v fun _ => true
  s.discardParked fun _ => true

/-- A stopping event of scope PORT: the requests whose result is bound to the port (R350, R431). -/
def State.discardPort (s : State) (v : StopEvent) : State :=
  let s := s.recordStop v
  s.discardWhere v fun r => decide (r.egress = some v.port) && !r.silentWork

/-! ### Domains going DOWN (R292 to R294) -/

/-- Take a domain DOWN at this boundary: its work is discarded, its recalls and snoops dropped, its sweep begins (R293). The tile that has
detected the cause, if one has, counts it (R296); the event is on that tile's page, else on tile 0's (log 175). -/
def State.domainGoesDown (s : State) (d cause culprit : Nat) : State :=
  let m := s.dom d
  let v : StopEvent := { cause := 6, scope := 1, landed := false, x := s.tick, send := tadd s.tick 1, domain := d, epoch := m.epoch.toNat }
  let s := s.recordStop v
  let s := s.discardWhere v fun r => decide (r.domain = some d)
  let s := { s with coh := { s.coh with recalls := s.coh.recalls.filter fun r => decide (r.domain ≠ d) } }
  let s := s.setDom d { m with st := .down, cause := BitVec.ofNat 4 cause, culprit := BitVec.ofNat 10 culprit, downTick := s.tick,
                               poisoned := 0, goingDown := none, sweep := [0, 0, 0, 0] }
  let s := s.raise .coh (m.downTile.getD 0) 0
  match m.downTile with
  | some t => s.bump .coh t 0x158
  | none => s

/-- The DOMAIN_DOWN event of a domain, whose TICK is B (R392). -/
def State.postDown (s : State) (d : Nat) : State :=
  let m := s.dom d
  s.postEventAt m.downTick ⟨0x14, 0, 0x0010, BitVec.ofNat 64 d, place 3 0 m.cause.toNat ||| place 25 16 m.culprit.toNat⟩

/-- Note a cause for a domain to go DOWN at tick `b`; of several causes for one tick the lowest stands (R292). -/
def State.noteDown (s : State) (d b : Nat) (cause culprit : Nat) (tile : Option Nat := none) : State :=
  let m := s.dom d
  if m.st ≠ .active then s
  else match m.goingDown with
    | some (b', c, _) =>
      if later b' b ∨ (b' = b ∧ cause < c.toNat) then s.setDom d { m with goingDown := some (b, BitVec.ofNat 4 cause, BitVec.ofNat 10 culprit), downTile := tile }
      else s
    | none => s.setDom d { m with goingDown := some (b, BitVec.ofNat 4 cause, BitVec.ofNat 10 culprit), downTile := tile }

/-- A tile detects a cause in this tick: the domain goes DOWN at the next boundary, or one later when the detection falls after cycle C − 64,
which is free (R292; log 150). -/
def State.detectDown (s : State) (d cause culprit tile : Nat) : State :=
  let (late, s) := s.drawBool
  s.noteDown d (tadd s.tick (if late then 2 else 1)) cause culprit (some tile)

/-- Every ACTIVE domain goes DOWN with cause STOP; its sweep waits until admission resumes (R294). -/
def State.allDomainsDown (s : State) : State :=
  (s.coh.doms.filter fun e => decide (e.2.st = .active)).foldl (fun s e =>
    let s := ((s.setDom e.1 { s.dom e.1 with downTile := none }).domainGoesDown e.1 5 0).postDown e.1
    s.setDom e.1 { s.dom e.1 with sweepHeld := true }) s

/-! ### Firmware's table switches (R32, R34, R55) -/

/-- Write a change into the inactive bank, bringing that bank up to date with the last switch first. -/
def State.writeInactive (s : State) (w : TabWrite) : State :=
  let bank := !s.activeBank w.table
  let s := (s.fw.sync.filter fun x => decide (x.table = w.table)).foldl (fun s x => s.putEntry x.table bank x.index x.words) s
  let s := { s with fw := { s.fw with sync := s.fw.sync.filter fun x => decide (x.table ≠ w.table) } }
  s.putEntry w.table bank w.index w.words

/-- Remember an entry written for the pending switch, to be written into the old bank after it. -/
def State.gathered (s : State) (t : Table) : Bool :=
  decide (sget (fun _ => 0) s.fw.gather t.num = s.tick + 1) && s.switchPending t

/-- The block of an entry's old value, given back at OLD_FREE of the switch that replaces it (R55, R281). -/
def TabWrite.oldJob (w : TabWrite) : List FreeJob :=
  match w.old with
  | some b => [⟨b, some w.table, 0⟩]
  | none => []

/-- Change an entry of a firmware table by a switch: gathered with the tick's other changes, requested when the table is
free, deferred otherwise. Answers S where it is known (R55; log 10). -/
def State.tableChange (s : State) (w : TabWrite) : Option Nat × State :=
  if s.gathered w.table && !s.taskDown 1 then
    let s := s.putEntry w.table (!s.activeBank w.table) w.index w.words
    let s := { s with fw := { s.fw with sync := s.fw.sync ++ [w], frees := s.fw.frees ++ w.oldJob } }
    (some (s.fld (w.table.group + 0x18) 63 16), s)
  else if !s.taskDown 1 && !s.switchPending w.table && s.oldFree w.table && !(s.fw.deferred.any fun x => decide (x.table = w.table)) then
    let s := (s.writeInactive w).fwSwitch w.table
    let fw' := { s.fw with sync := s.fw.sync ++ [w], frees := s.fw.frees ++ w.oldJob, gather := sset (fun _ => 0) s.fw.gather w.table.num (s.tick + 1) }
    let s := { s with fw := fw' }
    (some (s.fld (w.table.group + 0x18) 63 16), s)
  else (none, { s with fw := { s.fw with deferred := s.fw.deferred ++ [w] } })

/-- OLD_FREE of a table has set, or TABLES runs again: the deferred changes go into one switch, scheduled from this tick, and their commands
learn S (R55, R398). -/
def State.runDeferred (s : State) (t : Table) : State :=
  if s.taskDown 1 then s else
  let l := s.fw.deferred.filter fun w => decide (w.table = t)
  let s := { s with fw := { s.fw with deferred := s.fw.deferred.filter fun w => decide (w.table ≠ t) } }
  l.foldl (fun s w =>
    match s.tableChange w with
    | (some S, s) =>
      let js := s.fw.journal.map fun j =>
        if decide (j.ring = w.ring ∧ j.tag = w.tag ∧ j.wait = .sw t none) then
          { j with wait := .sw t (some S), result1 := j.result1 ||| BitVec.ofNat 64 S } else j
      { s with fw := { s.fw with journal := js } }
    | (none, s) => s) s

/-! ### Parcels (R44, R46 to R49, R219) -/

/-- Parcels that may be allocated (R44, R66). -/
def State.totalParcels (s : State) : Nat := s.fld 0x7310 31 0

/-- Parcels that are not allocated; one whose freeing has not taken effect yet is not (R49, R66; DEDUCED, log 169). -/
def State.parcelsFree (s : State) : Nat := s.totalParcels - s.tier.parcels.length

/-- The lowest parcel number that no entry holds. -/
def lowestFree : List (Nat × ParcelOwner) → Nat → Nat
  | [], n => n
  | e :: r, n => if e.1 = n then lowestFree r (n + 1) else if e.1 < n then lowestFree r n else n

/-- Firmware's choice of a free parcel (R50): the free value where it names a free one, else the lowest (log 4). -/
def State.takeParcel (s : State) (ext i : Nat) : Nat × State :=
  let prop := Config.parcelChoice s.fresh % (max 1 s.totalParcels)
  let p := if s.tier.parcels.any (fun e => decide (e.1 = prop)) then lowestFree s.tier.parcels 0 else prop
  (p, { s with fresh := s.fresh + 1,
               tier := { s.tier with parcels := sset (fun _ => ({} : ParcelOwner)) s.tier.parcels p ⟨ext, i, true⟩ } })

/-- The set bits of a stack mask, in order. -/
def maskStacks (m : Nat) : List Nat := (List.range 24).filter fun i => decide (m / 2 ^ i % 2 = 1)

/-- Home stack of parcel `i` (R47). -/
def homeStack (m start i : Nat) : Nat :=
  let l := maskStacks m
  l.getD ((l.findIdx (· = start) + i) % max 1 l.length) 0

/-- START_STACK where the driver names none: the stack with the most free frames, on a tie firmware's choice (R47, log 4). -/
def State.startStack (s : State) : Nat × State :=
  let n := (List.range 24).foldl (fun a st => max a (s.freeFrames st)) 0
  let l := (List.range 24).filter fun st => decide (s.freeFrames st = n)
  (l.getD (Config.stackChoice s.fresh % max 1 l.length) 0, { s with fresh := s.fresh + 1 })

/-- Parcels of an extent with their indices, as firmware's working data holds them. -/
def State.extParcels (s : State) (x : Nat) : List (Nat × Nat) :=
  (s.tier.parcels.filter fun e => decide (e.2.ext = x ∧ e.2.allocated = true)).map fun e => (e.2.index, e.1)

/-- Extents that hold parcels. -/
def State.liveExtents (s : State) : List Nat :=
  ((s.tier.parcels.filter fun e => e.2.allocated).map fun e => e.2.ext).dedup

/-- Frame full of zero lines with the given FORMAT and MIRROR flag, each with a fresh CRC (R141) under the tag of its parcel, none for a
directory frame. -/
def State.zeroFrame (s : State) (f fmt : Nat) (mirror : Bool) (parcel : Option Nat) : State :=
  let lo := f * 2 ^ 21
  let hi := lo + 2 ^ 21
  let m := fun (l : Nat) => ({ format := BitVec.ofNat 4 fmt, mirror := mirror, tag := parcel.map fun p => poolTag p l } : LineMeta)
  let cells := s.hbm.filter fun c => decide (c.1 < lo ∨ hi ≤ c.1)
  let ms := if m 0 = ({} : LineMeta) then [] else (List.range 8192).map fun i => (f * 8192 + i, m i)
  let meta'' := (s.lmeta.filter fun e => decide (e.1 < f * 8192)) ++ ms ++ (s.lmeta.filter fun e => decide (f * 8192 + 8192 ≤ e.1))
  let dirs := s.coh.dirs.filter fun c => decide (c.line / 8192 ≠ f)
  { s with hbm := cells, lmeta := meta'', coh := { s.coh with dirs := dirs } }.bumpN .hmc (f / 32768) 0x108 8192

/-- Every line of a frame in one state. -/
def State.fillLsm (s : State) (f : Nat) (v : LineSt) : State :=
  let ms := if v = .absent then [] else (List.range 8192).map fun i => (f * 8192 + i, v)
  let l := (s.tier.lsm.filter fun e => decide (e.1 < f * 8192)) ++ ms ++ (s.tier.lsm.filter fun e => decide (f * 8192 + 8192 ≤ e.1))
  { s with tier := { s.tier with lsm := l } }

/-- Give a parcel a PINNED frame of zero lines (R220, R278): no frame left, no change. -/
def State.pinZero (s : State) (p st fmt : Nat) (assured : Bool) : State :=
  match s.giveFrame p st assured s.tick .pinned with
  | none => s
  | some s =>
    match s.frameOf p with
    | none => s
    | some f =>
      let s := s.zeroFrame f fmt false (some p)
      let s := if assured then s.zeroFrame (s.fhtOf f).mirrorFrame fmt true (some p) else s
      if s.hasFlash then s.fillLsm f .clean else s

/-- Release a parcel's frame and flash backing, and its PKT entry, whose invalidation takes effect two ticks on; the parcel is
reused only after that (R49, R219). -/
def State.dropParcel (s : State) (p : Nat) : State :=
  let s := s.freeFrame p
  let gs := s.tier.fgroups.filter fun e => decide (e.1 / 512 ≠ p)
  let t' := { s.tier with
    fgroups := gs
    lost := s.tier.lost.filter fun l => decide (l.1 ≠ p)
    fetches := s.tier.fetches.filter fun f => decide (f.parcel ≠ p)
    programs := s.tier.programs.filter fun f => decide (f.parcel ≠ p)
    stripes := s.tier.stripes.map fun x => { x with waiting := x.waiting.map fun w => (w.1, w.2.filter fun r => decide (r.parcel ≠ p)) }
    parcels := sset (fun _ => ({} : ParcelOwner)) s.tier.parcels p ⟨0, tadd s.tick 2, false⟩ }
  let s := { s with tier := t' }
  let s := s.changeLive .pkt p [0] (tadd s.tick 2)
  s.invalidate .pkt p 1

/-- Tick at which an entry of the stale list stops being seen, if firmware invalidates it now. -/
def State.effectTick (s : State) : Nat := tadd s.tick 2

/-- Change an EXTT entry in place in both banks and invalidate it: in effect two ticks on (R50). -/
def State.changeExtt (s : State) (x : Nat) (e : Extt) : State :=
  (s.changeLive .extt x e.words s.effectTick).invalidate .extt x 1

/-- The drain of R58 that an extent has pending, if any. -/
def State.drainOf (s : State) (x : Nat) : Option DrainJob := s.tier.drains.find? fun j => decide (j.ext = x)

/-- Latest PCT among the outstanding requests, device-wide (R58); none with no request. -/
def State.latestPct (s : State) : Option Nat :=
  s.adm.reqs.foldl (fun (a : Option Nat) r => match a with
    | some x => some (tmax r.pct x)
    | none => some r.pct) none

/-- Set the drain ticks of the drains whose boundary B begins now: D = max(B, M + 1) (R58). -/
def State.setDrainTicks (s : State) : State :=
  let d := match s.latestPct with
    | some m => tmax (tadd m 1) s.tick
    | none => s.tick
  { s with tier := { s.tier with drains := s.tier.drains.map fun j => if j.due = none ∧ tle j.b s.tick = true then { j with due := some d } else j } }

end Sys2Proof.Machine
end

