-- ==== Sys2Proof/Machine/Egress.lean ====
section
/-! DEFINITION. Packets that leave: egress queues, replies and their allowance (R310, R311, R356, R365, R366), route choice
(R312 to R315) and the transit filter (R63, R64, R320). -/

namespace Sys2Proof.Machine

/-! ### Identity and virtual channels (R297, R315, R322) -/

/-- DEV_EID (R297). -/
def State.devEid (s : State) : BitVec 20 := BitVec.ofNat 20 (s.fld (rOff .rtr 0 0x200) 19 0)

/-- RSP_VC: header VC of responses and replies. -/
def State.rspVc (s : State) : Nat := s.fld (rOff .rtr 0 0x208) 10 8

/-- SNP_VC: header VC of snoops. -/
def State.snpVc (s : State) : Nat := s.fld (rOff .rtr 0 0x208) 14 12

/-- A device register of the tile's RTR page counts and sets an event. -/
def State.rtrCount (s : State) (tile c ev : Nat) : State := (s.bump .rtr tile c).raise .rtr tile ev

/-! ### Egress queues (R365, R316) -/

/-- Put a packet into a port's egress queue, tagged with the tenant epoch of its decision (R454): that of its request, or the
current one. -/
def State.enqueue (s : State) (p : Nat) (e : EgressPkt) : State :=
  let ep := if e.rid.isSome then e.epoch else BitVec.ofNat 32 (s.fld 0x5200 63 32)
  let e := { e with order := s.fab.order, entered := s.tick, epoch := ep }
  let s := { s with fab := { s.fab with order := s.fab.order + 1 } }
  let c := s.sched p
  s.setSched p { c with queue := c.queue ++ [e] }

/-- A packet of the control service. -/
def ctrlPkt (pkt : Packet) (cls : PktClass) (n : Nat) (rid : Option Nat := none) : EgressPkt :=
  { pkt := pkt, cls := cls, service := 7, leaf := 0, linkVc := pkt.vc.toNat % n, use' := 0, seg := 0, order := 0, epoch := 0,
    rid := rid, last := true, entered := 0 }

/-- Queue a control-service packet. -/
def State.sendCtrl (s : State) (p : Nat) (pkt : Packet) (cls : PktClass) : State :=
  s.enqueue p (ctrlPkt pkt cls (s.portVcs p))

/-! ### Replies (R99, R307, R310, R311, R356) -/

/-- A compute reset holds the Headgates (R319, R417). -/
def State.inComputeReset (s : State) : Bool := match s.creset with
  | some c => c.stopped || c.asserted
  | none => false

/-- The reply allowance of a port per tick (R356). -/
def State.replyAllowance (s : State) (p : Nat) : Nat :=
  min (s.perTick (s.replyPerUs p)) (s.floorAt p s.tick - s.perTick (s.replayPerUs p))

/-- The filter's share of it. -/
def State.filterShare (s : State) (p : Nat) : Nat := min (s.perTick (s.filterPerUs p)) (s.replyAllowance p / 2)

/-- Decision replies that the port may still cause in this tick; in a compute reset the full allowance (R319). -/
def State.replyRoom (s : State) (p : Nat) : Bool :=
  let lim := if s.inComputeReset then s.replyAllowance p - (s.sched p).filterReplies else s.replyAllowance p - s.filterShare p
  decide ((s.sched p).replies < lim)

/-- Whether the filter may send one more reply. -/
def State.filterRoom (s : State) (p : Nat) : Bool :=
  decide ((s.sched p).filterReplies < s.filterShare p) &&
    (!s.inComputeReset || decide ((s.sched p).replies + (s.sched p).filterReplies < s.replyAllowance p))

/-- Send a reply on the port on which its request arrived; a port that is not UP sends none (R350). -/
def State.sendReply (s : State) (p : Nat) (pkt : Packet) (filter : Bool := false) : State :=
  if s.linkState p ≠ 4 then s
  else
    let c := s.sched p
    let s := s.setSched p (if filter then { c with filterReplies := c.filterReplies + 1 } else { c with replies := c.replies + 1 })
    (s.bump .rtr (p / 8) 0x170).sendCtrl p pkt .reply

/-- A STATUS packet (R307): retry-after and reason only when REFUSED. -/
def State.statusPkt (s : State) (dst src : BitVec 20) (ctx : BitVec 16) (tag : BitVec 12) (status retry reason : Nat) : Packet :=
  let w := if status = stRefused then retry % tickMod + reason * 2 ^ 48 else 0
  mkPacket dst src ctx 0x21 s.rspVc true tag (respField status s.tick 0 true) (leBytes 8 w) []

/-- Answer a packet that arrived on port `p` with a status. -/
def State.answer (s : State) (p : Nat) (q : Packet) (status : Nat) (retry : Nat := 0) (reason : Nat := 0) : State :=
  s.sendReply p (s.statusPkt q.src s.devEid q.ctxid q.tag status retry reason)

/-- Retry-after of a reason decided in this tick, PREFETCH apart (R100). -/
def State.retryOf (s : State) (reason : Nat) : Nat :=
  if reason = 0xF then 0 else if reason = 0xE then tadd s.tick 512 else if reason = 0xD then s.prefetchRetry s.tick else tadd s.tick 1

/-- Count a refusal on the HDG page of the tile that decides it (R103). -/
def State.countRefusal (s : State) (tile p : Nat) (ctx : BitVec 16) (reason : Nat) : State :=
  let s := (s.bump .hdg tile 0x118).bump .hdg tile (0x118 + 8 * reason)
  let s := s.setReg (rOff .hdg tile 0x220) (place 63 48 ctx.toNat ||| place 47 0 s.tick)
  let s := s.setReg (rOff .hdg tile 0x228) (place 8 4 p ||| place 3 0 reason)
  if reason = 0xC then s.raise .hdg tile 1 else s

/-- Refuse a packet with a reason. -/
def State.refusePkt (s : State) (tile p : Nat) (q : Packet) (reason : Nat) : State :=
  (s.countRefusal tile p q.ctxid reason).answer p q stRefused (s.retryOf reason) reason

/-! ### Choosing a port (R314) -/

/-- Blocks queued on a port for a link VC. -/
def State.qDepth (s : State) (p vc : Nat) : Nat :=
  (((s.sched p).queue.filter fun e => decide (e.linkVc = vc)).map fun e => blocksOf e.pkt.payload.length).sum

/-- The usable candidates of an entry for a packet that arrived on `arr`, none for a packet of the device (R314). -/
def State.usable (s : State) (r : Rtt) (arr : Option Nat) : List Nat :=
  r.cands.filter fun p => s.portUp p && decide (arr ≠ some p)

/-- Link VC of a transit packet on port `p` (R315). -/
def State.transitVc (s : State) (r : Rtt) (vc p : Nat) : Nat := r.vc vc % s.portVcs p

/-- The choice of R314 among usable candidates: the first for ordered packets; otherwise the last choice `l` unless another is
better by more than HYST; the least depth, the earlier on a tie. -/
def State.choose (s : State) (r : Rtt) (ordered : Bool) (vc : Nat) (l : Option Nat) (ok : List Nat) (tile : Nat) : Option Nat :=
  let q := fun p => s.qDepth p (s.transitVc r vc p)
  let hyst := s.fld (rOff .rtr tile 0x208) 7 0
  if ordered then ok.head?
  else
    match l with
    | some l =>
      if ok.contains l && ok.all (fun p => decide (p = l ∨ q l ≤ q p + hyst)) then some l
      else (ok.foldl (fun (a : Option Nat) p => match a with
        | some b => if q p < q b then some p else a
        | none => some p) none)
    | none => (ok.foldl (fun (a : Option Nat) p => match a with
        | some b => if q p < q b then some p else a
        | none => some p) none)

/-- Key of the cached entry of a slice: tile, bank bit, EID (R30, R313). -/
def memoKey (tile : Nat) (bank : Bool) (eid : BitVec 20) : Nat := (tile * 2 + b2n bank) * 2 ^ 20 + eid.toNat

/-- A slice's cached entry of a bank. -/
def State.memo (s : State) (tile : Nat) (bank : Bool) (eid : BitVec 20) : RouteMemo :=
  sget (fun _ => ({} : RouteMemo)) s.fab.routes (memoKey tile bank eid)

/-- Write a slice's cached entry of a bank. -/
def State.setMemo (s : State) (tile : Nat) (bank : Bool) (eid : BitVec 20) (m : RouteMemo) : State :=
  { s with fab := { s.fab with routes := sset (fun _ => ({} : RouteMemo)) s.fab.routes (memoKey tile bank eid) m } }

/-- First usable candidate of the active route of an EID, for packets the device originates (R314, R434). -/
def State.firstUsable (s : State) (eid : BitVec 20) : Option Nat :=
  if eid = 0xFFFFF then none
  else
    let r := s.rtt (s.activeBank .rtt) eid.toNat
    if r.valid then (s.usable r none).head? else none

/-! ### The transit filter (R63, R64, R320) -/

/-- The extents that a pool request names, and whether it writes; none when its payload is too short (R320). -/
def filterNames (p : Packet) : Option (List Nat × Bool) :=
  let n := p.payload.length
  let ext := fun i => bits (p.word i) 61 44
  match p.opcode.toNat with
  | 1 => if n < 8 then none else some ([ext 0], false)
  | 2 => if n < 8 then none else some ([ext 0], true)
  | 3 =>
    let i := bits (p.word 0) 6 0
    if n < 8 then none
    else if i ≠ 0 then some ([], false)
    else
      let b := p.payload.drop 8
      if b.length < 8 ∨ b.length < batchQueryAt b then none else some ((batchTables b).map (·.ext), false)
  | 4 => if n < 8 then none else some ([bits (p.word 0) 17 0], true)
  | 5 => if n < 8 then none else some ([bits (p.word 0) 17 0], true)
  | 6 => if n < 8 then none else some ([ext 0], true)
  | 7 => if n < 16 then none else some ([ext 0, ext 1], true)
  | 8 =>
    let m := bits (p.word 0) 19 16
    if n < 16 then none else some ([ext 1], decide (1 ≤ m ∧ m ≤ 4))
  | _ => some ([], false)

/-- Whether a transit packet passes the filter (R64): every named extent matches some entry of its bucket. -/
def State.filterPass (s : State) (p : Packet) (bank : Bool) : Bool :=
  let op := p.opcode.toNat
  if op < 1 ∨ 8 < op then true
  else
    match filterNames p with
    | none => false
    | some (xs, wr) =>
      let b := tftBucket p.dst.toNat p.src.toNat
      let es := (List.range 4).map fun i => s.entry .tft bank (4 * b + i)
      xs.all fun x => es.any fun e => tftAllows (e.getD 0 0) (e.getD 1 0) p.dst.toNat p.src.toNat x wr

/-! ### Sending a transit packet on (R314, R315, R354) -/

/-- Service of a transit link VC on a port (R354): 7 acts as 6. -/
def State.transitSvc (s : State) (p vc : Nat) : Nat :=
  min 6 (s.fld (rOff .sch (p / 8) (0x280 + p % 8 * 8)) (3 * vc + 2) (3 * vc))

/-- The bytes of a transit packet find room on the link from its port's tile: what the link carries in the tick less what is reserved (R17, R317;
what control traffic takes of the rest is left out, log 32). -/
def State.crossFits (s : State) (a b n : Nat) : Bool :=
  decide (a = b) ||
    let reserved := ((s.adm.claims.filter fun c => decide (c.use' = s.tick ∧ c.res = .link a b)).map (·.units)).sum
    decide (sget (fun _ => 0) s.fab.crossed (4 * a + b) + n + reserved ≤ 600000 * s.tim.periodQ)

/-- A transit packet crosses from one tile to another. -/
def State.cross (s : State) (a b n : Nat) : State :=
  if a = b then s
  else { s with fab := { s.fab with crossed := sset (fun _ => 0) s.fab.crossed (4 * a + b) (sget (fun _ => 0) s.fab.crossed (4 * a + b) + n) } }

/-- Queue a transit packet on port `p`. -/
def State.forwardOn (s : State) (tile p vc : Nat) (pkt : Packet) (stomped : Bool) : State :=
  let s := (s.bump .rtr tile 0x100).bumpN .rtr tile 0x108 (20 + pkt.payload.length)
  s.enqueue p { pkt := pkt, cls := .transit, service := s.transitSvc p vc, leaf := 65536 + vc, linkVc := vc, use' := 0, seg := 0,
                order := 0, epoch := 0, rid := none, last := true, entered := 0, stomped := stomped }

end Sys2Proof.Machine
end

