-- ==== Sys2Proof/Machine/LinkOps.lean ====
section
/-! DEFINITION. Operations of the link layer and its state machine: link blocks (R327 to R331), NAK and replay (R332 to
R337), flow control (R338 to R341), and the transitions of R344 to R350. -/

namespace Sys2Proof

/-- The link header word of a block with the given CRC field (R327). -/
def Block.header (b : Block) (crc : Nat) : Nat :=
  b.seq.toNat + b.ack.toNat * 2 ^ 12 + b.vc.toNat * 2 ^ 24 + Machine.b2n b.sop * 2 ^ 27 + b.type.toNat * 2 ^ 28 +
    b.poison.toNat * 2 ^ 32 + b.xoff.toNat * 2 ^ 34 + crc * 2 ^ 48

/-- The CRC the block should carry: over all 256 bytes with bytes 6 and 7 zero (R329). -/
def Block.goodCrc (b : Block) : BitVec 16 := Machine.crc16 (Machine.leBytes 8 (b.header 0) ++ b.body)

/-- Whether the block passes its CRC. -/
def Block.crcOk (b : Block) : Bool := decide (b.crc = b.goodCrc)

/-- Body word `i`. -/
def Block.word (b : Block) (i : Nat) : Word := Machine.wordAt b.body i

end Sys2Proof

namespace Sys2Proof.Machine

/-! ### Domain entries (R280, R281), for the LINK cause of R292 -/

/-- A DOMT entry. -/
structure Domt where
  valid : Bool
  epoch : Nat
  members : Nat
  timeout : Nat
  memBase : Nat
  quota : Nat
deriving DecidableEq, Repr

/-- Decode a DOMT entry. -/
def domtOf (ws : List Word) : Domt :=
  let w0 := ws.getD 0 0
  let t := bits w0 55 48
  let q := bits (ws.getD 2 0) 15 0
  { valid := bit w0 0, epoch := bits w0 31 16, members := bits w0 42 32, timeout := if t = 0 then 8 else t,
    memBase := bits (ws.getD 1 0) 51 12 * 4096, quota := if q = 0 then 64 else q }

/-- A domain's entry as a request bound to `banks` reads it. -/
def State.domt (s : State) (banks : BitVec 8) (d : Nat) : Domt := domtOf (s.entry .domt (boundBank banks .domt) d)

/-- EID of member `m` of a domain, when valid (R281). -/
def State.member (s : State) (d : Domt) (m : Nat) : Option (BitVec 20) :=
  let v := leNat (s.readRegion (d.memBase + 4 * m) 4)
  if m < d.members ∧ v / 2 ^ 31 % 2 = 1 then some (BitVec.ofNat 20 v) else none

/-! ### Figures of a port -/

/-- REPLAY_N in force (R336). -/
def State.replayN (s : State) (p : Nat) : Nat := let n := bits (s.linkCfg p) 7 4; if n = 0 then 4 else n

/-- Code of this end's VC_COUNT (R338). -/
def State.vcCode (s : State) (p : Nat) : Nat := let n := bits (s.linkCfg p) 1 0; if n = 0 then 2 else n

/-- WIDTH code of a number of lanes. -/
def widthCode (w : Nat) : Nat := if w = 2 then 1 else if w = 4 then 2 else if w = 8 then 3 else 0

/-- The first lane group of R325 within a mask. -/
def laneGroup (m : Byte) : Option Byte :=
  ([0xFF, 0x0F, 0xF0, 0x03, 0x0C, 0x30, 0xC0] : List Byte).find? fun g => decide (m &&& g = g)

/-- Lanes of a mask. -/
def laneCount (m : Byte) : Nat := ((List.range 8).filter fun i => m.getLsbD i).length

/-- REPLAY_TMO_NS. -/
def State.replayTmo (s : State) (p : Nat) : Nat := s.fld (rOff .lnk p 0x218) 47 32

/-- Occupancy of a VC: blocks held ahead of a gap, of incomplete packets, and of packets that wait for their next hop or
their intake queue (R339). -/
def State.occupancy (s : State) (p vc : Nat) : Nat :=
  let l := s.link p
  (l.held.filter fun b => decide (b.vc.toNat = vc)).length +
    ((l.partials.filter fun x => decide (x.vc = vc)).map fun x => x.poison.length).sum +
    ((s.fab.transit.filter fun t => decide (t.port = p ∧ t.vc = vc)).map fun t => blocksOf t.pkt.payload.length).sum +
    ((s.adm.ingress.filter fun w => decide (w.1 = p ∧ w.2.1 = vc)).map fun w => blocksOf w.2.2.payload.length).sum

/-- XOFF_OUT after the occupancies as they stand: raised at XOFF_TH, cleared below XON_TH (R341). -/
def State.xoffNow (s : State) (p : Nat) : Nat :=
  let o := rOff .lnk p 0x220
  let old := s.fld o 55 48
  ((List.range (s.portVcs p)).map fun v =>
    let n := s.occupancy p v
    if s.fld o 27 16 ≤ n then 2 ^ v else if n < s.fld o 43 32 then 0 else old / 2 ^ v % 2 * 2 ^ v).sum

/-- Bring XOFF_OUT up to date. -/
def State.updateXoff (s : State) (p : Nat) : State := s.setFld (rOff .lnk p 0x220) 55 48 (s.xoffNow p)

/-! ### Blocks that leave (R327) -/

/-- A block of this end with the ACK and XOFF of the moment and its CRC. -/
def State.mkBlock (s : State) (p type vc : Nat) (sop : Bool) (seq : BitVec 12) (poison : BitVec 2) (body : List Byte) : Block :=
  let b : Block := { seq := seq, ack := (s.link p).expect - 1, vc := BitVec.ofNat 3 vc, sop := sop, type := BitVec.ofNat 4 type,
                     poison := poison, xoff := BitVec.ofNat 8 (s.fld (rOff .lnk p 0x220) 55 48), crc := 0,
                     body := (body ++ List.replicate (248 - body.length) 0).take 248 }
  { b with crc := b.goodCrc }

/-- Send a block. -/
def State.sendBlock (s : State) (p : Nat) (b : Block) : State := (s.emit (.block p b)).bump .lnk p 0x100

/-- Send a CTRL message (R347). Log 23. Log 63. -/
def State.sendCtl (s : State) (p cmsg : Nat) (lanes : Byte) (ok : Bool) (stamp : Word) : State :=
  let w := place 7 0 cmsg ||| place 27 8 s.devEid.toNat ||| place 29 28 (s.vcCode p) ||| place 37 30 lanes.toNat |||
    place 38 38 (b2n ok) ||| place 55 48 1
  s.sendBlock p (s.mkBlock p 3 0 false (s.link p).txNext 0 (wordsBytes [w, stamp]))

/-- Missing blocks known to this end: gaps below a held block, a block named by a header, or an earlier NAK (R333). -/
def Link.missing (l : Link) (seen : Option (BitVec 12)) : List (BitVec 12) :=
  let top := ((l.held.map fun b => (b.seq - l.expect).toNat) ++ (l.nakSent.map fun n => (n.1 - l.expect).toNat + 1) ++
    (seen.toList.map fun q => (q - l.expect).toNat)).foldl (fun a d => if d ≤ 2048 then max a d else a) 0
  ((List.range top).map fun i => l.expect + BitVec.ofNat 12 i).filter fun q => !(l.held.any fun b => decide (b.seq = q))

/-- Send a NAK for the missing blocks whose last NAK is REPLAY_TMO_NS old (R333). -/
def State.sendNak (s : State) (p : Nat) (seen : Option (BitVec 12)) (ns : Nat) : State :=
  let l := s.link p
  let tmo := s.replayTmo p
  let due := (l.missing seen).filter fun q => decide ((q - l.expect).toNat < 256) &&
    !(l.nakSent.any fun n => decide (n.1 = q ∧ ns < n.2 + tmo))
  if due.isEmpty then s
  else
    let map := (due.map fun q => 2 ^ (q - l.expect).toNat).sum
    let body := wordsBytes ([BitVec.ofNat 64 l.expect.toNat, BitVec.ofNat 64 map, BitVec.ofNat 64 (map / 2 ^ 64),
      BitVec.ofNat 64 (map / 2 ^ 128), BitVec.ofNat 64 (map / 2 ^ 192)])
    let s := (s.sendBlock p (s.mkBlock p 2 0 false l.txNext 0 body)).bump .lnk p 0x128
    s.setLink p { l with nakSent := (l.nakSent.filter fun n => !(due.contains n.1)) ++ due.map fun q => (q, ns) }

/-- Take the ACK and XOFF of a good block: acknowledged blocks are freed; an ACK that names none is ignored (R335, R341). -/
def State.takeAck (s : State) (p : Nat) (b : Block) : State :=
  let l := s.link p
  let i := l.unacked.findIdx fun u => decide (u.blk.seq = b.ack)
  let s := if i < l.unacked.length then
      s.setLink p { l with unacked := l.unacked.drop (i + 1) } else s
  s.setFld (rOff .lnk p 0x220) 63 56 b.xoff.toNat

/-! ### Entering and leaving states (R345, R350) -/

/-- The image of LNK_STATE. -/
def State.linkImage (s : State) (p : Nat) : Word := s.reg (rOff .lnk p 0x210)

/-- Complete the LNK_CMD that waits for port `p` (R386). -/
def State.finishPort (s : State) (p : Nat) : State :=
  (s.fw.journal.filter fun j => decide (j.wait = .port p)).foldl (fun s j => s.finish j stOk (s.linkImage p)) s

/-- Firmware's LINK_CHANGE event (R392). Log 59. -/
def State.linkChange (s : State) (p : Nat) : State :=
  s.postEvent ⟨BitVec.ofNat 8 (Blk.code .lnk), BitVec.ofNat 8 p, 0x0020, BitVec.ofNat 64 p, s.linkImage p⟩

/-- Set STATE; the TRAIN and RETRAIN bits fall when the port leaves those states (R351). -/
def State.setLinkState (s : State) (p st : Nat) : State :=
  let old := s.linkState p
  let s := if old = 2 ∧ st ≠ 2 then s.setFld (rOff .lnk p 0x208) 0 0 0 else s
  let s := if old = 5 ∧ st ≠ 5 then s.setFld (rOff .lnk p 0x208) 1 1 0 else s
  s.setFld (rOff .lnk p 0x210) 2 0 st

/-- Record LAST_CAUSE (R346). -/
def State.setCause (s : State) (p c : Nat) : State := s.setFld (rOff .lnk p 0x210) 43 40 c

/-- The packet that an incomplete reception has brought so far, its payload padded with zeros to LENGTH (R330, R331). -/
def partialPacket (x : RxPartial) : Packet :=
  let w0 := wordAt x.bytes 0
  let w1 := wordAt x.bytes 1
  let n := bits w1 13 0
  let pay := (x.bytes.drop 16).take n
  { dst := BitVec.ofNat 20 (bits w0 19 0), src := BitVec.ofNat 20 (bits w0 39 20), ctxid := BitVec.ofNat 16 (bits w0 55 40),
    opcode := BitVec.ofNat 8 (bits w0 63 56), length := BitVec.ofNat 14 n, vc := BitVec.ofNat 3 (bits w1 16 14),
    ordered := bit w1 17, poisoned := bit w1 18, tag := BitVec.ofNat 12 (bits w1 31 20), osf := BitVec.ofNat 32 (bits w1 63 32),
    payload := pay ++ List.replicate (n - pay.length) 0, segPoison := 0, endCrc := 0, rsv := bit w1 19 }

/-- A transit packet whose ingress fails before it has arrived whole: when its head has already left, the egress port pads it
and sends the complemented end CRC (R331). Whether the head has left is a free choice (log 3). -/
def State.stompPartial (s : State) (p : Nat) (x : RxPartial) : State :=
  let k := partialPacket x
  if k.dst = s.devEid ∨ k.dst = 0xFFFFF ∨ 8192 < k.length.toNat then s
  else
    let bank := s.activeBank .rtt
    let r := s.rtt bank k.dst.toNat
    let l := s.memo (p / 8) bank k.dst
    let o := if r.valid && (!r.filter || s.filterPass k (s.activeBank .tft)) then
        s.choose r k.ordered x.vc (if l.valid then some l.last else none) (s.usable r (some p)) (p / 8)
      else none
    match o with
    | none => s
    | some e =>
      let (head, s) := s.drawBool
      if head then
        let k := { k with endCrc := ~~~k.goodCrc }
        (s.forwardOn (p / 8) e (s.transitVc r x.vc e) k true).bump .lnk e 0x158
      else s

/-- Domains whose member lost its last candidate port in this tick go DOWN at the next boundary with cause LINK, or one later (R292,
R318). -/
def State.linkCause (s : State) (p : Nat) : State :=
  (s.coh.doms.filter fun e => decide (e.2.st = .active)).foldl (fun s e =>
    let d := s.domt s.banks e.1
    let lost := (List.range d.members).find? fun m => match s.member d m with
      | some eid =>
        let r := s.rtt (s.activeBank .rtt) eid.toNat
        r.cands.contains p && r.cands.all (fun q => !s.portUp q)
      | none => false
    match lost with
    | some m => s.detectDown e.1 2 m (p / 8)
    | none => s) s

/-- A port leaves UP (R350): the work bound to it is discarded, its transit and replies are dropped, and its replay, held and
incomplete blocks go. Its next state is set by the caller before the domains are looked at. Log 61. -/
def State.leaveUp (s : State) (p cause next : Nat) : State :=
  let l := s.link p
  let s := (s.setCause p cause).raise .lnk p 1
  let s := (s.setLinkState p next).setFld (rOff .lnk p 0x210) 3 3 0
  let s := l.partials.foldl (fun s x => s.stompPartial p x) s
  let q := (s.sched p).queue
  let nTransit := (q.filter fun e => decide (e.cls = .transit)).length
  let keep := q.filter fun e => decide (e.cls = .notice ∨ e.cls = .snoop ∨ e.cls = .beacon)
  let s := s.setSched p { s.sched p with queue := keep }
  let s := if nTransit = 0 then s else (s.bumpN .rtr (p / 8) 0x130 nTransit).raise .rtr (p / 8) 0
  let s := s.discardPort { cause := 7, scope := 2, landed := true, x := s.tick, send := tadd s.tick 1, port := p }
  let s := s.setLink p { l with expect := 0, txNext := 0, unacked := [], held := [], partials := [], nakSent := [], probEnd := none }
  s.linkCause p

/-- Requests of a port that are not yet taken, those on their way to its intake queue included, are dropped without reply and counted (R345,
R350). -/
def State.dropQueued (s : State) (p : Nat) : State :=
  let own := fun (w : Nat × Nat × Packet) =>
    decide (w.1 = p ∧ w.2.2.dst = s.devEid) && w.2.2.lenOk && w.2.2.crcOk && decide (1 ≤ w.2.2.opcode.toNat ∧ w.2.2.opcode.toNat ≤ 8)
  let n := (s.adm.intake.filter fun q => decide (q.port = p)).length + (s.adm.homeQ.filter fun q => decide (q.2.port = p)).length +
    (s.adm.ingress.filter own).length
  { s with adm := { s.adm with
      ingress := s.adm.ingress.filter fun w => !own w
      intake := s.adm.intake.filter fun q => decide (q.port ≠ p)
      homeQ := s.adm.homeQ.filter fun q => decide (q.2.port ≠ p)
      asm := s.adm.asm.filter fun a => !(decide (a.1 = p) && a.2.complete) } }.bumpN .lnk p 0x190 n

/-- Enter DOWN with a cause: requests in the intake queue are dropped without reply (R345, R350). -/
def State.enterDown (s : State) (p cause : Nat) : State :=
  let s := if s.linkState p = 4 then s.leaveUp p cause 1 else s
  let s := s.dropQueued p
  let s := (((s.setCause p cause).setLinkState p 1).bump .lnk p 0x180).raise .lnk p 2
  let s := s.setFld (rOff .lnk p 0x210) 15 4 0
  let l := s.link p
  let s := s.setLink p { l with announcing := false, fromRetrain := false }
  (s.finishPort p).linkChange p

/-- Enter DISABLED (R345). -/
def State.enterDisabled (s : State) (p cause : Nat) : State :=
  let up := decide (s.linkState p = 4)
  let s := if up then s.leaveUp p cause 0 else s
  let s := (s.dropQueued p).setLinkState p 0
  let s := s.setFld (rOff .lnk p 0x210) 15 4 0
  let l := s.link p
  let s := s.setLink p { l with announcing := false, fromRetrain := false }
  (s.finishPort p).linkChange p

/-- LNK_CFG is taken and this end's receive-pass mask begins with the lanes that LANE_EXCLUDE leaves (R351). -/
def State.beginTraining (s : State) (p st : Nat) (mask : Byte) (retrain : Bool) : State :=
  let s := s.setLinkState p st
  let l := s.link p
  s.setLink p { l with
    cfg := some (s.reg (rOff .lnk p 0x200))
    myLanes := mask &&& ~~~(BitVec.ofNat 8 (s.fld (rOff .lnk p 0x208) 11 4))
    fromRetrain := retrain
    peerLanes := 0xFF
    myDone := none
    peerDone := none
    peerIdSeen := false
    slots := 0
    laneRuns := []
    rtt := [] }

/-- Send a message in `n` of the announce slots that are left (R347). -/
def State.sendSlots (s : State) (p code n : Nat) : State :=
  let s := (List.range n).foldl (fun (s : State) _ => s.sendCtl p code (s.link p).myLanes false 0) s
  let l := s.link p
  s.setLink p { l with slots := l.slots - n }

/-- The announce slots that are left carry RETRAIN_REQ. -/
def State.endAnnounce (s : State) (p : Nat) : State := s.sendSlots p 0x10 (s.link p).slots

/-- DOWN to TRAIN (R345). -/
def State.enterTrain (s : State) (p : Nat) : State :=
  if s.linkState p = 1 then (s.setFld (rOff .lnk p 0x208) 0 0 1).beginTraining p 2 0xFF false else s

/-- UP to RETRAIN with a cause; `announce` sends RETRAIN_REQ in 16 slots, of which this is the first (R345, R347, R349). A retrain that the driver requests starts from
the lanes that LANE_EXCLUDE leaves; any other keeps the lanes already excluded. -/
def State.enterRetrain (s : State) (p cause : Nat) (mask : Byte) (announce : Bool) : State :=
  let s := (s.leaveUp p cause 5).bump .lnk p 0x170
  let s := s.beginTraining p 5 mask true
  let l := s.link p
  let s := s.setLink p { l with announcing := announce, slots := if announce then 16 else 0 }
  (if announce then s.sendSlots p 0x10 1 else s).linkChange p

/-- A replay cause of R336 or R337: retrain, or DOWN in probation (R345, R348). -/
def State.replayCause (s : State) (p cause : Nat) : State :=
  if s.fld (rOff .lnk p 0x210) 3 3 = 1 then s.enterDown p 0xB
  else s.enterRetrain p cause (s.link p).myLanes true

/-- Training has chosen lanes: the port enters INIT (R345). -/
def State.enterInit (s : State) (p : Nat) (lanes : Byte) (leader : Bool) : State :=
  let s := s.setLinkState p 3
  let o := rOff .lnk p 0x210
  let s := ((s.setFld o 13 6 lanes.toNat).setFld o 5 4 (widthCode (laneCount lanes))).setFld o 16 16 (b2n leader)
  let l := s.link p
  let s := s.setLink p { l with
    cfg := some (s.reg (rOff .lnk p 0x200))
    expect := 0
    txNext := 0
    unacked := []
    held := []
    partials := []
    nakSent := []
    rtt := []
    peerIdSeen := false
    myDone := none
    peerDone := none
    announcing := false }
  s.sendCtl p 0x01 (s.link p).myLanes false 0

/-- Both ends have sent INIT_DONE with OK = 1: the port enters UP (R345, R348, R326). -/
def State.enterUp (s : State) (p : Nat) : State :=
  let l := s.link p
  let s := s.setLinkState p 4
  let o := rOff .lnk p 0x210
  let s := s.setFld o 15 14 l.vcCount
  let s := s.setLink p { l with
    upSince := s.tick + 1
    probEnd := if l.fromRetrain then some (tadd s.tick (bits (s.linkCfg p) 31 16)) else none }
  let s := s.setFld o 3 3 (b2n l.fromRetrain)
  let s := s.raise .lnk p 0
  let s := if s.linkWidth p < 8 then s.raise .lnk p 3 else s
  (s.finishPort p).linkChange p

/-- INIT has what it waits for, or fails (R345). -/
def State.checkInit (s : State) (p : Nat) : State :=
  let l := s.link p
  match l.myDone, l.peerDone with
  | some false, _ => (s.enterDown p 9).raise .lnk p 4
  | _, some false => (s.enterDown p 9).raise .lnk p 4
  | some true, some true => s.enterUp p
  | _, _ => s

/-- LINK_IDs of a tick in INIT, one every 16 blocks until the peer's arrives: how many have left by now is a free choice of at most `n` (R347;
log 3). -/
def State.repeatLinkId (s : State) (p n : Nat) : State :=
  if (s.link p).peerIdSeen then s
  else
    let (k, s) := s.drawNat
    (List.range (k % (n + 1))).foldl (fun (s : State) _ => s.sendCtl p 0x01 (s.link p).myLanes false 0) s

/-- Count what a port has received in a tick: the corrected symbols of each lane and the ticks in a row in which they have passed
LANE_ERR_PER_US × P, and codewords (R324, R345, R351). -/
def State.countSymbols (s : State) (symbols : List (Nat × Nat × Nat)) (codewords : List (Nat × Nat)) : State :=
  (List.range 32).foldl (fun (s : State) p =>
    let lim := s.perTick (max 1 (bits (s.linkCfg p) 59 52))
    let s := s.bumpN .lnk p 0x160 ((codewords.filter fun c => decide (c.1 = p)).map (·.2)).sum
    (List.range 8).foldl (fun (s : State) i =>
      let n := ((symbols.filter fun c => decide (c.1 = p ∧ c.2.1 = i)).map (·.2.2)).sum
      let o := rOff .lnk p (0x240 + 8 * i)
      let l := s.link p
      let k := if lim < n then sget (fun _ => 0) l.laneRuns i + 1 else 0
      (s.setReg o (s.reg o + BitVec.ofNat 64 n)).setLink p { l with laneRuns := sset (fun _ => 0) l.laneRuns i k }) s) s

/-- The ports in INIT that have not seen the peer's LINK_ID repeat theirs through the tick that ends (R347). -/
def State.repeatLinkIds (s : State) : State :=
  (List.range 32).foldl (fun (s : State) p => if s.linkState p = 3 then s.repeatLinkId p (s.portBlocks p / 16) else s) s

/-! ### Replay (R334 to R337) -/

/-- A block resent at `ns` while a packet of a gated service leaves pushes the end of that packet; SOFT_CLOSE counts a packet whose gate closes
before that (R367). -/
def State.pushEnd (s : State) (p ns : Nat) : State :=
  let c := s.sched p
  match c.last with
  | some x =>
    if x.begun ≤ ns ∧ ns < x.ends then
      let e := x.ends + blockNs (s.linkWidth p) 1
      let soft := x.soft || !(decide (x.service = 7) || c.openFor x.service x.begun (e - x.begun))
      let s := s.setSched p { c with last := some { x with ends := e, soft := soft } }
      if soft && !x.soft then (s.bump .sch (p / 8) (0x1C0 + 8 * (p % 8))).raise .sch (p / 8) 3 else s
    else s
  | none => s

/-- Resend blocks in ascending order until one exceeds its limits. -/
def State.replayAll (p ns : Nat) (timer : Bool) : List TxBlock → State → State
  | [], s => s
  | u :: r, s =>
    if s.replayN p ≤ u.replays then s.replayCause p 1
    else if s.perTick (s.replayPerUs p) ≤ (s.link p).replayUsed then s.replayCause p 2
    else
      let l := s.link p
      let b := s.mkBlock p 1 u.blk.vc.toNat u.blk.sop u.blk.seq u.blk.poison u.blk.body
      let s := s.setLink p { l with
        replayUsed := l.replayUsed + 1
        unacked := l.unacked.map fun v => if v.blk.seq = u.blk.seq then { v with replays := v.replays + 1, sentNs := ns } else v }
      let s := ((s.sendBlock p b).bump .lnk p 0x118).pushEnd p ns
      let s := if timer then s.bump .lnk p 0x120 else s
      State.replayAll p ns timer r s

end Sys2Proof.Machine
end

