-- ==== Sys2Proof/Machine/Tim.lean ====
section
/-! DEFINITION. Network time: beacons, PPS, holdover, the end of step 11 (R70, R308, R414, R492 to R494), the boot
configuration and directory in use (R404, R406, R411). -/

namespace Sys2Proof.Machine

/-! ### Boot configuration and directory -/

/-- The CRC a boot configuration should carry: over words 0 to 6 (R411). -/
def bootConfigCrc (c : BootConfig) : BitVec 32 :=
  crc32c (wordsBytes [place 31 0 c.magic.toNat, place 31 0 c.seq.toNat,
    place 19 0 c.devEid.toNat ||| place 25 24 c.hostRegion.toNat ||| place 47 32 c.timeWaitMs.toNat, c.rsvModel, c.rsvCtrl,
    c.rsvPolicy, c.rsvCharge])

/-- Whether a configuration copy is valid. -/
def bootConfigOk (c : BootConfig) : Bool := decide (c.magic = 0x42434647 ∧ c.crc = bootConfigCrc c)

/-- The configuration in use: the valid copy with the higher SEQ, unless its DEV_EID is invalid (R411). -/
def State.configUsed (s : State) : Option BootConfig :=
  let best := s.boot.configs.foldl (fun (a : Option BootConfig) c => match c with
    | some c => if bootConfigOk c then (match a with
        | some b => if b.seq < c.seq then some c else a
        | none => some c) else a
    | none => a) none
  match best with
  | some c => if c.devEid = 0xFFFFF then none else some c
  | none => none

/-- TIME_WAIT_MS in use: 0 acts as 2,000 (R411). -/
def State.timeWaitMs (s : State) : Nat :=
  match s.fw.config with
  | some c => if c.timeWaitMs = 0 then 2000 else c.timeWaitMs.toNat
  | none => 2000

/-- Write a directory copy: into the copy not in use, with DIR_SEQ one higher and its CRC (R404). -/
def State.writeDir (s : State) (f : Directory → Directory) : State :=
  match s.dirUsed with
  | none => s
  | some (i, d) =>
    { s with boot := { s.boot with dir := s.boot.dir.set (1 - i) { f d with seq := d.seq + 1 }.sealed } }

/-- Firmware confirms the trial slot that it runs from (R406). Log 114. -/
def State.confirmTrial (s : State) : State :=
  match s.dirUsed with
  | some (_, d) => if d.trialValid && decide (d.trialSlot = bit (s.reg 0x8200) 0) then s.writeDir fun d => { d with active := d.trialSlot, trialValid := false } else s
  | none => s

/-- The record in use replaces a copy that is invalid or older (R410). -/
def State.refreshRecords (s : State) : State :=
  match s.recordUsed with
  | none => s
  | some (i, r) =>
    let stale := match s.validRecords.find? (fun x => decide (x.1 ≠ i)) with
      | some (_, q) => decide (q.recordSeq < r.recordSeq)
      | none => true
    if stale then { s with boot := { s.boot with records := s.boot.records.set (1 - i) (some r) } } else s

/-! ### The variant in force (R1 to R4, R424, R491) -/

/-- LIC_STATE's bits of a variant: flash tier, coherence, Assured (R1). -/
def variantBits (v : Nat) : Word :=
  place 5 5 (b2n (decide (v = 1 ∨ v = 2))) ||| place 6 6 (b2n (decide (v = 1 ∨ v = 2))) ||| place 7 7 (b2n (decide (v = 1 ∨ v = 3)))

/-- LIC_STATE and LIC_PORTS for the variant and the features of the licences in force, with nothing pending. -/
def State.showLicence (s : State) : State :=
  let v := s.licVariant
  let fs := s.licFeatures
  let stored := (s.boot.licences.filter Option.isSome).length
  let s := s.setReg 0x1200 (place 63 32 v.2 ||| place 22 16 stored ||| place 9 9 (bits fs 1 1) ||| place 8 8 (bits fs 0 0) |||
    variantBits v.1 ||| place 1 0 v.1)
  s.setReg 0x1208 (place 31 0 (variantPorts v.1))

/-- TOTAL_PARCELS of the variant (R44, R66). -/
def State.showParcels (s : State) : State :=
  s.setFld 0x7310 31 0 (if s.variant = 3 then s.fld 0x7308 31 0 else 33554432)

/-- A pending variant whose ports have been enabled already is in force from the tick in which admission opens: the flash tier, coherence,
Assured extents and DEV_QUERY follow it (R424). -/
def State.takeVariant (s : State) : State :=
  if bit (s.reg 0x1200) 4 && decide (s.fld 0x1208 31 0 = variantPorts s.licVariant.1) then s.showLicence.showParcels.raise .lic 0 4 else s

/-- START_MS shows the time from the release of reset to now, in ms (R490). -/
def State.showStartMs (s : State) : State := s.setFld 0x200 47 32 (s.tim.startMs + (s.tim.netTime - s.tim.readyNs) / 10 ^ 6)

/-- Admission opens where nothing forbids it; a change of the variant takes force, and the first opening of a start shows its time and
confirms a trial slot and the record (R406, R410, R424, R490). -/
def State.openDevice (s : State) : State :=
  let t := s.openAdmission
  if !t.opened || t.stopped then t
  else if s.opened then t.takeVariant
  else t.takeVariant.showStartMs.confirmTrial.refreshRecords

/-! ### The source and the offset (R492, R493) -/

/-- BEACON_US: values below 10 act as 10. -/
def State.beaconUs (s : State) : Nat := max 10 (s.fld 0x2210 31 16)

/-- LOCK_NS: 0 acts as 1. -/
def State.lockNs (s : State) : Nat := max 1 (s.fld 0x2210 47 32)

/-- The last beacon of a port. -/
def State.beacon (s : State) (p : Nat) : BeaconRec := sget (fun _ => ({} : BeaconRec)) s.tim.beacons p

/-- Whether a port is a candidate for the source (R492). -/
def State.candidate (s : State) (p : Nat) : Bool :=
  let b := s.beacon p
  b.seen && decide (s.tim.netTime ≤ b.at' + 3 * s.beaconUs * 1000 ∧ b.stratum < 255 ∧ b.stratum < s.tim.ownStratum)

/-- The candidate with the lowest STRATUM, on a tie the lowest port. -/
def State.bestSource (s : State) : Option Nat :=
  ((List.range 32).foldl (fun (a : Option Nat) p =>
    if s.candidate p then (match a with
      | some q => if (s.beacon p).stratum < (s.beacon q).stratum then some p else a
      | none => some p) else a) none)

/-- Set or clear a lock bit; a set raises LOCK and ends holdover (R493; log 30). -/
def State.setLock (s : State) (b : Nat) (on : Bool) : State :=
  let was := bit (s.reg 0x2218) b
  let s := s.setFld 0x2218 b b (b2n on)
  if on && !was then
    { s.setFld 0x2218 8 8 0 with tim := { s.tim with everLocked := true } }.raise .tim 0 0
  else s

/-- The device's own stratum (R492). -/
def State.updateStratum (s : State) : State :=
  let st := s.reg 0x2218
  let n := if bit st 9 then 0
    else if bit st 8 || !s.tim.everLocked then 255
    else if bit st 12 then min 254 ((s.beacon (bits st 20 16)).stratum + 1)
    else s.tim.ownStratum
  { s with tim := { s.tim with ownStratum := n } }

/-- The source is chosen again at a tick boundary (R492): a change clears BEACON_LOCKED and raises SOURCE_CHANGE. -/
def State.chooseSource (s : State) : State :=
  let st := s.reg 0x2218
  let now := s.bestSource
  let cur := if bit st 12 then some (bits st 20 16) else none
  let s := match now with
    | some _ => { s with tim := { s.tim with noCand := s.tim.netTime } }
    | none => s
  let s := if now = cur then s
    else
      let s := match now with
        | some p => (s.setFld 0x2218 20 16 p).setFld 0x2218 12 12 1
        | none => s.setFld 0x2218 12 12 0
      ({ s with tim := { s.tim with goodRun := 0, badRun := 0 } }.setLock 10 false).raise .tim 0 3
  s.updateStratum

/-- Record the offset; it saturates (R494). -/
def State.noteOffset (s : State) (o : Int) : State :=
  s.setFld 0x2220 31 0 (ofInt 32 (max (-(2 ^ 31 - 1)) (min (2 ^ 31 - 1) o)))

/-- A step of network time (R70): the tick follows it, the times at which edges and beacons came and the laps in progress keep their distance
from the present (R270, R492). Log 181. -/
def State.stepTime (s : State) (o : Int) : State :=
  let f := fun (t : Nat) => (Int.ofNat t + o).toNat
  let n := f s.tim.netTime
  let old := s.tick
  let s := { s with tim := { s.tim with
    netTime := n
    tick := n / s.periodNs % tickMod
    lastPps := s.tim.lastPps.map f
    noCand := f s.tim.noCand
    lastSend := f s.tim.lastSend
    beacons := s.tim.beacons.map fun (e : Nat × BeaconRec) => (e.1, { e.2 with at' := if e.2.seen then f e.2.at' else e.2.at' }) } }
  let laps := (List.range 8).foldl (fun m k => sset (fun _ => 0) m k (tadd (sget (fun _ => 0) m k) (tsub s.tick old))) s.hmc.lapStart
  { s with hmc := { s.hmc with lapStart := laps } }.bump .tim 0 0x120

/-- Apply an offset: TIM steps to the first one before admission opens; then it slews by at most 100 ppm, 1 µs of a larger
offset with the rest held (R493). The rate within that limit is a free value (log 30). -/
def State.applyOffset (s : State) (o : Int) : State :=
  let s := s.noteOffset o
  if !s.opened && !s.tim.gotTime then
    { s.stepTime o with tim := { (s.stepTime o).tim with gotTime := true } }
  else
    let (r, s) := s.drawNat
    let mag := min 100000 (1 + r % 100000)
    let rate : Int := if o = 0 then 0 else if o < 0 then -mag else mag
    let s := s.setFld 0x2220 63 32 (ofInt 32 rate)
    let s := { s with tim := { s.tim with gotTime := true } }
    if o.natAbs ≤ 1000 then s
    else
      let rest := if o < 0 then o + 1000 else o - 1000
      let s := { s with tim := { s.tim with held := rest } }
      (s.setFld 0x2218 11 11 1).raise .tim 0 2

/-! ### The rows -/

/-- A beacon taken on port `p` at local time `local'`; with PPS locked it fixes the whole-second count only (R308, R492, R493). -/
def State.takeBeacon (s : State) (p : Nat) (k : Packet) (local' : Nat) : State :=
  let s := s.bump .tim 0 0x108
  let stratum := bits (k.word 1) 7 0
  let rtt := s.fld (rOff .lnk p 0x218) 15 0
  let o : Int := ((k.word 0).toNat : Int) + (rtt / 2 : Nat) - (local' : Nat)
  let s := { s with tim := { s.tim with beacons := sset (fun _ => ({} : BeaconRec)) s.tim.beacons p ⟨stratum, local', o, true⟩ } }
  let st := s.reg 0x2218
  if bit st 12 && decide (bits st 20 16 = p) then
    let s := s.bump .tim 0 0x110
    let good := decide (o.natAbs ≤ s.lockNs)
    let t := s.tim
    let s := { s with tim := { t with goodRun := if good then t.goodRun + 1 else 0, badRun := if good then 0 else t.badRun + 1 } }
    let s := if 16 ≤ s.tim.goodRun then s.setLock 10 true else if 16 ≤ s.tim.badRun then s.setLock 10 false else s
    if !bit st 9 then s.applyOffset o
    else
      let whole := (o + 5 * 10 ^ 8) / 10 ^ 9 * 10 ^ 9
      if whole = 0 then s.noteOffset o else (s.applyOffset whole).noteOffset o
  else s

/-- The beacon packet (R308); its CTXID, VC and ORDER_TAG are free values (log 31). -/
def State.beaconPkt (s : State) (ns : Nat) : Packet :=
  let w1 := place 7 0 s.tim.ownStratum ||| place 8 8 (s.fld 0x2218 9 9)
  let n := Config.freeNat s.fresh
  mkPacket 0xFFFFF s.devEid (BitVec.ofNat 16 n) 0x30 (n / 65536) true (BitVec.ofNat 12 (n / 524288)) 0
    (wordsBytes [BitVec.ofNat 64 ns, w1]) []

/-- BEACON_SEND: once per BEACON_US, on every port in UP (R492). -/
def State.sendBeacons (s : State) : State :=
  if bit (s.reg 0x2210) 1 && decide (s.tim.lastSend + s.beaconUs * 1000 ≤ s.tim.netTime) then
    let s := { s with tim := { s.tim with lastSend := s.tim.netTime } }
    (List.range 32).foldl (fun s p =>
      if s.linkState p = 4 then
        ({ s with fresh := s.fresh + 1 }.sendCtrl p (s.beaconPkt s.tim.netTime) .beacon).bump .tim 0 0x100
      else s) s
  else s

/-- The edge comes 0.9 s or more after the one before (R499). Log 180. -/
def State.ppsSpaced (s : State) (local' : Nat) : Bool := s.tim.lastPps.all fun t => decide (t + 9 * 10 ^ 8 ≤ local')

/-- PPS_EDGE: a whole second of network time (R493); an edge too close to the one before is ignored (R499). -/
def State.takePps (s : State) (local' : Nat) : State :=
  if bit (s.reg 0x2210) 0 && s.ppsSpaced local' then
    let s := s.bump .tim 0 0x118
    let sec := 10 ^ 9
    let near : Nat := (local' + sec / 2) / sec * sec
    let o : Int := (near : Int) - (local' : Nat)
    let good := decide (o.natAbs ≤ s.lockNs)
    let t := s.tim
    let s := { s with tim := { t with lastPps := some local', ppsRun := if good then t.ppsRun + 1 else 0,
                                      ppsBad := if good then 0 else t.ppsBad + 1 } }
    let s := if 16 ≤ s.tim.ppsRun then s.setLock 9 true else if 16 ≤ s.tim.ppsBad then s.setLock 9 false else s
    (s.applyOffset o).updateStratum
  else s

/-- Whether 3 s have passed without a PPS edge, or PPS is not used (R492). -/
def State.noPps (s : State) : Bool :=
  !(bit (s.reg 0x2210) 0) || (match s.tim.lastPps with
    | none => decide (3 * 10 ^ 9 ≤ s.tim.netTime)
    | some t => decide (t + 3 * 10 ^ 9 ≤ s.tim.netTime))

/-- HOLDOVER: when neither PPS nor a candidate has been there for their times (R70, R492). -/
def State.enterHoldover (s : State) : State :=
  if s.noPps && s.bestSource.isNone && decide (s.tim.noCand + 3 * s.beaconUs * 1000 ≤ s.tim.netTime) then
    let s := if bit (s.reg 0x2218) 9 then (s.setLock 9 false).raise .tim 0 4 else s
    let was := bit (s.reg 0x2218) 8
    let s := s.setFld 0x2218 8 8 1
    (if was then s else s.raise .tim 0 1).updateStratum
  else s

/-- BEACON_SEND (R492). -/
def execBeaconSend (s : State) : Host.Outcome State Fault Refusal := .next s.sendBeacons

/-- PPS_EDGE (R493). -/
def execPpsEdge (localNs : Nat) (s : State) : Host.Outcome State Fault Refusal := .next (s.takePps localNs)

/-- HOLDOVER (R492). -/
def execHoldover (s : State) : Host.Outcome State Fault Refusal := .next s.enterHoldover

end Sys2Proof.Machine
end

