-- ==== Sys2Proof/Machine/CohOps.lean ====
section
/-! DEFINITION. Coherent domains beside admission: the directory (R276, R279), recalls and snoops (R286 to R288), domains
going DOWN and their sweep (R292, R293). -/

namespace Sys2Proof.Machine

/-! ### Directory entries (R279) -/

/-- STATE of an entry: 0 I, 1 S, 2 E, 3 M. -/
def dState (e : Word) : Nat := bits e 1 0
/-- OVF. -/
def dOvf (e : Word) : Bool := bit e 2
/-- The valid pointers. -/
def dPtrs (e : Word) : List Nat := (List.range (min 4 (bits e 5 3))).map fun i => bits e (15 + 10 * i) (6 + 10 * i)
/-- Entry I. -/
def dirI : Word := 0
/-- An entry with one pointer. -/
def dirOne (st m : Nat) : Word := place 1 0 st ||| place 5 3 1 ||| place 15 6 m
/-- Shared entry from a list of sharers; a fifth sharer sets OVF. -/
def dirShared (ms : List Nat) (ovf : Bool) : Word :=
  let l := ms.take 4
  place 1 0 1 ||| place 2 2 (b2n (ovf || decide (4 < ms.length))) ||| place 5 3 l.length |||
    l.zipIdx.foldl (fun w x => w ||| place (15 + 10 * x.2) (6 + 10 * x.2) x.1) 0

/-- E or M. -/
def dOwned (e : Word) : Bool := decide (2 ≤ dState e)

/-- Physical byte address of the directory entry of line `ln` of an extent (R276): FRAME and SLOT of the directory map. -/
def State.dirAddr (s : State) (e : Extt) (ln : Nat) : Nat :=
  let v := leNat (s.readRegion (bits e.upd5 51 12 * 4096 + 4 * (ln / 8192)) 4)
  v % 2 ^ 20 * 2 ^ 21 + v / 2 ^ 20 % 32 * 65536 + ln % 8192 * 8

/-- The mirror of a directory byte on an Assured extent (R277). -/
def State.dirMirror (s : State) (e : Extt) (a : Nat) : Option Nat :=
  if e.assured then some ((s.fhtOf (a / 2 ^ 21)).mirrorFrame * 2 ^ 21 + a % 2 ^ 21) else none

/-- The directory line at physical address `a` through the line check; none when it fails, or is poisoned, and no mirror serves it
(R255, R277, R292 DIR_CRC). -/
def State.checkDirLine (s : State) (e : Extt) (a : Nat) : Option (List Byte) × State :=
  let ln := a / 256
  if s.dirLineBad ln false then
    let s := s.noteDirFail ln
    match s.dirMirror e (ln * 256) with
    | some b =>
      match s.tryMirror .requester ln (b / 256) (s.dirLineBad (b / 256) true) (fun s => s.noteDirFail (b / 256)) with
      | (.serves bs psn, s) => (if psn then none else some bs, s)
      | (.fails, s) => (none, s.queueRepair ln none)
      | (.noSlot, s) => (none, s)
    | none => (none, s.queueRepair ln none)
  else if (s.meta' ln).poison then (none, s)
  else (some (s.rdBs (ln * 256) 256), s)

/-- Read the directory line at physical address `a`. -/
def State.readDirLine (s : State) (e : Extt) (a : Nat) : Option (List Byte) × State :=
  (s.bump .hmc (stackOf (a / 256)) 0x100).checkDirLine e a

/-! ### The directory caches (R279) -/

/-- The cached copy of a directory line. -/
def State.dirCopy (s : State) (ln : Nat) : Option DirCopy := s.coh.dirs.find? fun c => decide (c.line = ln)

/-- Drop the cached copy of a directory line. -/
def State.dropDir (s : State) (ln : Nat) : State := { s with coh := { s.coh with dirs := s.coh.dirs.filter fun c => decide (c.line ≠ ln) } }

/-- Keep a copy of a directory line in its tile's cache of 65,536 entries; which line a full cache gives up is free (log 176). -/
def State.keepDir (s : State) (ln : Nat) (bs : List Byte) : State :=
  let mine := s.coh.dirs.filter fun c => decide (stackOf c.line / 6 = stackOf ln / 6)
  let s := if mine.length < 2048 then s
    else
      let r := s.drawNat
      match mine[r.1 % mine.length]? with
      | some c => r.2.dropDir c.line
      | none => r.2
  { s with coh := { s.coh with dirs := s.coh.dirs ++ [⟨ln, bs, false⟩] } }

/-- The home gets the directory line of line `ln` of an extent into its cache: a hit takes nothing; a miss, and a copy with a parity error,
takes a table-fetch slot (R83, R279, R426). A line that cannot be read stays out of the cache. -/
def State.fetchDir (s : State) (tile : Nat) (e : Extt) (ln : Nat) : Fetched × State :=
  let a := s.dirAddr e ln
  let fetch := fun (s : State) =>
    match s.fetchLine (a / 256) with
    | none => (Fetched.late, s)
    | some s =>
      match s.checkDirLine e a with
      | (some bs, s) => (.ok, s.keepDir (a / 256) bs)
      | (none, s) => (.ok, s)
  match s.dirCopy (a / 256) with
  | some c => if c.bad then fetch ((s.dropDir (a / 256)).parityError .coh tile) else (.ok, s)
  | none => fetch s

/-- The entry at byte `o` of a directory line. -/
def entryIn (bs : List Byte) (o : Nat) : Word := BitVec.ofNat 64 (leNat ((bs.drop o).take 8))

/-- The entry of line `ln` of an extent in the home's cache. -/
def State.cachedEntry (s : State) (e : Extt) (ln : Nat) : Option Word :=
  let a := s.dirAddr e ln
  (s.dirCopy (a / 256)).map fun c => entryIn c.bytes (a % 256)

/-- The entry of line `ln` of an extent as memory holds it. -/
def State.readDir (s : State) (e : Extt) (ln : Nat) : Option Word × State :=
  let a := s.dirAddr e ln
  let r := s.readDirLine e a
  (r.1.map fun bs => entryIn bs (a % 256), r.2)

/-- Write a directory line whole, and its mirror (R277); a cached copy follows. -/
def State.putDirLine (s : State) (e : Extt) (ln : Nat) (bs : List Byte) (poison : Bool) : State :=
  let s := if poison then s.dropDir ln
    else { s with coh := { s.coh with dirs := s.coh.dirs.map fun c => if c.line = ln then { c with bytes := bs } else c } }
  let s := s.writeLine (ln * 256) bs poison false 0 false none
  match s.dirMirror e (ln * 256) with
  | some b => s.writeLine b bs poison false 0 true none
  | none => s

/-- Write an entry: a read-modify-write of its directory line, and of its mirror (R253, R277, R290). A line whose read fails is written
with POISON 1, and its domain goes DOWN (R292). -/
def State.writeDirEntry (s : State) (e : Extt) (ln : Nat) (w : Word) : State :=
  let a := s.dirAddr e ln
  let r := s.readDirLine e a
  let s := r.2
  let s := if r.1.isNone then s.detectDown e.domain 3 0 (stackOf (a / 256) / 6) else s
  let old := r.1.getD (s.rdBs (a / 256 * 256) 256)
  let bs := old.take (a % 256) ++ leBytes 8 w.toNat ++ old.drop (a % 256 + 8)
  (s.putDirLine e (a / 256) bs r.1.isNone).bump .hmc (stackOf (a / 256)) 0x110

/-- The directory as the admitted coherent requests before this one leave it (R285). -/
def State.dirView (s : State) (x ln : Nat) (mem : Word) : Word :=
  (s.adm.reqs.foldl (fun (a : Word) r => match r.work with
    | .coh _ _ x' ln' _ new _ _ _ _ landed => if x' = x ∧ ln' = ln ∧ landed = false then new else a
    | _ => a) mem)

/-- Lines in E or M on a tile (R289). -/
def State.owned (s : State) (t : Nat) : Nat := (s.coh.held.filter fun l => decide (l.1 = t)).length

/-- Note that the entry of a line on a tile is now `new`. -/
def State.noteOwned (s : State) (t x ln : Nat) (new : Word) : State :=
  let l := s.coh.held.filter fun y => decide (y ≠ (t, x, ln))
  { s with coh := { s.coh with held := if dOwned new then l ++ [(t, x, ln)] else l } }

/-- Lines in E or M on a tile as the admitted coherent requests leave them (R285, R289). -/
def State.ownedView (s : State) (t : Nat) : Nat :=
  let ls := (s.adm.reqs.filterMap fun r => match r.work with
    | .coh _ _ x ln _ _ _ _ _ _ landed => if landed = false ∧ r.tile = t then some (x, ln) else none
    | _ => none).dedup
  ls.foldl (fun n l => n + b2n (dOwned (s.dirView l.1 l.2 0)) - b2n (s.coh.held.contains (t, l.1, l.2))) (s.owned t)

/-- Home tile of a line of an extent (R284). -/
def State.homeTile (s : State) (e : Extt) (ln : Nat) : Nat := (s.parcelOf e (ln * 256)).2 / 6

/-! ### Members -/

/-- Member index of an EID in a domain. -/
def State.memberOf (s : State) (d : Domt) (eid : BitVec 20) : Option Nat :=
  (List.range d.members).find? fun m => decide (s.member d m = some eid)

/-! ### Recalls (R286) -/

/-- The recall entry of a line. -/
def State.recallOf (s : State) (x ln : Nat) : Option Recall := s.coh.recalls.find? fun r => decide (r.ext = x ∧ r.line = ln)

/-- Replace a recall entry. -/
def State.setRecall (s : State) (r : Recall) : State :=
  { s with coh := { s.coh with recalls := s.coh.recalls.map fun q => if q.ext = r.ext ∧ q.line = r.line then r else q } }

/-- Close a recall entry. -/
def State.closeRecall (s : State) (x ln : Nat) : State :=
  { s with coh := { s.coh with recalls := s.coh.recalls.filter fun q => !(decide (q.ext = x ∧ q.line = ln)) } }

/-- Whether an admitted request has still to land on a line of a coherent extent. -/
def State.linePending (s : State) (x ln : Nat) : Bool :=
  s.adm.reqs.any fun r => match r.work with
    | .coh _ _ x' ln' _ _ _ _ _ _ landed => decide (x' = x ∧ ln' = ln) && !landed
    | .atomic x' ops _ landed => decide (x' = x) && !landed && ops.any (fun o => decide (o.off / 256 = ln))
    | _ => false

/-- Whether the tick leaves reserved-share slots unused for one access to each of these lines, a line standing once for each of its accesses,
and no rewrite waits on their pseudo-channels (R257, R287). -/
def State.spareRoom (s : State) (ls : List Nat) : Bool :=
  let at' := ls.map fun l => (stackOf l, s.pcOf l)
  at'.all fun x =>
    let used := s.slotUsed 0 x.1 x.2 + s.slotUsed 1 x.1 x.2 + s.slotUsed 2 x.1 x.2 + s.slotUsed 3 x.1 x.2 + s.hostUsed x.1 x.2
    !s.rewriteWaits x.1 x.2 && decide (used + (at'.filter (· = x)).length ≤ s.share 4 + s.share 2 + s.share 8 + s.share 6)

/-- Take the slots of spareRoom. -/
def State.useSpare (s : State) (ls : List Nat) : State := ls.foldl (fun s l => s.useSlot 3 (stackOf l) (s.pcOf l)) s

/-- The accesses of a read-modify-write of a directory line: two, and one on its mirror. -/
def State.dirAccesses (s : State) (e : Extt) (a : Nat) : List Nat :=
  [a / 256, a / 256] ++ (match s.dirMirror e a with
    | some b => [b / 256]
    | none => [])

/-- The accesses of rewriting a data line: `n` on the line, and one on its mirror. -/
def State.dataAccesses (s : State) (p l n : Nat) : List Nat :=
  match s.lineAt p l with
  | some ln =>
    let h := s.fhtOf (ln / 8192)
    List.replicate n ln ++ (if h.assured then [h.mirrorFrame * 8192 + l] else [])
  | none => []

/-- The slots in which the home writes the entry of a recall that is complete, and the data returned for its line (R287, R290). -/
def State.recallSlots (s : State) (r : Recall) : List Nat :=
  let e := s.exttNow r.ext
  let n := if r.lost then 2 else if r.data.isSome then 1 else 0
  s.dirAccesses e (s.dirAddr e r.line) ++ (if n = 0 then [] else s.dataAccesses (s.parcelOf e (r.line * 256)).1 (r.line % 8192) n)

/-- A boundary at which the domain goes DOWN has come: nothing of it lands any more (R293). -/
def State.fallen (s : State) (d : Nat) : Bool := (s.dom d).goingDown.any fun g => tle g.1 s.tick

/-- The home can write the entry of a recall: every snoop has been answered, no admitted work on the line has still to land, and its domain is
not going DOWN (R286, R293). -/
def State.recallDue (s : State) (r : Recall) : Bool :=
  !r.complete && r.snoops.all (·.answered) && !s.linePending r.ext r.line && !s.fallen r.domain

/-- Poison a data line with its data unchanged (R285, R293). -/
def State.poisonLine (s : State) (x ln : Nat) : State :=
  let e := s.exttNow x
  let p := (s.parcelOf e (ln * 256)).1
  match s.lineAt p (ln % 8192) with
  | some l => s.writePool p (ln % 8192) 0 e.format (s.rdBs (l * 256) 256) true
  | none => s

/-- When every snoop of a recall has been answered the home writes returned data, or the poison of a lost line, and the entry (R285, R286),
after the admitted work on the line and in slots of reserved shares that the tick leaves unused (R287); until then the recall stays
incomplete. -/
def State.completeRecall (s : State) (r : Recall) : State :=
  let e := s.exttNow r.ext
  let q := s.parcelOf e (r.line * 256)
  let slots := s.recallSlots r
  if s.recallDue r && s.spareRoom slots then
    let new := if r.kind = 9 then dirOne 1 r.owner else if r.kind = 8 ∧ r.qShares = true then dirOne 1 r.requester else dirI
    let s := s.useSpare slots
    let s := if r.lost then s.poisonLine r.ext r.line
      else match r.data with
      | some d => s.writePool q.1 (r.line % 8192) 0 e.format d.1 d.2
      | none => s
    ((s.writeDirEntry e r.line new).noteOwned r.tile r.ext r.line new).setRecall { r with complete := true, data := none }
  else s.setRecall r

/-- Recalls whose snoops have all been answered and whose entry is still to be written are tried again. -/
def State.retryRecalls (s : State) : State :=
  s.coh.recalls.foldl (fun s r => if !r.complete && r.snoops.all (·.answered) then s.completeRecall r else s) s

/-- A member's snoop response after check 1 of R56 (R286, R288). -/
def State.cohResponse (s : State) (port : Nat) (k : Packet) : State :=
  let w := k.word 0
  let msg := bits w 19 16
  let dn := bits w 33 22
  match ptrOf (k.word 1) with
  | .at' x off =>
    let ln := off / 256
    let e := s.exttNow x
    let tile := if e.valid then s.homeTile e ln else port / 8
    let d := s.dom dn
    let dt := s.domt s.banks dn
    let stale := s.bump .coh tile 0x140
    if msg ≠ 0xC ∧ msg ≠ 0xD then s
    else if d.st ≠ .active ∨ d.epoch.toNat ≠ bits w 15 0 then stale
    else
      match s.recallOf x ln, s.memberOf dt k.src with
      | some r, some m =>
        if r.domain = dn ∧ r.snoops.any (fun n => decide (n.member = m ∧ n.answered = false) && n.sent.isSome) = true then
          let data := msg = 0xD ∧ k.payload.length = 272
          let r := { r with
            snoops := r.snoops.map fun n => if n.member = m then { n with answered := true } else n
            data := if data then some (k.payload.drop 16, (List.range 256).any fun i => k.bytePoison (16 + i)) else r.data }
          (if data then s.bump .coh tile 0x138 else s).completeRecall r
        else stale
      | _, _ => stale
  | _ => s.bump .coh (port / 8) 0x140

/-- The tile whose home queue holds an earlier packet of the order stream of `k` (R288). -/
def State.streamAhead (s : State) (k : Packet) : Option Nat :=
  (s.adm.homeQ.find? fun q => decide (q.2.pkt.src = k.src ∧ q.2.pkt.ctxid = k.ctxid ∧ q.2.pkt.tag = k.tag)).map (·.1)

/-- The home takes a snoop response after the earlier packets of its stream (R288). -/
def State.takeResponse (s : State) (port : Nat) (k : Packet) : State :=
  match s.streamAhead k with
  | some t => { s with coh := { s.coh with waiting := s.coh.waiting ++ [(t, port, k)] } }
  | none => s.cohResponse port k

/-- Responses whose earlier packets have been taken are taken now, in their order. -/
def State.releaseResponses (s : State) : State :=
  let l := s.coh.waiting
  l.foldl (fun s x => s.takeResponse x.2.1 x.2.2) { s with coh := { s.coh with waiting := [] } }

/-- RECALL_EXPIRE: complete entries whose reservation has expired close; one whose snoops or whose entry are still to come stays (R286, R292;
DEDUCED, log 177). -/
def State.expireRecalls (s : State) (tile : Nat) : State :=
  { s with coh := { s.coh with recalls := s.coh.recalls.filter fun r => !(decide (r.tile = tile) && tle r.expires s.tick && r.complete) } }

/-! ### Snoops (R287) -/

/-- A snoop packet; its CTXID and ORDER_TAG are free values (R283, R304, R315; log 31). -/
def State.snoopPkt (s : State) (eid : BitVec 20) (r : Recall) (n : Snoop) : Packet :=
  let w := place 15 0 (s.dom r.domain).epoch.toNat ||| place 19 16 n.msg.toNat ||| place 33 22 r.domain
  let f := Config.freeNat s.fresh
  mkPacket eid s.devEid (BitVec.ofNat 16 f) 0x24 s.snpVc true (BitVec.ofNat 12 (f / 65536)) (respField stOk s.tick 0 true)
    (wordsBytes [w, ptrTo r.ext (r.line * 256)]) []

/-- Dirty lines for the data that a snoop may return (R287): none on a device without flash. -/
def State.takeDirty (s : State) (tile p g : Nat) : Option State :=
  if !s.hasFlash || s.groupDirty p g then some s
  else if 16 ≤ s.left tile (.dirty tile) s.tick none then some (s.reserve tile 0 [⟨.dirty tile, s.tick, 16, none⟩])
  else none

/-- Send one pending snoop, if its port, grant and budgets allow. -/
def State.sendSnoop (s : State) (tile : Nat) (r : Recall) (n : Snoop) : State :=
  let k := tile * 4096 + r.domain
  let used := sget (fun _ => 0) s.coh.snoopUsed k
  let all := ((s.coh.snoopUsed.filter fun e => decide (e.1 / 4096 = tile)).map (·.2)).sum
  let dt := s.domt s.banks r.domain
  if dt.quota ≤ used ∨ s.perTick (max 16 (s.fld (rOff .coh tile 0x200) 15 0)) ≤ all then s
  else
    match s.member dt n.member with
    | none => s
    | some eid =>
      match s.firstUsable eid with
      | none => s
      | some p =>
        let par := (s.parcelOf (s.exttNow r.ext) (r.line * 256)).1
        match (if n.msg = 8 then some s else s.takeDirty tile par (r.line % 8192 / 16)) with
        | none => s
        | some s =>
          let pkt := s.snoopPkt eid r n
          let s := { s with fresh := s.fresh + 1, coh := { s.coh with snoopUsed := sset (fun _ => 0) s.coh.snoopUsed k (used + 1) } }
          let s := (s.sendCtrl p pkt .snoop).bump .coh tile 0x128
          match s.recallOf r.ext r.line with
          | some r => s.setRecall { r with snoops := r.snoops.map fun m => if m.member = n.member then { m with sent := some s.tick } else m }
          | none => s

/-- SNOOP_SEND: the domains with pending snoops in rising index from T mod 4,096 (R287). -/
def State.sendSnoops (s : State) (tile : Nat) : State :=
  let rank := fun (r : Recall) => (r.domain + 4096 - s.tick % 4096) % 4096
  let rs := (s.coh.recalls.filter fun r => decide (r.tile = tile)).mergeSort fun a b => decide (rank a ≤ rank b)
  rs.foldl (fun s r => (r.snoops.filter fun n => n.sent.isNone).foldl (fun s n => s.sendSnoop tile r n) s) s

/-- SNOOP_TIMEOUT: an unanswered snoop takes its domain DOWN at s + SNOOP_TIMEOUT + 1 (R292). -/
def State.timeoutSnoops (s : State) (tile : Nat) : State :=
  (s.coh.recalls.filter fun r => decide (r.tile = tile)).foldl (fun s r =>
    let dt := s.domt s.banks r.domain
    r.snoops.foldl (fun s n => match n.sent with
      | some t =>
        let b := tadd t (dt.timeout + 1)
        if !n.answered && tle b s.tick then s.noteDown r.domain b 1 n.member (some tile) else s
      | none => s) s) s

/-! ### The sweep (R293) -/

/-- Directory lines of a domain on a tile: extent and first line number of each 32 entries. -/
def State.dirLines (s : State) (d tile : Nat) : List (Nat × Nat) :=
  let xs := s.liveExtents.filter fun x => (let e := s.exttNow x; e.valid && e.coherent && decide (e.domain = d))
  xs.flatMap fun x =>
    let ps := (s.extParcels x).filter fun ip => decide ((s.pmapAt (s.exttNow x).pmap ip.1).2.2 / 6 = tile)
    ps.flatMap fun ip => (List.range 256).map fun i => (x, ip.1 * 8192 + 32 * i)

/-- The words of a directory line for the sweep: a line that fails its check counts as 32 owned entries (R293). -/
def sweepWords (bs : Option (List Byte)) : List Word :=
  match bs with
  | some bs => bytesWords 32 bs
  | none => List.replicate 32 (dirOne 3 0)

/-- The slots that the sweep of a directory line takes: its read and, where an entry is not I, its write with the mirror; a read and a write
of every line in E or M, with its mirror (R287, R293). -/
def State.sweepSlots (s : State) (x first : Nat) : List Nat :=
  let e := s.exttNow x
  let a := s.dirAddr e first
  let ws := sweepWords (s.readDirLine e a).1
  let p := (s.parcelOf e (first * 256)).1
  let data := (ws.zipIdx.filter fun w => dOwned w.1).flatMap fun w => s.dataAccesses p ((first + w.2) % 8192) 2
  (if ws.any (fun w => decide (dState w ≠ 0)) then s.dirAccesses e a else [a / 256]) ++ data

/-- Sweep one directory line: E and M entries poison their lines, all entries become I (R293). -/
def State.sweepLine (s : State) (d tile x first : Nat) : State :=
  let e := s.exttNow x
  let a := s.dirAddr e first
  let slots := s.sweepSlots x first
  let r := s.readDirLine e a
  let ws := sweepWords r.1
  let s := r.2.useSpare slots
  let s := ws.zipIdx.foldl (fun s w =>
    let s := if dOwned w.1 then
        let s := (s.poisonLine x (first + w.2)).bump .coh tile 0x160
        let m := s.dom d
        s.setDom d { m with poisoned := m.poisoned + 1 }
      else s
    s.noteOwned tile x (first + w.2) dirI) s
  if ws.any (fun w => decide (dState w ≠ 0)) then s.putDirLine e (a / 256) (List.replicate 256 0) false else s

/-- The domain is QUIET when the sweep of every tile is done: the number of lines poisoned is recorded (R293). -/
def State.checkSwept (s : State) (d : Nat) : State :=
  let m := s.dom d
  if m.st = .down ∧ (List.range 4).all (fun t => decide ((s.dirLines d t).length ≤ m.sweep.getD t 0)) = true then
    let s := s.setDom d { m with st := .quiet, sweep := [], swept := m.poisoned }
    let s := s.raise .coh (m.downTile.getD 0) 1
    s.postEvent ⟨BitVec.ofNat 8 (Blk.code .coh), 0, 0x0011, BitVec.ofNat 64 d, BitVec.ofNat 64 m.poisoned⟩
  else s

/-- The next directory line that the sweep of a domain reads on a tile. -/
def State.nextSweep (s : State) (d tile : Nat) : Option (Nat × Nat) := (s.dirLines d tile)[(s.dom d).sweep.getD tile 0]?

/-- One turn of the sweep of a tile: of the DOWN domains from index `from'` on, with wrap, the first whose next line finds its slots. -/
def State.sweepTurn (s : State) (tile from' : Nat) : Option (Nat × State) :=
  let rank := fun (d : Nat) => (d + 4096 - from' % 4096) % 4096
  let ds := ((s.coh.doms.filter fun e => decide (e.2.st = .down) && !e.2.sweepHeld).map (·.1)).mergeSort fun a b => decide (rank a ≤ rank b)
  ds.findSome? fun d =>
    match s.nextSweep d tile with
    | some l =>
      if s.spareRoom (s.sweepSlots l.1 l.2) then
        let s := s.sweepLine d tile l.1 l.2
        let m := s.dom d
        some (d, s.setDom d { m with sweep := m.sweep.set tile (m.sweep.getD tile 0 + 1) })
      else none
    | none => none

/-- A recall's or a sweep's write waits for slots of a pseudo-channel (R287). -/
def State.cohWaits (s : State) (st pc : Nat) : Bool :=
  let here := fun (ls : List Nat) => ls.any fun l => decide (stackOf l = st ∧ s.pcOf l = pc)
  (s.coh.recalls.any fun r => s.recallDue r && here (s.recallSlots r)) ||
    s.coh.doms.any fun d => decide (d.2.st = .down) && !d.2.sweepHeld && (match s.nextSweep d.1 (st / 6) with
      | some l => here (s.sweepSlots l.1 l.2)
      | none => false)

/-- Turns of the sweep of a tile, as many as `n` and the tick's slots allow. -/
def State.sweepTurns (tile : Nat) : Nat → Nat → State → State
  | 0, _, s => s
  | n + 1, from', s =>
    match s.sweepTurn tile from' with
    | some x => State.sweepTurns tile n (x.1 + 1) x.2
    | none => s

/-- DOMAIN_SWEEP: up to `lines` directory lines of the DOWN domains of a tile, in turn, in the slots of R287 (R293, R295). -/
def State.sweepTile (s : State) (tile lines : Nat) : State :=
  let s := State.sweepTurns tile lines s.tick s
  (s.coh.doms.filter fun e => decide (e.2.st = .down) && !e.2.sweepHeld).foldl (fun s e => s.checkSwept e.1) s

/-- DOMAIN_DOWN: the domain goes DOWN at its boundary; DOM_STOP completes, and the event follows (R292, R293, R393). -/
def State.runDown (s : State) (d : Nat) : State :=
  match (s.dom d).goingDown with
  | some (b, c, u) =>
    if tle b s.tick && decide ((s.dom d).st = .active) then
      let s := s.domainGoesDown d c.toNat u.toNat
      let s := s.finishAll (fun j => decide (j.obj = .dom d ∧ j.opcode = 0x32)) stOk
      (s.postDown d).checkSwept d
    else s
  | none =>
    if (s.dom d).st = .active then s else s.finishAll (fun j => decide (j.obj = .dom d ∧ j.opcode = 0x32)) stOk

end Sys2Proof.Machine
end

