-- ==== Sys2Proof/Machine/Router.lean ====
section
/-! DEFINITION. What the router slices do with an arriving packet (R297 to R301, R308 to R321, R438): local handling, batch
assembly (R109), the intake queues and transit. -/

namespace Sys2Proof.Machine

/-- The ports have stopped: from F0 + 2 of a power failure, and after DRAIN_DONE (R233, R235). -/
def State.portsStopped (s : State) : Bool :=
  s.rsv.dead || (match s.rsv.drain with
    | some d => d.begun && decide (d.why = .power ∨ d.why = .cold)
    | none => false)

/-! ### Check 1 (R56) and the answers of arrival -/

/-- Check 1 of R56 for a packet from the fabric. -/
def State.check1 (s : State) (k : Packet) : Bool :=
  let c := s.ctxt s.banks k.ctxid.toNat
  c.valid && !c.host && decide (k.src.toNat = c.owner)

/-- The answer of arrival to a pool request, if it has one: R4, R438, check 1, then the compute reset of R319. -/
def State.arrivalStatus (s : State) (k : Packet) : Option (Nat × Nat × Nat) :=
  if s.variant = 0 then some (stAccess, 0, 0)
  else if !s.tenantActive then some (stTenant, 0, 0)
  else if !s.check1 k then some (stAccess, 0, 0)
  else if s.inComputeReset then some (stRefused, tadd s.tick 512, 0xE)
  else none

/-- Give that answer, with its counters. -/
def State.answerArrival (s : State) (p : Nat) (k : Packet) (a : Nat × Nat × Nat) : State :=
  let s := if a.1 = stAccess && decide (s.variant ≠ 0) then s.bump .rtr (p / 8) 0x168 else s
  let s := if a.1 = stRefused then s.bump .rtr (p / 8) 0x188 else s
  s.answer p k a.1 a.2.1 a.2.2

/-! ### Assembly (R108, R109) -/

/-- Fragment buffers in use on a port. -/
def State.asmUsed (s : State) (p : Nat) : Nat :=
  ((s.adm.asm.filter fun a => decide (a.1 = p)).map fun a => a.2.last + 1).sum

/-- Whether an assembly is a packet's. -/
def asmMatch (p : Nat) (k : Packet) (a : Nat × Assembly) : Bool :=
  decide (a.1 = p ∧ a.2.src = k.src ∧ a.2.ctx = k.ctxid ∧ a.2.tag = k.tag)

/-- Ticks that an assembly may take: ceil(8 / P). -/
def State.asmTicks (s : State) : Nat := s.ticksOfUs 8

/-- Poison flags of the 8-byte words of a fragment's batch data. -/
def fragPoison (k : Packet) : List Bool :=
  (List.range (cdiv (k.payload.length - 8) 8)).map fun i => k.bytePoison (8 + 8 * i)

/-- Append a fragment; the last one sends the batch to the port's intake queue. Data of any length are appended as they are, and RSV bits and
FRAG_LAST of later fragments are not looked at (R108; DESIGN CHOICE, log 159). -/
def State.takeFragment (s : State) (p : Nat) (k : Packet) (a : Nat × Assembly) : State :=
  let w := k.word 0
  let done := decide (bits w 6 0 = a.2.last)
  let b := { a.2 with
    next := a.2.next + 1
    data := a.2.data ++ k.payload.drop 8
    poison := a.2.poison ++ fragPoison k
    complete := done }
  let s := { s with adm := { s.adm with asm := s.adm.asm.map fun x => if x = a then (p, b) else x } }
  if done then
    { s with adm := { s.adm with intake := s.adm.intake ++ [⟨b.first, some (b.data, b.poison), p, s.tick⟩] } }
  else s

/-- Count a dropped fragment. -/
def State.dropFragment (s : State) (p : Nat) : State := s.bump .hdg (p / 8) 0x1C0

/-- A BATCH fragment addressed to the device (R109, R309): whether fragment 0 needs a reply is decided before. -/
def State.batchFragment (s : State) (p : Nat) (k : Packet) : State :=
  let w := k.word 0
  let no := bits w 6 0
  let last := bits w 14 8
  let cur := s.adm.asm.find? fun a => asmMatch p k a && !a.2.complete
  if no = 0 then
    match cur with
    | some _ => s.dropFragment p
    | none =>
      if 128 < s.asmUsed p + last + 1 then (s.bump .hdg (p / 8) 0x1B0).refusePkt (p / 8) p k 8
      else
        let b : Assembly := {
          src := k.src, ctx := k.ctxid, tag := k.tag, opened := s.tick, last := last, next := 0, data := [], poison := [],
          first := k, complete := false }
        let a : Nat × Assembly := (p, b)
        { s with adm := { s.adm with asm := s.adm.asm ++ [a] } }.takeFragment p k a
  else if s.inComputeReset then s.dropFragment p
  else
    match cur with
    | some a => if a.2.next = no then s.takeFragment p k a else s.dropFragment p
    | none => s.dropFragment p

/-- Whether a BATCH fragment 0 will be answered: its assembly finds no buffers. -/
def State.fragmentRefused (s : State) (p : Nat) (k : Packet) : Bool :=
  let w := k.word 0
  decide (bits w 6 0 = 0) && !(s.adm.asm.any fun a => asmMatch p k a && !a.2.complete) && decide (128 < s.asmUsed p + bits w 14 8 + 1)

/-! ### Intake queues (R78, R284) -/

/-- Home tile of a coherence request or a coherent ATOMIC (R284, R309): none for any other request. -/
def State.homeOf (s : State) (k : Packet) : Option Nat :=
  let of := fun (x off : Nat) =>
    let e := s.extt s.banks x
    if e.valid && decide (off < e.bytesAt s.tick) then some (s.homeTile e (off / 256)) else none
  if k.opcode = 0x08 then
    match ptrOf (k.word 1) with
    | .at' x off => of x off
    | _ => none
  else if k.opcode = 0x05 then
    let x := bits (k.word 0) 17 0
    if (s.extt s.banks x).coherent then of x (bits (k.word 1) 43 0) else none
  else none

/-- Put a request that passed check 1 into its intake queue. -/
def State.enterIntake (s : State) (p : Nat) (k : Packet) : State :=
  let q : Queued := ⟨k, none, p, s.tick⟩
  match s.homeOf k with
  | some t => { s with adm := { s.adm with homeQ := s.adm.homeQ ++ [(t, q)] } }
  | none => { s with adm := { s.adm with intake := s.adm.intake ++ [q] } }

/-! ### ECHO (R308) -/

/-- Answer an ECHO, or drop one with more than 64 bytes. -/
def State.takeEcho (s : State) (p : Nat) (k : Packet) : State :=
  if 64 < k.payload.length then s.rtrCount (p / 8) 0x148 0
  else
    let r := mkPacket k.src s.devEid k.ctxid 0x32 s.rspVc true k.tag (respField stOk s.tick 0 true) k.payload
      ((List.range (cdiv k.payload.length 256)).map fun j => k.seg j)
    s.sendReply p r

/-! ### Transit (R310 to R316) -/

/-- Take a transit packet out of its ingress buffer. -/
def State.dropTransit (s : State) (t : TransitPkt) : State :=
  { s with fab := { s.fab with transit := s.fab.transit.erase t } }

/-- Replace a waiting transit packet. -/
def State.putTransit (s : State) (t t' : TransitPkt) : State :=
  { s with fab := { s.fab with transit := s.fab.transit.map fun x => if x = t then t' else x } }

/-- Head of an ingress VC buffer. -/
def State.transitHead (s : State) (p vc : Nat) : Option TransitPkt := s.fab.transit.find? fun t => decide (t.port = p ∧ t.vc = vc)

/-- Drop a transit packet that has no usable candidate (R318). -/
def State.noCandidate (s : State) (t : TransitPkt) (r : Rtt) : State :=
  let tile := t.port / 8
  let left := s.usable r none
  let uturn := !left.isEmpty && left.all (· = t.port)
  (((s.dropTransit t).bump .rtr tile (if uturn then 0x138 else 0x130)).raise .rtr tile 0).raise .rtr tile 3

/-- Forward a transit packet whose route entry is at hand (R314, R64, R310, R317, R318). Log 25. -/
def State.forwardHead (s : State) (t : TransitPkt) : State :=
  let tile := t.port / 8
  let r := s.rtt t.bank t.pkt.dst.toNat
  if !r.valid then (s.dropTransit t).rtrCount tile 0x128 0
  else if r.filter && !(s.filterPass t.pkt t.tft) then
    if s.filterRoom t.port then
      let s := (((s.dropTransit t).bump .rtr tile 0x158).raise .rtr tile 0).raise .rtr tile 1
      s.sendReply t.port (s.statusPkt t.pkt.src t.pkt.dst t.pkt.ctxid t.pkt.tag stAccess 0 0) true
    else (s.putTransit t { t with held := true, arrived := tadd s.tick 1 }).bump .rtr tile 0x178
  else
    let m := s.memo tile t.bank t.pkt.dst
    let last := if m.valid then some m.last else none
    match s.choose r t.pkt.ordered t.vc last (s.usable r (some t.port)) tile with
    | none => s.noCandidate t r
    | some p =>
      let n := 20 + t.pkt.payload.length
      if !s.crossFits tile (p / 8) n then s.putTransit t { t with crossing := true }
      else
        let s := (s.dropTransit t).cross tile (p / 8) n
        let s := if t.pkt.ordered then s else s.setMemo tile t.bank t.pkt.dst ⟨true, p, false⟩
        let s := if t.pkt.crcOk then s else (s.bump .rtr tile 0x180).raise .rtr tile 2
        s.forwardOn tile p (s.transitVc r t.vc p) t.pkt false

/-- Make room for one more cached entry of a slice: 65,536 at most; which entry goes is a free choice (R313, log 3). -/
def State.roomForRoute (s : State) (tile : Nat) : State :=
  let mine := s.fab.routes.filter fun e => decide (e.1 / 2 ^ 21 = tile)
  if mine.length < 65536 then s
  else
    let (n, s) := s.drawNat
    match mine[n % mine.length]? with
    | some e => { s with fab := { s.fab with routes := s.fab.routes.filter fun x => decide (x.1 ≠ e.1) } }
    | none => s

/-- The head of an ingress VC is looked up: a hit forwards it, a miss makes it wait (R312, R313). -/
def State.lookUp (s : State) (t : TransitPkt) : State :=
  let tile := t.port / 8
  let m := s.memo tile t.bank t.pkt.dst
  let s := if m.valid && m.bad then (s.setMemo tile t.bank t.pkt.dst {}).parityError .rtr tile else s
  if m.valid && !m.bad then (s.bump .rtr tile 0x118).forwardHead t
  else if 64 ≤ (s.fab.transit.filter fun x => x.waiting && decide (x.port / 8 = tile)).length then s
  else (s.bump .rtr tile 0x120).putTransit t { t with waiting := true }

/-! ### Arrival (R309) -/

/-- Whether local handling of the packet sends a reply that needs room in the port's allowance. -/
def State.needsReply (s : State) (p : Nat) (k : Packet) : Bool :=
  let op := k.opcode.toNat
  if k.dst ≠ s.devEid ∧ k.dst ≠ 0xFFFFF then false
  else if op = 0x31 then decide (k.payload.length ≤ 64)
  else if k.dst = s.devEid ∧ 1 ≤ op ∧ op ≤ 8 then
    if op = 3 then decide (bits (k.word 0) 6 0 = 0) && ((s.arrivalStatus k).isSome || s.fragmentRefused p k)
    else (s.arrivalStatus k).isSome
  else false

/-- Telemetry of a received packet (R321). -/
def State.countRx (s : State) (p vc : Nat) (k : Packet) : State :=
  let t := s.tel p vc
  s.setTel p vc { t with rxPkts := t.rxPkts + 1, rxBytes := t.rxBytes + BitVec.ofNat 64 (20 + k.payload.length) }

/-- Record a packet in the RTR first-error capture. Log 67. -/
def State.captureEndCrc (s : State) (p : Nat) (k : Packet) : State :=
  s.error .rtr (p / 8) { evtBit := 2, code := 0x140, port := some p, src := k.src.toNat, ctx := k.ctxid.toNat, d0 := wordAt k.header 0, d1 := wordAt k.header 1 }

/-- The table of R309 for a packet that has been counted; `local'` is the local time of its first block. -/
def State.decide' (s : State) (p vc : Nat) (k : Packet) (local' : Nat) : State :=
  let tile := p / 8
  let op := k.opcode.toNat
  if !k.lenOk then s.rtrCount tile 0x148 0
  else if k.dst = 0xFFFFF then
    if op = 0x30 ∨ op = 0x31 then
      let s := s.bump .rtr tile 0x110
      if !k.crcOk then (s.captureEndCrc p k).raise .rtr tile 0
      else if op = 0x30 then s.takeBeacon p k local' else s.takeEcho p k
    else s.rtrCount tile 0x150 0
  else if k.dst = s.devEid then
    let s := s.bump .rtr tile 0x110
    if !k.crcOk then (s.captureEndCrc p k).raise .rtr tile 0
    else if 1 ≤ op ∧ op ≤ 8 then
      if op = 3 ∧ bits (k.word 0) 6 0 ≠ 0 then s.batchFragment p k
      else match s.arrivalStatus k with
        | some a => s.answerArrival p k a
        | none => if op = 3 then s.batchFragment p k else s.enterIntake p k
    else if op = 9 then
      if s.inComputeReset then s.rtrCount tile 0x150 0
      else if s.check1 k then s.takeResponse p k
      else s.rtrCount tile 0x168 0
    else if op = 0x31 then s.takeEcho p k
    else s.rtrCount tile 0x150 0
  else
    { s with fab := { s.fab with transit := s.fab.transit ++ [⟨k, p, vc, s.tick, false, s.activeBank .rtt, s.activeBank .tft, false, false⟩] } }

/-- A packet waits in its ingress VC: behind another that waits there, or because its own reply finds the allowance used up (R310, R313). -/
def State.mustWait (s : State) (p vc : Nat) (k : Packet) : Bool :=
  s.adm.ingress.any (fun w => decide (w.1 = p ∧ w.2.1 = vc)) ||
    s.fab.transit.any (fun t => decide (t.port = p ∧ t.vc = vc) && (t.waiting || t.held || t.crossing)) || (s.needsReply p k && !s.replyRoom p)

/-- A packet arrives on a port that is UP. -/
def State.arrive (s : State) (p vc : Nat) (k : Packet) (local' : Nat) : State :=
  if s.linkState p ≠ 4 ∨ s.portsStopped = true then s
  else
    let s := s.countRx p vc k
    if s.mustWait p vc k then { s with adm := { s.adm with ingress := s.adm.ingress ++ [(p, vc, k)] } }
    else s.decide' p vc k local'

/-- The local time of a packet that arrives with no time of its own: some instant of the current tick (log 3). -/
def State.someTime (s : State) : Nat := s.tim.netTime + Config.freeNat s.fresh % max 1 s.periodNs

/-- Packets that waited in their ingress VC are taken again, in their order, as far as nothing makes them wait (R310, R313). -/
def State.retryIngress (s : State) : State :=
  let l := s.adm.ingress
  l.foldl (fun s w =>
    if s.mustWait w.1 w.2.1 w.2.2 then { s with adm := { s.adm with ingress := s.adm.ingress ++ [w] } }
    else s.decide' w.1 w.2.1 w.2.2 s.someTime) { s with adm := { s.adm with ingress := [] } }

/-! ### Transit packets that wait (R310, R312, R313) -/

/-- TRANSIT_FORWARD: the head of an ingress VC goes on, looked up unless it waits for a link alone; what waits behind it follows. -/
def State.forwardTransit (s : State) (p vc : Nat) : State :=
  match s.transitHead p vc with
  | none => s
  | some t =>
    if t.waiting || t.held then s
    else (if t.crossing then s.forwardHead t else s.lookUp t).retryIngress.updateXoff p

/-- FILTER_HELD_RETRY: a held request is taken again in its next tick, which is then its tick of arrival (R310). -/
def State.retryHeld (s : State) (p vc : Nat) : State :=
  match s.transitHead p vc with
  | some t =>
    if t.held && tle t.arrived s.tick then
      let t' := { t with held := false, arrived := s.tick, bank := s.activeBank .rtt, tft := s.activeBank .tft }
      ((s.putTransit t t').lookUp t').retryIngress.updateXoff p
    else s
  | none => s

/-- ROUTE_MISS_FILL: the entry arrives in a table-fetch slot, and waits for the next tick without one (R83); a read that fails its check
drops the packet (R255, R313); an entry with VALID 0 is not cached (R30). -/
def State.fillRoute (s : State) (p vc : Nat) : State :=
  match s.transitHead p vc with
  | some t =>
    if t.waiting then
      let tile := p / 8
      let i := t.pkt.dst.toNat
      match s.fetchLine ((s.regionPhys (s.entryAddr .rtt t.bank i)).getD 0 / 256) with
      | none => s
      | some s =>
        let c := s.checkRegion .requester ((s.regionPhys (s.entryAddr .rtt t.bank i)).getD 0 / 256)
        let s := c.2
        if c.1 then
          let s := s.raiseTableCrc (s.entryAddr .rtt t.bank i)
          ((((s.dropTransit t).bump .rtr tile 0x160).raise .rtr tile 0).raise .rtr tile 4).retryIngress.updateXoff p
        else
          let r := s.rtt t.bank i
          let s := if r.valid then (s.roomForRoute tile).setMemo tile t.bank t.pkt.dst ⟨true, r.cands.headD 0, false⟩ else s
          let t' := { t with waiting := false }
          ((s.putTransit t t').forwardHead t').retryIngress.updateXoff p
    else s
  | none => s

/-- A packet of one opcode taken by its own row. Log 62. -/
def State.arriveAs (s : State) (p : Nat) (ops : List Nat) (k : Packet) (local' : Nat) : State :=
  if ops.contains k.opcode.toNat && (decide (k.dst = s.devEid) || decide (k.dst = 0xFFFFF)) then s.arrive p 0 k local' else s

/-! ### Rows -/

/-- PACKET_ARRIVAL (R309). -/
def execPacketArrival (port : Fin 32) (linkVc : Fin 8) (pkt : Packet) (s : State) : Host.Outcome State Fault Refusal :=
  .next ({ s with fresh := s.fresh + 1 }.arrive port linkVc pkt s.someTime)

/-- TRANSIT_FORWARD (R314). -/
def execTransitForward (port : Fin 32) (linkVc : Fin 8) (s : State) : Host.Outcome State Fault Refusal :=
  .next (s.forwardTransit port linkVc)

/-- FILTER_HELD_RETRY (R310). -/
def execFilterHeldRetry (port : Fin 32) (linkVc : Fin 8) (s : State) : Host.Outcome State Fault Refusal :=
  .next (s.retryHeld port linkVc)

/-- ROUTE_MISS_FILL (R313). -/
def execRouteMissFill (port : Fin 32) (linkVc : Fin 8) (s : State) : Host.Outcome State Fault Refusal :=
  .next (s.fillRoute port linkVc)

/-- ECHO (R308): an ECHO addressed to the device. -/
def execEcho (port : Fin 32) (pkt : Packet) (s : State) : Host.Outcome State Fault Refusal :=
  .next (s.arriveAs port [0x31] pkt 0)

/-- TIME_BEACON (R492). -/
def execTimeBeacon (port : Fin 32) (pkt : Packet) (localNs : Nat) (s : State) : Host.Outcome State Fault Refusal :=
  .next (s.arriveAs port [0x30] pkt localNs)

/-- BATCH (R109): a BATCH fragment addressed to the device. -/
def execBatch (port : Fin 32) (pkt : Packet) (s : State) : Host.Outcome State Fault Refusal :=
  .next (s.arriveAs port [3] pkt 0)

/-- RSP_ACK (R288): a COH_RSP without data. -/
def execRspAck (port : Fin 32) (pkt : Packet) (s : State) : Host.Outcome State Fault Refusal :=
  .next (if bits (pkt.word 0) 19 16 = 0xC then s.arriveAs port [9] pkt 0 else s)

/-- RSP_DATA (R288): a COH_RSP with the line. -/
def execRspData (port : Fin 32) (pkt : Packet) (s : State) : Host.Outcome State Fault Refusal :=
  .next (if bits (pkt.word 0) 19 16 = 0xD then s.arriveAs port [9] pkt 0 else s)

/-- RECALL_EXPIRE (R286). -/
def execRecallExpire (tile : Fin 4) (s : State) : Host.Outcome State Fault Refusal := .next (s.expireRecalls tile)

/-- SNOOP_SEND (R287). -/
def execSnoopSend (tile : Fin 4) (s : State) : Host.Outcome State Fault Refusal := .next (s.sendSnoops tile)

/-- SNOOP_TIMEOUT (R292). -/
def execSnoopTimeout (tile : Fin 4) (s : State) : Host.Outcome State Fault Refusal := .next (s.timeoutSnoops tile)

/-- DOMAIN_DOWN (R293). -/
def execDomainDown (domain : BitVec 12) (s : State) : Host.Outcome State Fault Refusal := .next (s.runDown domain.toNat)

/-- DOMAIN_SWEEP (R293). -/
def execDomainSweep (tile : Fin 4) (lines : Nat) (s : State) : Host.Outcome State Fault Refusal := .next (s.sweepTile tile lines)

end Sys2Proof.Machine
end

