-- ==== Sys2Proof/Machine/Intake.lean ====
section
/-! DEFINITION. The Headgate (chapter 3): taking a request from an intake queue (R78, R432), checks 1 to 4 (R56, R79), demand
maps (R80, R85, R88 to R94, R518), step 2 (R81, R130), and the READ and WRITE requests (R146 to R148, R305). -/

namespace Sys2Proof.Machine

/-! ### Taking a request (R78, R310, R432) -/

/-- Whether a Headgate takes requests at all: not while a compute reset holds it, a release holds it, or the ports have
stopped. -/
def State.headgateRuns (s : State) : Bool :=
  !s.inComputeReset && decide (s.fld 0x5200 2 0 ≠ 3) && !s.portsStopped

/-- Remove a request from the queue it is the head of, and free nothing else. -/
def State.unqueue (s : State) (q : Queued) : State :=
  { s with adm := { s.adm with intake := s.adm.intake.erase q } }

/-- Free the assembly buffers of a batch (R109): the first complete assembly of its stream, since a stream's batches are taken in the
order in which they were assembled. -/
def State.freeAsm (s : State) (q : Queued) : State :=
  { s with adm := { s.adm with asm := s.adm.asm.eraseP fun a => asmMatch q.port q.pkt a && a.2.complete } }

/-- Heads that a tile may take in a tick: one for each cycle of the intake window, INTAKE_PCT percent of the tick's cycles, the percentage
kept in 50 to 90 (R78, R103). -/
def State.intakeWindow (s : State) (tile : Nat) : Nat :=
  400 * s.tim.periodQ * min 90 (max 50 (s.fld (rOff .hdg tile 0x200) 15 8)) / 100

/-- Heads that a tile has taken in this tick. -/
def State.headsTaken (s : State) (tile : Nat) : Nat := sget (fun _ => 0) s.adm.heads tile

/-- Count a head that a tile takes. -/
def State.countHead (s : State) (tile : Nat) : State :=
  { s with adm := { s.adm with heads := sset (fun _ => 0) s.adm.heads tile (s.headsTaken tile + 1) } }

/-- The head of a port's intake queue, when the Headgate may take it: the port is UP with a reply left to it, and the tile's intake window
has a cycle left. -/
def State.headOf (s : State) (p : Nat) (op : Nat) : Option Queued :=
  match s.adm.intake.find? (fun q => decide (q.port = p)) with
  | some q =>
    if decide (q.pkt.opcode.toNat = op ∧ s.linkState p = 4 ∧ s.headsTaken (p / 8) < s.intakeWindow (p / 8)) && s.replyRoom p && s.headgateRuns
    then some q else none
  | none => none

/-- The request waited ceil(64 / P) ticks (R432). -/
def State.aged (s : State) (q : Queued) : Bool := decide (s.ticksOfUs 64 ≤ tsub s.tick q.arrived)

/-- Take the head of a port's queue: too old it is refused LATE, with admission stopped STOPPED; otherwise it is decided. Log 24. -/
def State.takeHead (s : State) (p op : Nat) (k : Queued → State → State) : State :=
  match s.headOf p op with
  | none => s
  | some q =>
    let s := (s.unqueue q).countHead (p / 8)
    if s.aged q then (s.freeAsm q).refusePkt (p / 8) p q.pkt 0xC
    else if s.stopped then (s.freeAsm q).refusePkt (p / 8) p q.pkt 0xE
    else k q s

/-! ### Checks 2 to 4 (R56) -/

/-- A place that a request names: extent and offset. -/
structure Named where
  ext : Nat
  off : Nat
deriving DecidableEq, Repr

/-- The lines of the tier tables that a probe of line `l` of a parcel reads and that fail their check: the read of one of them fails
(R210, R255). -/
def State.tierRefs (s : State) (p l : Nat) : List (Nat × Bool) :=
  let base := fun (o : Nat) => s.fld (rOff .tier 0 o) 51 12 * 4096
  let f := (s.pftOf p).frame
  ([base 0x200 + 4 * p, base 0x208 + 32 * f, base 0x210 + 2048 * f + l / 4].filter fun a => match s.regionPhys a with
    | some q => s.hasFlash && s.regionLineBad (q / 256)
    | none => false).map fun a => (a, false)

/-- The table entries that a decision reads: those of the context and of each named extent, the parcel map entry and tier table entries of
each named byte, and the route of the source EID `src` (R80, R130, R210, R313). -/
def State.tablesOf (s : State) (ctx : Nat) (src : Option Nat) (ns : List Named) : List (Nat × Bool) :=
  let b := s.banks
  s.entryRef .ctxt (boundBank b .ctxt) ctx :: (ns.flatMap fun n =>
    let e := s.extt b n.ext
    s.entryRef .extt (boundBank b .extt) n.ext ::
      (if e.valid && decide (n.off < e.bytesAt s.tick) then
        s.pmapRef e.pmap (n.off / 2 ^ 21) :: s.tierRefs (s.parcelOf e n.off).1 (n.off % 2 ^ 21 / 256) else [])) ++
    (match src with
     | some i => if i = 0xFFFFF then [] else [s.entryRef .rtt (boundBank b .rtt) i]
     | none => [])

/-- Checks 1 to 4 of R56 for a request of context `ctx` that names places, the status of the first that fails. `right` is its
bit of CLASS_RIGHTS. -/
def State.checks (s : State) (c : Ctxt) (one : Bool) (right : Nat) (ns : List Named) : Option Nat :=
  let es := ns.map fun n => (n, s.extt s.banks n.ext)
  if !one then some stAccess
  else if !c.may right || (es.any (fun x => !x.2.pinned) && !c.may 6) then some stAccess
  else if es.any fun x => !x.2.valid || decide (x.2.bytesAt s.tick ≤ x.1.off) then some stInvalid
  else if es.any fun x => x.2.revoked && tle x.2.revoke s.tick then some stRevoked
  else none

/-- Near when every named extent is pinned, Deep otherwise (R52). -/
def State.classOf (s : State) (xs : List Nat) : Cls := if xs.all fun x => (s.extt s.banks x).pinned then .near else .deep

/-- Ticks after T of the row stage's end, the Confluence and the egress of a class (R20, R72). -/
def Cls.conf : Cls → Nat
  | .near => 2 | _ => 47
/-- PCT minus T (R71). -/
def Cls.pct : Cls → Nat
  | .near => 3 | _ => 48

/-! ### Demand maps -/

/-- A demand map under construction: charges, reasons that already refuse it, charges for which no tick or segment is left, the misses,
the frames it holds, and the state with the frames assigned. -/
structure Demand where
  needs : List Need := []
  reasons : List Nat := []
  lost : List Need := []
  misses : List Miss := []
  hold : List Nat := []
  /-- Parcels whose lines it writes, mirrors included (R214), and parcels of which its probe found a line (R211). -/
  holdW : List Nat := []
  hits : List Nat := []
  st : State

/-- Add charges. -/
def Demand.add (d : Demand) (ns : List Need) : Demand := { d with needs := d.needs ++ ns }

/-- Add a reason. -/
def Demand.refuse (d : Demand) (r : Nat) : Demand := { d with reasons := d.reasons ++ [r] }

/-- Add charges that cannot be placed: they refuse the request with their own reason and count as refused demand (R81, R96). -/
def Demand.lose (d : Demand) (ns : List Need) : Demand := { d with lost := d.lost ++ ns }

/-- Units of an instance and tick that the map already takes. -/
def Demand.taken (d : Demand) (r : Res) (u : Nat) : Nat :=
  ((d.needs.filter fun n => decide (n.res = r ∧ n.use' = u)).map (·.units)).sum

/-- One HBM slot on the pseudo-channel of a physical line. -/
def State.slotOf (s : State) (ln u n : Nat) : Need := ⟨.hbm (stackOf ln) (s.pcOf ln), u, n, none⟩

/-- A line of an extent: parcel, line in the parcel, home stack. -/
def State.lineRef (s : State) (e : Extt) (ln : Nat) : Nat × Nat × Nat :=
  let ps := s.parcelOf e (ln * 256)
  (ps.1, ln % 8192, ps.2)

/-- A frame for a parcel that has none, in the admission tick; FRAMES when a pool is empty (R85, R213, R518). -/
def Demand.frame (d : Demand) (e : Extt) (p st pct : Nat) : Demand :=
  match d.st.frameOf p with
  | some _ => d
  | none =>
    match d.st.giveFrame p st e.assured pct .resident with
    | some s => { d with st := s }
    | none => d.refuse 0xB

/-- The die, page and channel of a group. Log 70. -/
def State.groupPlace (s : State) (p g st : Nat) : Nat × Nat :=
  (s.groupDie p g st, if (s.fgroup p g).stored then (s.fgroup p g).page else 2 ^ 40 + p * 512 + g)

/-- The earliest usable sense frame for a new page on die `die` whose transfer also fits the channel (R73, R85, R94). Log 68. -/
def Demand.senseTick (d : Demand) (h die : Nat) : Option Nat :=
  let s := d.st
  let S := s.senseTicks
  let X := s.xferTicks
  if 46 < S + X then none
  else
    ((List.range (46 - S - X)).map fun i => tadd s.tick (i + 1)).find? fun u =>
      decide ((u + S - die % S) % S = 0 ∧ d.taken (.sense die) u < s.left h (.sense die) u none)

/-- A missed 16-line group joins the map: one frame per page, one sector transfer per group (R85, R94). -/
def Demand.missGroup (d : Demand) (h p g st : Nat) (lines : List Nat) : Demand :=
  let s := d.st
  let (die, page) := s.groupPlace p g st
  let S := s.senseTicks
  let X := s.xferTicks
  let same := d.misses.find? fun m => decide (m.die = die ∧ (s.groupPlace m.parcel m.group st).2 = page)
  let at' := match same with
    | some m => some m.senseAt
    | none => d.senseTick h die
  match at' with
  | none => d.lose [⟨.sense die, tadd s.tick 1, 1, none⟩]
  | some u =>
    let d := if same.isSome then { d with st := s.bump .hdg h 0x1A8 } else d.add [⟨.sense die, u, 1, none⟩]
    let d := d.add ((List.range X).map fun i => ⟨.chan (die / 8), tadd u (S + i), 4096 / X, none⟩)
    let fill := lines.filterMap fun l => (d.st.lineAt p l).map fun ln => d.st.slotOf ln (tadd u (S + X)) 1
    { d.add fill with misses := d.misses ++ [{ parcel := p, group := g, lines := lines, die := die, page := page, copy := s.copyOf p g, senseAt := u }] }

/-- Read charges of a set of lines of an extent: a slot in T + 1 for a resident line, a miss for an absent one (R85, R92). -/
def Demand.readLines (d : Demand) (h : Nat) (e : Extt) (lns : List Nat) (pct : Nat) : Demand :=
  let s := d.st
  let u := tadd s.tick 1
  let refs := lns.map fun ln => s.lineRef e ln
  let res := refs.filter fun r => s.resident r.1 r.2.1
  let abs := refs.filter fun r => !s.resident r.1 r.2.1
  let d := d.add (res.filterMap fun r => (s.lineAt r.1 r.2.1).map fun ln => s.slotOf ln u 1)
  let d := { d with hold := d.hold ++ refs.map (·.1), hits := d.hits ++ res.map (·.1) }
  let d := abs.foldl (fun (d : Demand) r => d.frame e r.1 r.2.2 pct) d
  let groups := (abs.map fun r => (r.1, r.2.1 / 16, r.2.2)).dedup
  groups.foldl (fun (d : Demand) (g : Nat × Nat × Nat) => d.missGroup h g.1 g.2.1 g.2.2
    ((abs.filter fun r => decide (r.1 = g.1 ∧ r.2.1 / 16 = g.2.1)).map (·.2.1)).dedup) d

/-- Dirty grant of the groups that a request may write (R91). Log 69. -/
def Demand.dirty (d : Demand) (h : Nat) (groups : List (Nat × Nat)) : Demand :=
  let s := d.st
  if !s.hasFlash then d
  else
    let fresh := groups.dedup.filter fun g => !(s.groupDirty g.1 g.2) && !(s.adm.dirtyGroups.contains (h, g.1 * 512 + g.2))
    d.add [⟨.dirty h, s.tick, 16 * fresh.length, none⟩]

/-- Slots of writing a line in T + 1: 1 for a full line, 2 for a part, and 1 on the mirror of an Assured line (R92). -/
def Demand.writeLine (d : Demand) (e : Extt) (p l : Nat) (slots : Nat) : Demand :=
  let s := d.st
  let u := tadd s.tick 1
  match s.lineAt p l with
  | none => d
  | some ln =>
    let d := { d.add [s.slotOf ln u slots] with holdW := d.holdW ++ [p] }
    if e.assured then d.add [s.slotOf ((s.fhtOf (ln / 8192)).mirrorFrame * 8192 + l) u 1] else d

/-- A line that must be resident: refused PREFETCH with a background fetch otherwise (R93). -/
def Demand.mustBeResident (d : Demand) (p l : Nat) : Demand :=
  if d.st.resident p l then { d with hold := d.hold ++ [p], hits := d.hits ++ [p] } else { d with st := d.st.startFetch p (l / 16) }.refuse 0xD

/-- Bytes that cross from tile `a` to tile `b` in tick `u` (R17, R89). Log 32. -/
def linkNeed (a b u n : Nat) : List Need := if a = b ∨ n = 0 then [] else [⟨.link a b, u, n, none⟩]

/-- Egress of packets of the given payload sizes in tick `u` toward `eid`: the port of R130, the placement of R363. -/
def Demand.egress (d : Demand) (h : Nat) (c : Ctxt) (ctx : Nat) (eid : BitVec 20) (u : Nat) (sizes : List Nat) :
    Demand × Option Nat × List Nat :=
  let s := d.st
  match s.portTo eid u with
  | none => (d.refuse 6, none, [])
  | some p =>
    let v := bits (c.sub.headD 0) 2 0
    match s.placeEgress h p u v (sizes.map blocksOf) 0 [] with
    | none => (d.lose [⟨.seg p 0, u, (sizes.map blocksOf).sum, none⟩], some p, [])
    | some got => (d.add (s.egressNeeds p u v ctx c got), some p, got.map (·.1))

/-! ### Step 2 (R81) -/

/-- Physical core of a logical core, from the tile's core maps. -/
def State.physCore (s : State) (core : Nat) : Nat :=
  match (List.range 34).find? (fun i => let m := s.reg (rOff .eng (core / 32 * 34 + i) 0x200); bit m 8 && decide (bits m 4 0 = core % 32)) with
  | some i => core / 32 * 34 + i
  | none => core / 32 * 34 + core % 32

/-- Count the engine-cycles that a map reserves on the pages of their cores (R136). -/
def State.countCycles (s : State) (ns : List Need) : State :=
  ns.foldl (fun s n => match n.res with
    | .engine c => s.bumpN .eng (s.physCore c) 0x118 n.units
    | _ => s) s

/-- Engine-cycles of an index stage that a request of tile `h`, accepted last, has reserved on a core in the admission tick (R79, R136). -/
def State.claimIndex (s : State) (h core n : Nat) : State :=
  if n = 0 then s
  else
    let s := s.bumpN .eng (s.physCore core) 0x118 n
    { s with adm := { s.adm with claims := s.adm.claims ++ [⟨.engine core, s.tick, h, s.adm.nextRid - 1, n, s.tick, none⟩] } }

/-- Engine-cycles of an index stage that is no batch's, reserved and used on a core of tile `h`, which one being free (R136, R148, R163;
log 3). -/
def State.useIndex (s : State) (h n : Nat) : State :=
  if n = 0 then s
  else
    let core := h * 32 + Config.freeNat s.fresh % 32
    let s := (s.claimIndex h core n).bumpN .eng (s.physCore core) 0x110 n
    { s with fresh := s.fresh + 1 }

/-- The counter of an acceptance (R103). -/
def Cls.counter : Cls → Nat
  | .near => 0x100 | .deep => 0x108 | .bulk => 0x110

/-- Step 2 of a request taken from port `p` on tile `h`: the reservations and the request when every charge fits, else a refusal
with the least reason. `s0` is the state before any frame was assigned; background fetches of the map stay. -/
def Demand.decide' (d : Demand) (s0 : State) (h p : Nat) (k : Packet) (mk : Nat → Req) : State :=
  let ns := mergeNeeds [] d.needs
  let bad := d.st.short h ns ++ d.lost
  let rs := d.reasons ++ bad.map (·.res.reason)
  if rs.isEmpty then
    let s := d.st
    let r := mk s.adm.nextRid
    let s := s.reserve h r.rid ns
    let s := { s with adm := { s.adm with nextRid := s.adm.nextRid + 1, reqs := s.adm.reqs ++ [r] } }
    let s := d.hold.dedup.foldl (fun s q => s.holdParcel false q r.pct) s
    let s := d.holdW.dedup.foldl (fun s q => s.holdParcel true q r.pct) s
    let s := d.hits.dedup.foldl State.hitParcel s
    (s.countCycles ns).bump .hdg h r.cls.counter
  else
    let least := rs.foldl min 0xF
    let s := d.hits.dedup.foldl State.hitParcel { s0 with tier := { s0.tier with fetches := d.st.tier.fetches } }
    (s.refusedDemand h (ns ++ d.lost) bad least).refusePkt h p k least

/-- Note the groups that this decision charged, for later decisions of the tick (R91). -/
def State.noteGroups (s : State) (h : Nat) (gs : List (Nat × Nat)) : State :=
  { s with adm := { s.adm with dirtyGroups := (s.adm.dirtyGroups ++ gs.map (fun (g : Nat × Nat) => (h, g.1 * 512 + g.2))).dedup } }

/-- A request with what R31 binds. -/
def State.mkReq (s : State) (k : Packet) (port : Option Nat) (tile : Nat) (cls : Cls) (egress : Option Nat) (segs : List Nat)
    (exts : List Nat) (misses : List Miss) (work : Work) (rid : Nat) : Req :=
  { rid := rid, ctx := k.ctxid, src := k.src, tag := k.tag, port := port, tile := tile, cls := cls, admitTick := s.tick,
    pct := tadd s.tick cls.pct, egress := egress, segs := segs, banks := s.banks,
    epoch := BitVec.ofNat 32 (s.fld 0x5200 63 32), exts := exts, domain := none, misses := misses, chunks := [], moved := 0,
    work := work }

/-- A request whose demand map step 2 decides (R81): the state before any frame was assigned, the map, the request for a number, and
what an acceptance does besides. -/
structure Ask where
  s0 : State
  d : Demand
  req : Nat → Req
  after : State → State

/-- What step 1 makes of a request: its end, or a map to decide. -/
abbrev Decided := State ⊕ Ask

/-- Every charge of a map fits (R81). -/
def Demand.fits (d : Demand) (h : Nat) : Bool := d.reasons.isEmpty && d.lost.isEmpty && (d.st.short h (mergeNeeds [] d.needs)).isEmpty

/-- Step 2 of a request taken from port `p` on tile `h`. -/
def Ask.run (a : Ask) (h p : Nat) (k : Packet) : State :=
  let s := a.d.decide' a.s0 h p k a.req
  if a.d.fits h then a.after s else s

/-- Both steps. -/
def Decided.settle (h p : Nat) (k : Packet) : Decided → State
  | .inl s => s
  | .inr a => a.run h p k

/-- Go on with a request once its table lines are there: without a slot for one its index stage is not finished at the deadline of step 2
and it is refused LATE (R81); a line that fails its check ends it with INTERNAL (R255). -/
def State.whenFetched (h p : Nat) (k : Packet) (f : Fetched × State) (go : State → Decided) : Decided :=
  match f.1 with
  | .ok => go f.2
  | .late => .inl (f.2.refusePkt h p k 0xC)
  | .bad a => .inl ((f.2.raiseTableCrc a).answer p k stInternal)

/-- The common front of a fabric request at the Headgate of tile `h`: its tables are read, then checks 1 to 4. -/
def State.frontAt (s : State) (h p : Nat) (q : Queued) (right : Nat) (ns : List Named) (k : Ctxt → State → Decided) : Decided :=
  State.whenFetched h p q.pkt (s.takeCopies h (s.tablesOf q.pkt.ctxid.toNat (some q.pkt.src.toNat) ns)) fun s =>
    let c := s.ctxt s.banks q.pkt.ctxid.toNat
    match s.checks c (s.check1 q.pkt) right ns with
    | some st => .inl (s.answer p q.pkt st)
    | none => k c s

/-- The front of a request at the tile of its port. -/
def State.front (s : State) (p : Nat) (q : Queued) (right : Nat) (ns : List Named) (k : Ctxt → State → Decided) : Decided :=
  s.frontAt (p / 8) p q right ns k

/-- Step 1 of R79 for the charges it makes: where one does not fit the request is refused at once and nothing else of it is looked at. -/
def State.stepOne (s : State) (h p : Nat) (k : Packet) (ns : List Need) (go : State → Decided) : Decided :=
  let one := s.short h (mergeNeeds [] ns)
  if one.isEmpty then go s else .inl ((s.refusedDemand h ns one (leastReason one)).refusePkt h p k (leastReason one))

/-! ### READ (R305) -/

/-- Lines of a byte range of an extent. -/
def linesOf (off n : Nat) : List Nat := (List.range ((off + n - 1) / 256 + 1 - off / 256)).map fun i => off / 256 + i

/-- Decide a READ: its range is within one extent; a coherent one ends with BAD_FORMAT (R275). A malformed payload is found before checks 2
to 4. Log 33. -/
def State.decideRead (s : State) (p : Nat) (q : Queued) : Decided :=
  let k := q.pkt
  let n := bits (k.word 1) 13 0
  if k.payload.length ≠ 16 ∨ n = 0 ∨ 8192 < n then .inl (s.answer p k stBadFormat)
  else
    match ptrOf (k.word 0) with
    | .at' x off =>
      s.front p q 1 [⟨x, off⟩, ⟨x, off + n - 1⟩] fun c s =>
        let e := s.extt s.banks x
        if e.coherent then .inl (s.answer p k stBadFormat)
        else
          let h := p / 8
          let cls := s.classOf [x]
          let pct := tadd s.tick cls.pct
          let d : Demand := { st := s }
          let d := d.readLines h e (linesOf off n) pct
          let (d, port, segs) := d.egress h c k.ctxid.toNat k.src pct [n]
          let d := match port with
            | some o => (linesOf off n).foldl (fun (d : Demand) ln =>
                d.add (linkNeed ((s.lineRef e ln).2.2 / 6) (o / 8) (tadd s.tick cls.conf) 256)) d
            | none => d
          .inr ⟨s, d, s.mkReq k (some p) h cls port segs [x] d.misses (.read x off n (List.replicate n 0) 0 false), id⟩
    | _ => s.front p q 1 [] fun _ s => .inl (s.answer p k stInvalid)

/-! ### WRITE (R146 to R148, R253, R305, R518) -/

/-- Store pieces of a transcoding write: (offset, bytes, source byte range) of each run; none ends the write with BAD_FORMAT
(R146, R147). -/
def transcode (e : Extt) (src off : Nat) (data : List Byte) : Option (List (Nat × List Byte × Nat × Nat)) :=
  if src = 0 ∨ src = e.format then some [(off, data, 0, data.length)]
  else
    match ffmtOf src with
    | none => none
    | some f =>
      if e.format = 0 ∨ 7 < e.format ∨ data.length % f.width ≠ 0 then none
      else
        let xs := (elemsOf f.width (data.length / f.width) data).map fun c => fword (f.decode c)
        let n := e.rowElems
        let whole := decide (off % e.rowSize = 0 ∧ 0 < xs.length ∧ n ≠ 0 ∧ xs.length % n = 0)
        if whole then
          if 6 ≤ e.format ∧ xs.any (fun x => !isFin x) = true then none
          else some ((List.range (xs.length / n)).map fun i =>
            (off + i * e.rowSize, encodeRow e.format e.rowLines ((xs.drop (i * n)).take n), i * n * f.width, n * f.width))
        else
          match ffmtOf e.format with
          | none => none
          | some g =>
            let at' := off % e.rowSize
            if at' % g.width = 0 ∧ at' / g.width + xs.length ≤ n ∧ 0 < xs.length then
              some [(off, encodeElems g xs, 0, data.length)]
            else none

/-- Index-stage engine-cycles of a transcoding write (R148); a last part of fewer than 32 elements costs what a whole one does (DEDUCED,
log 164). -/
def transcodeCycles (e : Extt) (src n : Nat) : Nat :=
  if src = 0 ∨ src = e.format then 0
  else match ffmtOf src with
    | some f => cdiv (n / f.width) 32 * (if 6 ≤ e.format then 3 else 2)
    | none => 0

/-- The pieces of a write cut at lines, with their poison: of a transcoded run every line is poisoned when a segment of it is (R146; DEDUCED,
log 165). -/
def writePieces (x : Nat) (k : Packet) (runs : List (Nat × List Byte × Nat × Nat)) (plain : Bool) : List Piece :=
  runs.flatMap fun r =>
    (pieces (r.2.1.length + 1) r.1 r.2.1).map fun pc =>
      let lo := if plain then pc.1 - r.1 else r.2.2.1
      let n := if plain then pc.2.length else r.2.2.2
      { ext := x, line := pc.1 / 256, first := pc.1 % 256, bytes := pc.2,
        poison := (List.range n).any fun i => k.bytePoison (8 + lo + i) }

/-- The pieces of a WRITE of packet `k` to byte `off` of an extent: none when its transcode is not one of R146. -/
def writeOf (e : Extt) (x src off : Nat) (k : Packet) : Option (List Piece) :=
  (transcode e src off (k.payload.drop 8)).map fun runs => writePieces x k runs (decide (src = 0 ∨ src = e.format))

/-- The byte after the last one that pieces store. -/
def piecesEnd (off : Nat) (ps : List Piece) : Nat := ps.foldl (fun a r => max a (r.line * 256 + r.first + r.bytes.length)) off

/-- Decide a WRITE: check 3 applies to the first byte and to the last one stored (R305). -/
def State.decideWrite (s : State) (p : Nat) (q : Queued) : Decided :=
  let k := q.pkt
  let n := k.payload.length - 8
  if k.payload.length < 9 then .inl (s.answer p k stBadFormat)
  else
    match ptrOf (k.word 0) with
    | .at' x off =>
      let src := bits (BitVec.ofNat 64 k.osf.toNat) 3 0
      let ack := k.osf.getLsbD 4
      let last := piecesEnd (off + 1) ((writeOf (s.extt s.banks x) x src off k).getD [])
      s.front p q 2 [⟨x, off⟩, ⟨x, last - 1⟩] fun c s =>
        let e := s.extt s.banks x
        let h := p / 8
        s.stepOne h p k [⟨.index h, s.tick, transcodeCycles e src n, none⟩] fun s =>
          if e.coherent then .inl (s.answer p k stBadFormat)
          else
            match writeOf e x src off k with
            | none => .inl (s.answer p k stBadFormat)
            | some ps =>
              let cls := s.classOf [x]
              let d : Demand := { st := s }
              let d := ps.foldl (fun (d : Demand) pc =>
                let (pp, l, st) := s.lineRef e pc.line
                if pc.bytes.length = 256 then
                  let d := d.frame e pp st (tadd s.tick cls.pct)
                  { d.writeLine e pp l 1 with hold := d.hold ++ [pp] }
                else (d.mustBeResident pp l).writeLine e pp l 2) d
              let gs := ps.map fun pc => let r := s.lineRef e pc.line; (r.1, r.2.1 / 16)
              let d := d.dirty h gs
              let d := ps.foldl (fun (d : Demand) pc => d.add (linkNeed h ((s.lineRef e pc.line).2.2 / 6) (tadd s.tick 1) pc.bytes.length)) d
              let (d, port, segs) := d.egress h c k.ctxid.toNat k.src (tadd s.tick 2) [0]
              .inr ⟨s, d, s.mkReq k (some p) h cls port segs [x] [] (.write ps (BitVec.ofNat 4 e.format) ack false),
                fun s => (s.noteGroups h gs).useIndex h (transcodeCycles e src n)⟩
    | _ => s.front p q 2 [] fun _ s => .inl (s.answer p k stInvalid)

/-- READ (R305). -/
def execRead (port : Fin 32) (s : State) : Host.Outcome State Fault Refusal :=
  .next (s.takeHead port 1 fun q s => (s.decideRead port q).settle (port / 8) port q.pkt)

/-- WRITE (R305). -/
def execWrite (port : Fin 32) (s : State) : Host.Outcome State Fault Refusal :=
  .next (s.takeHead port 2 fun q s => (s.decideWrite port q).settle (port / 8) port q.pkt)

end Sys2Proof.Machine
end

