-- ==== Sys2Proof/Machine/Lookup.lean ====
section
/-! DEFINITION. Lookup batches (chapter 4): the index stage (R113 to R117, R123), placement and charges (R82, R86 to R89, R118),
the row phase (R124 to R127), the Confluence (R129, R131, R153, R156) and the result (R132 to R134). -/

namespace Sys2Proof.Machine

/-! ### The index stage -/

/-- Where a thread's address stands: nowhere yet, a raw value, a row of an extent, or ended; `late` and `bad` are the two ways in which a
table line is not to be had. -/
inductive Addr where
  | start
  | raw (w : Word)
  | row (ext off : Nat)
  | null
  | ended (status : Nat)
  | stop (status : Nat)
  | fetch (parcel group : Nat)
  | late
  | bad (a : Nat)
deriving DecidableEq, Repr

/-- What one thread's index phase has done: where its address stands, the state after its reads, and the parcels whose pointer lines it
holds (R80). -/
structure Walk where
  at' : Addr
  st : State
  hold : List Nat := []

/-- Check 3 of a pointer that an address micro-op yields, and the row it names (R59, R114); check 4 follows where the row is used. A null or
malformed pointer fails check 3 (DEDUCED, log 33). -/
def State.pointerRow (s : State) (b : BitVec 8) (w : Word) : Addr :=
  match ptrOf w with
  | .at' x off =>
    let e := s.extt b x
    if !e.valid then .stop stInvalid
    else if e.format = 0 ∨ e.coherent = true then .stop stBadFormat
    else if e.bytesAt s.tick ≤ off ∨ e.rowSize = 0 ∨ off % e.rowSize ≠ 0 ∨ e.bytesAt s.tick < off + e.rowSize then .stop stInvalid
    else .row x off
  | _ => .stop stInvalid

/-- Check 4 of R56: the extent is revoked from a tick not after the present one. -/
def State.revokedNow (s : State) (e : Extt) : Bool := e.revoked && tle e.revoke s.tick

/-- Go on with a thread once table lines are there (R80). -/
def Walk.whenFetched (w : Walk) (h : Nat) (xs : List (Nat × Bool)) (go : Walk → Walk) : Walk :=
  match w.st.takeCopies h xs with
  | (.ok, s) => go { w with st := s }
  | (.late, s) => { w with at' := .late, st := s }
  | (.bad a, s) => { w with at' := .bad a, st := s }

/-- The entry of an extent as a thread on tile `h` reads it, with the parcel map entry of a byte of it. -/
def Walk.readExt (w : Walk) (h : Nat) (b : BitVec 8) (x off : Nat) (go : Walk → Walk) : Walk :=
  let e := w.st.extt b x
  w.whenFetched h (w.st.entryRef .extt (boundBank b .extt) x ::
    (if e.valid && decide (off < e.bytesAt w.st.tick) then [w.st.pmapRef e.pmap (off / 2 ^ 21)] else [])) go

/-- Follow the pointer at word `imm` of the current row: its line is read in a table-fetch slot under the key check, and held; what it
reads is the new address (R57, R80, R93, R114, R115, R123). Of a chain only the final row's lines are charged (DEDUCED, log 143). -/
def Walk.chase (w : Walk) (h : Nat) (b : BitVec 8) (c : Ctxt) (ctx imm : Nat) (x off : Nat) : Walk :=
  let o := off + 8 * imm
  w.readExt h b x o fun w =>
    let s := w.st
    let e := s.extt b x
    let ps := s.parcelOf e o
    let l := o / 256 % 8192
    if e.rowSize ≤ 8 * imm then { w with at' := .stop stBadFormat }
    else
      w.whenFetched h [s.entryRef .pkt (boundBank b .pkt) ps.1] fun w =>
        let s := w.st
        let k := s.pkt b ps.1
        if !(k.1 && c.keyOk k.2 false) then
          { w with at' := .stop stAccess, st := s.keyFail ((s.lineAt ps.1 l).getD (ps.2 * 2 ^ 28)) ctx (ptrTo x o) }
        else if s.revokedNow e then { w with at' := .stop stRevoked }
        else if !s.resident ps.1 l then { w with at' := .fetch ps.1 (l / 16) }
        else
          let ln := (s.lineAt ps.1 l).getD 0
          if s.slotUsed 2 (stackOf ln) (s.pcOf ln) < s.share 8 then
            let r := (s.useSlot 2 (stackOf ln) (s.pcOf ln)).readLine ps.1 l ln e.format
            let v := BitVec.ofNat 64 (leNat ((r.1.drop (o % 256)).take 8))
            { at' := if r.2.1 then .ended stConsumed else if v = 0 then .null else .raw v, st := r.2.2, hold := w.hold ++ [ps.1] }
          else { w with at' := .late }

/-- An address that a later address micro-op may still replace. -/
def Addr.goesOn : Addr → Bool
  | .start | .raw _ | .row .. => true
  | .null | .ended _ | .stop _ | .fetch .. | .late | .bad _ => false

/-- A raw address becomes the row it names, with the entry of its extent read. -/
def Walk.resolve (w : Walk) (h : Nat) (b : BitVec 8) : Walk :=
  match w.at' with
  | .raw v => match ptrOf v with
    | .at' x off => w.readExt h b x off fun w => { w with at' := w.st.pointerRow b v }
    | _ => { w with at' := w.st.pointerRow b v }
  | _ => w

/-- Leave an address for a new one: the pointer that it holds has been named and is checked (R113, R114), and a thread that has ended, or
whose request ends, keeps its end (R115). -/
def Walk.leave (w : Walk) (h : Nat) (b : BitVec 8) : Walk :=
  let w := w.resolve h b
  match w.at' with
  | .row x _ => if w.st.revokedNow (w.st.extt b x) then { w with at' := .stop stRevoked } else w
  | _ => w

/-- One address micro-op on a thread (R123). IDX with MODE 1 takes a 32-bit key zero-extended (DESIGN CHOICE, log 141). -/
def Walk.addrOp (h : Nat) (b : BitVec 8) (c : Ctxt) (ctx tx : Nat) (ws : List Word) (key : Word) (w : Walk) (m : MicroOp) : Walk :=
  let w := if m.opc = 1 ∨ m.opc = 2 then w.leave h b else w
  let s := w.st
  let e := s.extt b tx
  let put := fun (a : Addr) => if w.at'.goesOn then { w with at' := a } else w
  let rowAt := fun (r : Nat) => put (if r < e.rowsAt s.tick then Addr.row tx (r * e.rowSize) else .stop stInvalid)
  let cvt := fun (v : Word) =>
    w.whenFetched h (s.listLines c.ebl (16 * c.eblCount)) fun w => { w with at' := match cvtToPtr (w.st.ebl c) v with
      | some p => .raw p
      | none => .ended stInvalid }
  match m.opc with
  | 1 => if m.mode = 0 then rowAt key.toNat else put (.raw key)
  | 2 => rowAt (hashRow key (ws.getD m.ka 0) (if m.kb = 0 then e.rowsAt s.tick else (ws.getD m.kb 0).toNat))
  | 3 =>
    let w := w.resolve h b
    match w.at' with
    | .row x off => w.chase h b c ctx m.imm x off
    | _ => w
  | 11 => match w.at' with
    | .raw v => cvt v
    | .row x off => cvt (ptrTo x off)
    | _ => w
  | _ => w

/-- The index phase of one thread on a core of tile `h` (R113). -/
def State.indexThread (s : State) (h : Nat) (b : BitVec 8) (c : Ctxt) (ctx tx : Nat) (ws : List Word) (key : Word) (poisoned : Bool) : Walk :=
  if poisoned then { at' := .ended stConsumed, st := s }
  else (((microOps ws).takeWhile (·.opc ≠ 4)).foldl (Walk.addrOp h b c ctx tx ws key) { at' := .start, st := s }).resolve h b

/-- What the index stage of a batch has found so far: statuses that end the request, the CONCAT refusal, pointer lines to be
fetched, the threads, the parcels held, and the state after its reads; `late` and `bad` when a table line was not to be had. -/
structure Index where
  ends : List Nat := []
  never : Bool := false
  late : Bool := false
  bad : Option Nat := none
  fetch : List (Nat × Nat) := []
  threads : List Thread := []
  hold : List Nat := []
  /-- The lookups whose index phase ran: logical core, program, and engine-cycles. -/
  ran : List (Nat × Nat × Nat) := []
  st : State

/-- Lines of a row. -/
def rowLines (e : Extt) (off : Nat) : List Nat := (List.range e.rowLines).map fun i => off / 256 + i

/-- Whether every line of a row is resident. -/
def State.rowResident (s : State) (e : Extt) (off : Nat) : Bool :=
  (rowLines e off).all fun ln => let r := s.lineRef e ln; s.resident r.1 r.2.1

/-- Whether any of bytes [lo, lo + n) of batch data is poisoned. -/
def dataPoison (ps : List Bool) (lo n : Nat) : Bool :=
  (List.range ((lo + n + 7) / 8 - lo / 8)).any fun i => ps.getD (lo / 8 + i) false

/-- The parcel map entries of the lines of a row that are not the first (R116). -/
def State.rowRefs (s : State) (e : Extt) (off : Nat) : List (Nat × Bool) := [s.pmapRef e.pmap ((off + e.rowSize - 1) / 2 ^ 21)]

/-- What the index stage keeps of one thread: its row, or how it ended. A row that a Near request finds absent is fetched and not charged
(R117); a thread whose core overruns in this tick ends with INTERNAL (R115). -/
def Index.take (ix : Index) (b : BitVec 8) (h : Nat) (near ran : Bool) (elems : Nat) (w : Walk)
    (mk : Nat → Nat → ThreadSt → Bool → Thread) : Index :=
  let ix := { ix with st := w.st, hold := ix.hold ++ w.hold }
  match w.at' with
  | .row x off =>
    let r := w.st.extt b x
    if r.rowElems ≠ elems then { ix with ends := ix.ends ++ [stBadFormat] }
    else if w.st.revokedNow r then { ix with ends := ix.ends ++ [stRevoked] }
    else
      match w.st.takeCopies h (w.st.rowRefs r off) with
      | (.late, s) => { ix with late := true, st := s }
      | (.bad a, s) => { ix with bad := some a, st := s }
      | (.ok, s) =>
        let miss := !s.rowResident r off
        if ran then { ix with threads := ix.threads ++ [mk 0 0 (.ended (BitVec.ofNat 8 stInternal)) false], st := s }
        else if miss && near then
          let absent := (rowLines r off).filterMap fun ln =>
            let l := s.lineRef r ln
            if s.resident l.1 l.2.1 then none else some (l.1, l.2.1 / 16)
          { ix with fetch := ix.fetch ++ absent, st := s }
        else { ix with threads := ix.threads ++ [mk x off .live miss], st := s }
  | .null => { ix with threads := ix.threads ++ [mk 0 0 .null false] }
  | .ended st => { ix with threads := ix.threads ++ [mk 0 0 (.ended (BitVec.ofNat 8 st)) false] }
  | .stop st => { ix with ends := ix.ends ++ [st] }
  | .fetch p g => { ix with fetch := ix.fetch ++ [(p, g)] }
  | .late => { ix with late := true }
  | .bad a => { ix with bad := some a }
  | .start | .raw _ => { ix with ends := ix.ends ++ [stInvalid] }

/-- The statuses of R113 that a table section gives by itself. -/
def tableEnd (ws : List Word) (e : Extt) (t : BatchTable) (bags : List Nat) (q : Nat) : Option Nat :=
  let ops := microOps ws
  let red := progReducer ops
  if !progOk ws then some stBadProgram
  else if t.lookups = 0 ∨ t.outputs = 0 ∨ bags.sum ≠ t.lookups ∨ e.format = 0 ∨ e.coherent = true ∨ (1 ≤ q ∧ q ≤ 15) ∨
      (red.opc = 6 ∧ progOut ws ≠ e.rowElems) ∨ (red.opc = 7 ∧ progOut ws < e.rowElems) ∨
      (ops.any (fun m => decide (m.opc = 8)) = true ∧ q ≠ e.rowElems) then some stBadFormat
  else none

/-- Cores of the intake tile on which the index stage runs the lookups of a batch, in its order: the source gives no choice (R80, R113;
log 3). -/
def State.indexCores (s : State) (h n : Nat) : List Nat := (List.range n).map fun i => h * 32 + Config.freeNat (s.fresh + i) % 32

/-- The index stage of one table, whose program is `ws`; `cores`: where the lookups of the batch run. -/
def Index.table (ix : Index) (cores : List Nat) (b : BitVec 8) (c : Ctxt) (ctx : Nat) (near : Bool) (bs : List Byte) (ps : List Bool)
    (h ti : Nat) (t : BatchTable) (ws : List Word) (o firstOut : Nat) : Index :=
  let e := ix.st.extt b t.ext
  let ops := microOps ws
  let bags := batchBags bs t o
  match tableEnd ws e t bags (bits (wordAt bs 0) 28 16) with
  | some st => { ix with ends := ix.ends ++ [st] }
  | none =>
    let scale := fun (m : Nat) => ops.any fun p => decide (p.opc = 5 ∧ p.mode = m)
    let never := decide ((progReducer ops).opc = 7 ∧ progOut ws < (bags.foldl max 0) * e.rowElems)
    let here := cores.drop ix.ran.length
    let entries := batchEntries bs t o
    let ix := { ix with never := ix.never || never, ran := ix.ran ++ (here.take entries.length).map fun k => (k, t.prog, bits (ws.getD 0 0) 15 8) }
    let places : List (Nat × Nat) := bags.zipIdx.flatMap fun g => (List.range g.1).map fun i => (g.2, i)
    ((entries.zip places).zip here).foldl (fun (ix : Index) y =>
      let ep := y.1
      let at' := ep.1.2.2
      let kb := if t.e64 then 8 else 4
      let mk := fun (x off : Nat) (st : ThreadSt) (miss : Bool) => ({
        table := ti, out := firstOut + ep.2.1, pos := ep.2.2, ext := x, off := off, id := ptrTo x off, weight := ep.1.2.1,
        st := st, core := y.2, miss := miss,
        poison := (scale 0 && t.weighted && dataPoison ps (at' + kb) 4) ||
          (scale 1 && decide (ep.2.2 < bits (wordAt bs 0) 40 32) && dataPoison ps (batchPoswAt bs + 4 * ep.2.2) 4) } : Thread)
      ix.take b h near (ix.st.adm.overran.contains y.2) e.rowElems (ix.st.indexThread h b c ctx t.ext ws ep.1.1 (dataPoison ps at' kb)) mk) ix

/-- The first status of R114 among those found. -/
def firstEnd (l : List Nat) : Option Nat := [stBadProgram, stBadFormat, stAccess, stInvalid, stRevoked].find? fun x => l.contains x

/-! ### Placement and charges (R82, R86 to R89, R118) -/

/-- Tile of a thread's row (R116). -/
def State.threadTile (s : State) (b : BitVec 8) (t : Thread) : Nat := (s.lineRef (s.extt b t.ext) (t.off / 256)).2.2 / 6

/-- Engine-cycles of one lookup's row phase (R128). -/
def lookupCycles (ws : List Word) (elems : Nat) : Nat :=
  let w := ws.getD 0 0
  bits w 23 16 + bits w 27 24 * cdiv elems 32 + bits w 29 28 * cdiv elems 64

/-- Unreserved engine-cycles of a core in a tick, less those that the map under construction takes: the placements of a request's earlier
outputs count as reserved for its later ones (DESIGN CHOICE, log 142). -/
def Demand.coreFree (d : Demand) (core u : Nat) : Nat :=
  d.st.capacity (.engine core) u - d.st.claimed false (.engine core) u (fun _ _ => true) - d.taken (.engine core) u

/-- The core of a tile with the most unreserved engine-cycles, the lowest on a tie (R82). -/
def Demand.bestCore (d : Demand) (tile u : Nat) : Nat :=
  ((List.range 32).foldl (fun (a : Nat × Nat) i =>
    let c := tile * 32 + i
    let n := d.coreFree c u
    if i = 0 ∨ a.2 < n then (c, n) else a) (tile * 32, 0)).1

/-- Copies of an element that a partial carries: two with compensation (R156). -/
def compFactor (ws : List Word) : Nat := if progComp (microOps ws) then 2 else 1

/-- Elements of a partial of an output of table section `i` (R87, R156). -/
def partElems (secs : List TableSec) (i : Nat) : Nat :=
  match secs[i]? with
  | some t => progOut t.program * compFactor t.program
  | none => 0

/-- The tick in which a line of the request is read: T + 1 for a resident line, the fill tick of its group for a missed one (R72). -/
def Demand.lineTick (d : Demand) (e : Extt) (ln : Nat) : Nat :=
  let s := d.st
  let r := s.lineRef e ln
  match d.misses.find? (fun m => decide (m.parcel = r.1 ∧ m.group = r.2.1 / 16)) with
  | some m => if m.lines.contains r.2.1 then tadd m.senseAt (s.senseTicks + s.xferTicks) else tadd s.tick 1
  | none => tadd s.tick 1

/-- The tick in which a thread's row phase runs: the latest one of its lines (R113). -/
def Demand.threadTick (d : Demand) (b : BitVec 8) (x : Thread) : Nat :=
  let e := d.st.extt b x.ext
  (rowLines e x.off).foldl (fun a ln => tmax a (d.lineTick e ln)) (tadd d.st.tick 1)

/-- The earliestTick of some ticks. -/
def earliestTick (l : List Nat) (u : Nat) : Nat := l.foldl (fun a x => if later a x then x else a) u

/-- Place the live threads of one output on one tile and charge its engine-cycles and thread slots (R82, R86, R118). The core is chosen by
the first tick in which the output's lookups run (log 142). -/
def Demand.placeOutput (d : Demand) (b : BitVec 8) (secs : List TableSec) (pct : Nat) (tile : Nat) (ts : List Thread) :
    Demand × List Thread :=
  match ts with
  | [] => (d, [])
  | t :: _ =>
    let s := d.st
    let at' := ts.map fun x => d.threadTick b x
    let core := d.bestCore tile (earliestTick at' (at'.headD 0))
    let ws := (secs[t.table]?.map (·.program)).getD []
    let cost := lookupCycles ws (s.extt b t.ext).rowElems
    let slots := max ts.length (cdiv (progOut ws * compFactor ws) 64)
    let eng : List Need := at'.map fun u => ⟨.engine core, u, cost, none⟩
    let thr : List Need := (List.range (tsub pct s.tick + 1)).map fun i => ⟨.thread core, tadd s.tick i, slots, none⟩
    (d.add (eng ++ thr), ts.map fun x => { x with core := core })

/-- Lines of a row on another tile than its core cross to it in the tick in which they are read, a row once however many lookups share it
(R94, R116). -/
def Demand.remoteLines (d : Demand) (b : BitVec 8) (placed : List Thread) : Demand :=
  let rows := (placed.map fun t => (t.ext, t.off, t.core / 32)).dedup
  rows.foldl (fun (d : Demand) r =>
    let e := d.st.extt b r.1
    (rowLines e r.2.1).foldl (fun (d : Demand) ln =>
      d.add (linkNeed ((d.st.lineRef e ln).2.2 / 6) r.2.2 (d.lineTick e ln) 256)) d) d

/-- Charges of the Confluence (R87, R89): one core slot per core, one tile slot per tile, the collector slot, the merge
elements, and the bytes of the tile partials that cross. -/
def Demand.confluence (d : Demand) (secs : List TableSec) (u coll : Nat) (ts : List Thread) : Demand :=
  let cores := (ts.map (·.core)).dedup
  let tiles := (cores.map (· / 32)).dedup
  let parts := fun (key : Thread → Nat) (k : Nat) =>
    ((ts.filter fun t => decide (key t = k)).map fun t => (t.table, t.out)).dedup
  let elems := fun (l : List (Nat × Nat)) => (l.map fun o => partElems secs o.1).sum
  let d := d.add (cores.map fun c => ⟨.confCore c, u, 1, none⟩)
  let d := d.add (tiles.map fun t => ⟨.confTile t, u, 1, none⟩)
  let d := d.add (tiles.map fun t => ⟨.mergeTile t, u,
    ((cores.filter fun c => decide (c / 32 = t)).map fun c => elems (parts (·.core) c)).sum, none⟩)
  let tilePart := fun (t : Nat) => elems (parts (fun x => x.core / 32) t)
  let d := d.add [⟨.confColl coll, u, 1, none⟩, ⟨.mergeColl coll, u, (tiles.map tilePart).sum, none⟩]
  tiles.foldl (fun d t => d.add (linkNeed t coll u (4 * tilePart t))) d

/-! ### LOOKUP_BATCH (R79 to R82, R113) -/

/-- Step 1 refuses with NEVER what the batch shows by itself (R112); the bound on its result bytes follows where its programs are read. -/
def batchNever (bs : List Byte) : Bool :=
  let ts := batchTables bs
  decide (65536 < (ts.map (·.lookups)).sum ∨ 65536 < (ts.map (·.outputs)).sum ∨ 4096 < bits (wordAt bs 0) 28 16 ∨
    256 < bits (wordAt bs 0) 40 32 ∨ bs.length ≠ batchLength bs)

/-- The cores take the programs that they run for the first time (R106). -/
def State.takePrograms (s : State) (bank : Bool) (cps : List (Nat × Nat)) : Fetched × State :=
  cps.dedup.foldl (fun (a : Fetched × State) cp => if a.1 = .ok then a.2.takeProgram (a.2.physCore cp.1) bank cp.2 else a) (.ok, s)

/-- The Headgate of tile `h` takes the programs of a batch (R106). -/
def State.headPrograms (s : State) (h : Nat) (bank : Bool) (ps : List Nat) : Fetched × State :=
  ps.dedup.foldl (fun (a : Fetched × State) i => if a.1 = .ok then a.2.takeProgram (136 + h) bank i else a) (.ok, s)

/-- Count the threads of the index phase, `n` bytes of batch deep, on cores of the intake tile, which ones being a free choice (R136,
log 3), with their engine-cycles. -/
def State.countIndex (s : State) (n : Nat) (ran : List (Nat × Nat × Nat)) : State :=
  let s := ran.foldl (fun s x => (s.bump .eng (s.physCore x.1) 0x108).bumpN .eng (s.physCore x.1) 0x110 x.2.2) s
  { s with fresh := s.fresh + n }

/-- Count on the page of a logical core (R136). Log 17. -/
def State.countThread (s : State) (core c : Nat) : State := s.bump .eng (s.physCore core) c

/-- A thread ended under R115: its counter and THREAD_END. -/
def State.threadEnd (s : State) (core c : Nat) : State := (s.countThread core c).raise .eng (s.physCore core) 0

/-- A thread ended with INTERNAL: OVERRUN too (R115, R136). -/
def State.threadOverran (s : State) (core : Nat) : State := (s.threadEnd core 0x148).raise .eng (s.physCore core) 1

/-- Count the threads that ended in the index phase, on the cores where it ran (R115, R136). -/
def State.countEnds (s : State) (ts : List Thread) : State :=
  ts.foldl (fun (s : State) t => match t.st with
    | .live => s
    | .null => s.threadEnd t.core 0x130
    | .ended x =>
      if x.toNat = stInternal then s.threadOverran t.core
      else s.threadEnd t.core (if x.toNat = stConsumed then 0x120 else 0x128)) s

/-- The tiles whose cores run a CVT of the row phase read the context's extent base list in the admission tick (R123). -/
def State.takeLists (s : State) (c : Ctxt) (tiles : List Nat) : Fetched × State :=
  tiles.foldl (fun (a : Fetched × State) t =>
    if a.1 = .ok then a.2.takeCopies t (a.2.listLines c.ebl (16 * c.eblCount)) else a) (.ok, s)

/-- Tables of cores and lists that placed threads need in the admission tick: the programs that a core runs for the first time, and the
lists of CVT (R106, R123). -/
def State.takePlaced (s : State) (bank : Bool) (c : Ctxt) (cps : List (Nat × Nat)) (tiles : List Nat) : Fetched × State :=
  let a := s.takePrograms bank cps
  if a.1 = .ok then a.2.takeLists c tiles else a

/-- Engine-cycles that the index stage of an accepted batch reserved on its cores (R79, R136). -/
def State.claimRan (s : State) (h : Nat) (ran : List (Nat × Nat × Nat)) : State := ran.foldl (fun s x => s.claimIndex h x.1 x.2.2) s

/-- Step 2 of a batch whose index stage is done: reads, placement, egress, Confluence and the request (R80 to R94, R113 to R118). -/
def State.batchAsk (s : State) (p : Nat) (k : Packet) (c : Ctxt) (cls : Cls) (bs : List Byte) (ps : List Bool) (ts : List BatchTable)
    (progs : List (List Word)) (total : Nat) (slots : List Need) (ix : Index) : Decided :=
  let h := p / 8
  let b := s.banks
  let pct := tadd s.tick cls.pct
  let offs := batchOffsets bs
  let firsts := (ts.foldl (fun (a : List Nat × Nat) t => (a.1 ++ [a.2], a.2 + t.outputs)) ([], 0)).1
  let secs := (List.range ts.length).map fun i =>
    let t := ts.getD i ⟨0, 0, false, false, 0, 0⟩
    ({ ext := t.ext, program := progs.getD i [], bags := batchBags bs t (offs.getD i 0), firstOut := firsts.getD i 0 } : TableSec)
  let d : Demand := { st := s, needs := slots, hold := ix.hold, hits := ix.hold }
  let d := ix.fetch.foldl (fun (d : Demand) f => { d with st := d.st.startFetch f.1 f.2 }.refuse 0xD) d
  let live := ix.threads.filter fun t => decide (t.st = .live)
  let rows := (live.map fun t => (t.ext, t.off)).dedup
  -- reads: each distinct row once (R94)
  let d := (rows.map (·.1)).dedup.foldl (fun (d : Demand) x =>
    let e := s.extt b x
    d.readLines h e ((rows.filter fun r => decide (r.1 = x)).flatMap fun r => rowLines e r.2).dedup pct) d
  -- placement: each output on one core per tile
  let keys := (live.map fun t => (t.out, s.threadTile b t)).dedup
  let placed := keys.foldl (fun (a : Demand × List Thread) key =>
    let r := a.1.placeOutput b secs pct key.2 (live.filter fun t => decide (t.out = key.1 ∧ s.threadTile b t = key.2))
    (r.1, a.2 ++ r.2)) (d, [])
  let threads := placed.2 ++ ix.threads.filter fun t => decide (t.st ≠ .live)
  let (d, port, segs) := placed.1.egress h c k.ctxid.toNat k.src pct (packetSizes total)
  let d := (d.confluence secs (tadd s.tick cls.conf) (port.getD p / 8) placed.2).remoteLines b placed.2
  let cps := placed.2.filterMap fun t => ts[t.table]?.map fun y => (t.core, y.prog)
  let cvts := (placed.2.filter fun t =>
    (microOps (progs.getD t.table [])).any fun m => decide (m.opc = 11 ∧ m.mode = 0)).map fun t => t.core / 32
  let fetch := fun (s : State) => s.takePlaced (boundBank b .prgt) c cps cvts.dedup
  let ask := fun (d : Demand) =>
    let posw := elemsOf 4 (bits (wordAt bs 0) 40 32) (bs.drop (batchPoswAt bs))
    let qn := bits (wordAt bs 0) 28 16
    let qw := batchQueryWidth bs
    let query := (elemsOf qw qn (bs.drop (batchQueryAt bs))).map fun v => if qw = 2 then ofBf16 v else BitVec.ofNat 32 v
    let qp := dataPoison ps (batchQueryAt bs) (qw * qn)
    let work := Work.batch secs (posw.map (BitVec.ofNat 32)) query qp (decide (qw = 2)) threads [] [] [] 0 false
    Sum.inr (⟨(fetch s).2, d, s.mkReq k (some p) h cls port segs (ts.map (·.ext)) d.misses work, fun s => s.claimRan h ix.ran⟩ : Ask)
  match fetch d.st with
  | (.ok, s') => ask { d with st := s' }
  | (.late, s') => ask ({ d with st := s' }.refuse 0xC)
  | (.bad a, _) => .inl (((fetch s).2.raiseTableCrc a).answer p k stInternal)

/-- Decide an assembled batch: the front, the limits of R112, step 1, the index stage with its ends in the order of R114, step 2. -/
def State.decideBatchOn (s : State) (cores : List Nat) (p : Nat) (q : Queued) : Decided :=
  let k := q.pkt
  let h := p / 8
  let (bs, ps) := q.batch.getD ([], [])
  let s := s.freeAsm q
  let ts := batchTables bs
  s.front p q 0 (ts.map fun t => ⟨t.ext, 0⟩) fun c s =>
    let b := s.banks
    let bank := boundBank b .prgt
    if batchNever bs then .inl (s.refusePkt h p k 0xF)
    else State.whenFetched (p / 8) p k (s.headPrograms h bank (ts.map (·.prog))) fun s =>
      let progs := ts.map fun t => s.programOf (136 + h) bank t.prog
      let total := ((ts.zip progs).map fun x => x.1.outputs * outBytes x.2).sum
      let cls := s.classOf (ts.map (·.ext))
      if 1048576 < total then .inl (s.refusePkt h p k 0xF)
      else
        let cost := ((ts.zip progs).map fun x => bits (x.2.getD 0 0) 15 8 * x.1.lookups).sum
        let slots : List Need := (List.range (cls.pct + 1)).map fun i => ⟨.batch h, tadd s.tick i, 1, none⟩
        s.stepOne h p k (slots ++ [⟨.index h, s.tick, cost, none⟩]) fun s =>
          let offs := batchOffsets bs
          let firsts := (ts.foldl (fun (a : List Nat × Nat) t => (a.1 ++ [a.2], a.2 + t.outputs)) ([], 0)).1
          let ix := ((List.range ts.length).zip (ts.zip progs)).foldl (fun (ix : Index) it =>
            ix.table cores b c k.ctxid.toNat (decide (cls = .near)) bs ps h it.1 it.2.1 it.2.2 (offs.getD it.1 0) (firsts.getD it.1 0)) ({ st := s } : Index)
          State.whenFetched (p / 8) p k (ix.st.takePrograms bank (ix.ran.map fun x => (x.1, x.2.1))) fun s =>
            let s := (s.countIndex bs.length ix.ran).countEnds ix.threads
            match ix.bad, firstEnd ix.ends with
            | some a, _ => .inl ((s.raiseTableCrc a).answer p k stInternal)
            | none, some st => .inl (s.answer p k st)
            | none, none =>
              if ix.never then .inl (s.refusePkt h p k 0xF)
              else if ix.late then .inl (s.refusePkt h p k 0xC)
              else s.batchAsk p k c cls bs ps ts progs total slots ix

/-- Decide a LOOKUP_BATCH. -/
def State.decideBatch (s : State) (p : Nat) (q : Queued) : Decided :=
  s.decideBatchOn (s.indexCores (p / 8) ((batchTables (q.batch.getD ([], [])).1).map (·.lookups)).sum) p q

/-! ### The row phase (R124 to R127) -/

/-- A line as a read sees it: captured data where the order of R179 and R245 fixed it, else the line check's answer. -/
abbrev Captured := List (Nat × List Byte × Bool)

/-- Read one line of a parcel through the captures. -/
def State.viewLine (s : State) (caps : Captured) (p l ln fmt : Nat) : List Byte × Bool × State :=
  match caps.find? (fun c => decide (c.1 = ln)) with
  | some c => (c.2.1, c.2.2, s)
  | none => s.readLine p l ln fmt

/-- Bytes and poison of a run of lines of an extent; none when a key check fails (R57). -/
def State.viewLines (s : State) (caps : Captured) (b : BitVec 8) (c : Ctxt) (ctx x : Nat) (lns : List Nat) :
    Option (List Byte × Bool) × State :=
  let e := s.extt b x
  lns.foldl (fun (a : Option (List Byte × Bool) × State) ln =>
    match a with
    | (none, s) => (none, s)
    | (some d, s) =>
      let r := s.lineRef e ln
      let k := s.pkt b r.1
      let ph := (s.lineAt r.1 r.2.1).getD 0
      if !(k.1 && c.keyOk k.2 false) then (none, s.keyFail ph ctx (ptrTo x (ln * 256)))
      else
        let v := s.viewLine caps r.1 r.2.1 ph e.format
        (some (d.1 ++ v.1, d.2 || v.2.1), v.2.2)) (some ([], false), s)

/-- The reduced contribution of one row to its output (R125 to R127). DOT scores the row as it stands there: a SCALE after it scales the row
and leaves the score (DEDUCED, log 144). Log 71. -/
def threadPartial (sec : TableSec) (posw query : List F32) (t : Thread) (row : List F32) (poison : Bool) (id : Word) : Partial :=
  let ws := sec.program
  let ops := (microOps ws).dropWhile (·.opc ≠ 4)
  let k := fun (i : Nat) => BitVec.ofNat 32 (bits (ws.getD i 0) 31 0)
  let scale := fun (r : List F32) (m : MicroOp) =>
    if m.opc = 5 then
      let f := if m.mode = 0 then t.weight else if m.mode = 1 then posw.getD t.pos 0 else k m.ka
      r.map fun x => fmul x f
    else r
  let scaled := ops.foldl scale row
  let dotted := (ops.takeWhile (·.opc ≠ 8)).foldl scale row
  let red := progReducer ops
  let n := progOut ws
  let base : Partial := { out := t.out, core := t.core, depth := 0, elems := [], comp := [], pairs := [], poison := poison, ended := none }
  if red.opc = 9 then
    let bf := ops.any fun m => decide (m.opc = 8 ∧ m.mode = 0)
    let prods := (dotted.zip query).map fun xy => if bf then fmul (toBf16 xy.1) (toBf16 xy.2) else fmul xy.1 xy.2
    { base with pairs := [⟨id, treeSum prods.length prods, t.pos, t.table⟩] }
  else if red.opc = 7 then
    let e := scaled.length
    { base with elems := (List.range n).map fun i => if t.pos * e ≤ i ∧ i < t.pos * e + e then scaled.getD (i - t.pos * e) 0 else 0 }
  else { base with elems := scaled, comp := if progComp ops then scaled.map fun _ => 0 else [] }

/-- A row that the row phase of a request has read: extent, offset, and what came of it (R94). -/
abbrev RowRead := (Nat × Nat) × Option (List Byte × Bool)

/-- Run the row phase of the threads of a batch under a condition; a row that several of them look up is read once (R94). A thread whose
core runs past its engine-cycles in this tick ends with INTERNAL (R115; log 148). The end mark of a thread that ended in the index phase is
a partial of the core on which it ended (R129; DEDUCED, log 162). -/
def State.runThreads (s : State) (caps : Captured) (r : Req) (which : Thread → Bool) : State × Work :=
  match r.work with
  | .batch secs posw query qp qb threads parts res seg status built =>
    let c := s.ctxt r.banks r.ctx.toNat
    let out := threads.foldl (fun (a : State × List Thread × List Partial × Byte × List RowRead) t =>
      let (s, ts, ps, st, seen) := a
      if t.done || !which t then (s, ts ++ [t], ps, st, seen)
      else
        match t.st with
        | .null => (s, ts ++ [{ t with done := true }], ps, st, seen)
        | .ended x =>
          let p : Partial := { out := t.out, core := t.core, depth := 0, elems := [], comp := [], pairs := [], poison := false, ended := some x }
          (s, ts ++ [{ t with done := true }], ps ++ [p], BitVec.ofNat 8 (worse st.toNat x.toNat), seen)
        | .live =>
          let e := s.extt r.banks t.ext
          let read := match seen.find? fun y => decide (y.1 = (t.ext, t.off)) with
            | some y => (y.2, s)
            | none => s.viewLines caps r.banks c r.ctx.toNat t.ext (rowLines e t.off)
          let seen := seen ++ [((t.ext, t.off), read.1)]
          match read with
          | (none, s) => (s.countThread t.core 0x100, ts ++ [{ t with done := true }], ps, BitVec.ofNat 8 (worse st.toNat stAccess), seen)
          | (some (bs, psn), s) =>
            let s := s.countThread t.core 0x100
            let sec := secs.getD t.table ⟨0, [], [], 0⟩
            let s := s.bumpN .eng (s.physCore t.core) 0x110 (lookupCycles sec.program e.rowElems)
            let row := decodeRow e.format e.rowElems bs
            let cvt := (microOps sec.program).any fun m => decide (m.opc = 11 ∧ m.mode = 0)
            let dot := (microOps sec.program).any fun m => decide (m.opc = 8)
            let poison := psn || (qp && dot) || t.poison
            let p := if cvt then
                match cvtToVa (s.ebl c) t.id with
                | some v => threadPartial sec posw query t row poison v
                | none => { threadPartial sec posw query t row poison 0 with ended := some (BitVec.ofNat 8 stInvalid) }
              else threadPartial sec posw query t row poison t.id
            let s := if p.ended.isSome then s.threadEnd t.core 0x128 else s
            let ran := s.adm.overran.contains t.core
            let p := if ran then { p with ended := some (BitVec.ofNat 8 stInternal) } else p
            let s := if ran then s.threadOverran t.core else s
            let st := match p.ended with
              | some x => BitVec.ofNat 8 (worse st.toNat x.toNat)
              | none => st
            (s, ts ++ [{ t with done := true }], ps ++ [p], st, seen)) (s, [], parts, status, [])
    (out.1, .batch secs posw query qp qb out.2.1 out.2.2.1 res seg out.2.2.2.1 built)
  | w => (s, w)

/-- Replace a request's work. -/
def State.setWork (s : State) (rid : Nat) (w : Work) : State :=
  { s with adm := { s.adm with reqs := s.adm.reqs.map fun r => if r.rid = rid then { r with work := w } else r } }

/-- Replace a request. -/
def State.setReq (s : State) (r : Req) : State :=
  { s with adm := { s.adm with reqs := s.adm.reqs.map fun q => if q.rid = r.rid then r else q } }

/-- An admitted request by number. -/
def State.reqOf (s : State) (rid : Nat) : Option Req := s.adm.reqs.find? fun r => decide (r.rid = rid)

/-- Read the resident lines of a READ that `which` selects, into its data and poison map (R302, R305). -/
def State.runRead (s : State) (caps : Captured) (r : Req) (x off n : Nat) (data : List Byte) (psn : BitVec 32) (bad : Bool)
    (which : Nat → Bool) : State × Work :=
  let c := s.ctxt r.banks r.ctx.toNat
  let o := (linesOf off n).foldl (fun (a : State × List Byte × BitVec 32 × Bool) ln =>
    let (s, d, m, bad) := a
    if bad || !which ln then a
    else
      match s.viewLines caps r.banks c r.ctx.toNat x [ln] with
      | (none, s) => (s, d, m, true)
      | (some (bs, p), s) =>
        let lo := max off (ln * 256)
        let hi := min (off + n) (ln * 256 + 256)
        let d := d.take (lo - off) ++ (bs.drop (lo - ln * 256)).take (hi - lo) ++ d.drop (hi - off)
        let m := if p then
            (List.range ((hi - 1 - off) / 256 + 1 - (lo - off) / 256)).foldl
              (fun (m : BitVec 32) i => m ||| BitVec.twoPow 32 ((lo - off) / 256 + i)) m
          else m
        (s, d, m, bad)) (s, data, psn, bad)
  (o.1, .read x off n o.2.1 o.2.2.1 o.2.2.2)

/-- Replace the work of a request whose row phase has read. -/
def State.setRow (s : State) (rid : Nat) (w : Work) : State :=
  { s with adm := { s.adm with reqs := s.adm.reqs.map fun r => if r.rid = rid then { r with work := w, rowDone := true } else r } }

/-- The row phase of a request, once: what it reads of resident lines (R20, R72, R113). -/
def State.rowPhase (s : State) (caps : Captured) (r : Req) : State :=
  let missed := fun (x ln : Nat) =>
    let l := s.lineRef (s.extt r.banks x) ln
    r.misses.any fun m => decide (m.parcel = l.1 ∧ m.group = l.2.1 / 16) && m.lines.contains l.2.1
  if r.rowDone then s
  else
    match r.work with
    | .read x off n d m bad =>
      let o := s.runRead caps r x off n d m bad fun ln => !(missed x ln)
      o.1.setRow r.rid o.2
    | .batch .. =>
      let o := s.runThreads caps r fun t => !t.miss
      o.1.setRow r.rid o.2
    | _ => s

/-! ### The Confluence (R129, R153, R156) -/

/-- Whether a TOPK pair ranks before another (R127): equal scores, zeros of either sign among them, rank by ID; one row looked up twice by its
position, so that a selection has the same bits on every run (R158; DEDUCED, log 145). -/
def betterPair (low : Bool) (a b : TopPair) : Bool :=
  let first := decide (a.id.toNat < b.id.toNat) || (decide (a.id = b.id) && decide (a.pos < b.pos))
  if isNan a.score then isNan b.score && first
  else if isNan b.score then true
  else
    let ka := if isZero a.score then fkey 0 else fkey a.score
    let kb := if isZero b.score then fkey 0 else fkey b.score
    if ka = kb then first else if low then decide (ka < kb) else decide (kb < ka)

/-- The best `k` pairs of two lists. -/
def bestPairs (low : Bool) (k : Nat) (a b : List TopPair) : List TopPair :=
  ((a ++ b).mergeSort fun x y => !(betterPair low y x)).take k

/-- Merge two partials of one output by its reducer. The two carried errors are added first and the new error to their sum (R156; DESIGN
CHOICE, log 146). -/
def mergePair (ops : List MicroOp) (a b : Partial) : Partial :=
  let red := progReducer ops
  let d := max a.depth b.depth + 1
  let ended := match a.ended, b.ended with
    | some x, some y => some (if statusRank x.toNat < statusRank y.toNat then y else x)
    | some x, none => some x
    | none, y => y
  let base := { a with depth := d, poison := a.poison || b.poison, ended := ended }
  if red.opc = 9 then { base with pairs := bestPairs (decide (red.mode = 1)) red.imm a.pairs b.pairs }
  else if a.elems.isEmpty then { base with elems := b.elems, comp := b.comp }
  else if b.elems.isEmpty then base
  else if red.opc = 7 then { base with elems := (a.elems.zip b.elems).map fun x => if x.1 = 0 then x.2 else x.1 }
  else if red.mode % 4 = 2 then { base with elems := (a.elems.zip b.elems).map fun x => fmax x.1 x.2 }
  else if progComp ops then
    let ts := (a.elems.zip b.elems).map fun x => twoSum x.1 x.2
    { base with elems := ts.map (·.1), comp := ((a.comp.zip b.comp).zip ts).map fun x => fadd (fadd x.1.1 x.1.2) x.2.2 }
  else { base with elems := (a.elems.zip b.elems).map fun x => fadd x.1 x.2 }

/-- Take one of the partials of least depth; which one is free (R153, log 3). -/
def takeLeast (seed : Nat) (l : List Partial) : Option (Partial × List Partial) :=
  let d := l.foldl (fun a p => min a p.depth) (2 ^ 62)
  let idx := (l.zipIdx.filter fun p => decide (p.1.depth = d)).map (·.2)
  match idx[Config.freeNat seed % max 1 idx.length]? with
  | some i => match l[i]? with
    | some p => some (p, l.eraseIdx i)
    | none => none
  | none => none

/-- Add the pending partials of an output two at a time, always two of the least depth (R153). -/
def mergeAll (ops : List MicroOp) : Nat → Nat → List Partial → Option Partial
  | 0, _, l => l.head?
  | f + 1, seed, l =>
    match takeLeast seed l with
    | none => none
    | some (a, r) =>
      match takeLeast (seed + 1) r with
      | none => some a
      | some (b, r) => mergeAll ops f (seed + 2) (r ++ [mergePair ops a b])

/-- Core, tile and collector levels for one output. -/
def mergeOutput (ops : List MicroOp) (seed : Nat) (ps : List Partial) : Option Partial :=
  let cores := (ps.map (·.core)).dedup
  let perCore := cores.filterMap fun c => mergeAll ops ps.length (seed + 97 * c) (ps.filter fun p => decide (p.core = c))
  let tiles := (cores.map (· / 32)).dedup
  let perTile := tiles.filterMap fun t => mergeAll ops ps.length (seed + 89 * t) (perCore.filter fun p => decide (p.core / 32 = t))
  mergeAll ops ps.length (seed + 83) perTile

/-- Result bytes of one output (R132, R134), rounded by EMIT (R157). POSITION and TABLE of a pair that stands for no row are 0 (DESIGN CHOICE,
log 147); a bag of which no row is left, all its pointers being null, gives zeros under MAX as an empty one does (R126; DEDUCED, log 163). -/
def outputBytes (sec : TableSec) (bag : Nat) (p : Option Partial) : List Byte :=
  let ops := microOps sec.program
  let red := progReducer ops
  let n := progOut sec.program
  let bf := progBf16 ops
  let pair := fun (id : Word) (score : F32) (pos tab : Nat) => wordsBytes [id, place 31 0 score.toNat ||| place 47 32 pos ||| place 53 48 tab]
  match p.bind (·.ended) with
  | some ss =>
    if red.opc = 9 then (List.range red.imm).flatMap fun _ => pair 0 (0x7FC00000#32 ||| ss.setWidth 32) 0 0
    else if bf then (List.range n).flatMap fun _ => leBytes 2 0x7FC0
    else (List.range n).flatMap fun _ => leBytes 4 (0x7FC00000 + ss.toNat)
  | none =>
    if red.opc = 9 then
      let ps := bestPairs (decide (red.mode = 1)) red.imm ((p.map (·.pairs)).getD []) []
      (ps.flatMap fun (x : TopPair) => pair x.id x.score x.pos x.table) ++ ((List.range (red.imm - ps.length)).flatMap fun _ => pair 0 fnan 0 0)
    else
      let xs : List F32 := match p with
        | some p => if p.elems.isEmpty then List.replicate n 0
            else if progComp ops then (p.elems.zip p.comp).map fun x => fadd x.1 x.2 else p.elems
        | none => List.replicate n 0
      let xs : List F32 := if red.opc = 6 ∧ red.mode % 4 = 1 ∧ bag ≠ 0 then xs.map fun x => fdiv x (fnat bag) else xs
      if bf then xs.flatMap fun (x : F32) => leBytes 2 (bf16.round (fval x)) else xs.flatMap fun (x : F32) => leBytes 4 x.toNat

/-- CONFLUENCE: merge the partials and build the result, once (R129 to R134). -/
def State.confluence (s : State) (r : Req) : State :=
  match r.work with
  | .batch _ _ _ _ _ _ _ _ _ _ true => s
  | .batch secs posw query qp qb threads parts _ _ status false =>
    let outs := secs.flatMap fun sec => sec.bags.zipIdx.map fun g => (sec, g.1, sec.firstOut + g.2)
    let built := outs.map fun o =>
      let p := mergeOutput (microOps o.1.program) (s.fresh * 4096 + o.2.2) (parts.filter fun p => decide (p.out = o.2.2))
      (outputBytes o.1 o.2.1 p, ((p.map (·.poison)).getD false))
    let bytes := built.flatMap (·.1)
    let marks := (built.foldl (fun (a : List (Nat × Nat) × Nat) b =>
      (if b.2 then a.1 ++ [(a.2, a.2 + b.1.length)] else a.1, a.2 + b.1.length)) ([], 0)).1
    let seg := (List.range (cdiv bytes.length 256)).map fun j => marks.any fun m => decide (m.1 < 256 * j + 256 ∧ 256 * j < m.2)
    let status := if seg.any id then BitVec.ofNat 8 (worse status.toNat stPoison) else status
    let coll := (r.egress.getD 0) / 8
    let sent := (parts.map fun p => (p.core, p.out)).dedup
    let s := sent.foldl (fun s c => (s.countThread c.1 0x138).bump .hdg (c.1 / 32) 0x1C8) s
    let s := { s.bump .hdg coll 0x1D0 with fresh := s.fresh + 1 }
    s.setWork r.rid (.batch secs posw query qp qb threads [] bytes seg status true)
  | _ => s

/-! ### Results (R133, R134, R305) -/

/-- Queue the response packets of a request in its egress tick, in SEQ order, each in its segment (R133, R363, R365). -/
def State.sendResult (s : State) (r : Req) (op status : Nat) (parts : List (List Byte × List Bool)) : State :=
  match r.egress with
  | none => s
  | some p =>
    let c := s.ctxt r.banks r.ctx.toNat
    let v := bits (c.sub.headD 0) 2 0
    let n := parts.length
    (parts.zipIdx).foldl (fun s x =>
      let last := decide (x.2 + 1 = n)
      let pk := mkPacket r.src s.devEid r.ctx op s.rspVc true r.tag (respField status r.admitTick x.2 last) x.1.1 x.1.2
      s.enqueue p {
        pkt := pk, cls := .admitted, service := v, leaf := r.ctx.toNat, linkVc := pk.vc.toNat % s.portVcs p, use' := s.tick,
        seg := r.segs.getD x.2 0, order := 0, epoch := r.epoch, rid := some r.rid, last := last, entered := 0 }) s

/-- Cut result bytes into packets with their poison flags. -/
def cutPackets (bytes : List Byte) (seg : List Bool) : List (List Byte × List Bool) :=
  let n := max 1 (cdiv bytes.length 8192)
  (List.range n).map fun i => ((bytes.drop (8192 * i)).take 8192, (seg.drop (32 * i)).take 32)

/-- RESULT_SEND: the results of READ and of a batch, in the egress tick (R20, R72, R305). -/
def State.sendReadResult (s : State) (r : Req) : State :=
  match r.work with
  | .read _ _ n d m bad =>
    if bad then s.sendResult r 0x20 stAccess [([], [])]
    else
      let seg := (List.range (cdiv n 256)).map fun j => m.getLsbD j
      s.sendResult r 0x20 (if seg.any id then stPoison else stOk) [(d, seg)]
  | .batch _ _ _ _ _ _ _ bytes seg status built =>
    if !built then s
    else if status.toNat = stAccess then s.sendResult r 0x20 stAccess [([], [])]
    else s.sendResult r 0x20 status.toNat (cutPackets bytes seg)
  | _ => s

/-- LOOKUP_BATCH (R113). -/
def execLookupBatch (port : Fin 32) (s : State) : Host.Outcome State Fault Refusal :=
  .next (s.takeHead port 3 fun q s => (s.decideBatch port q).settle (port / 8) port q.pkt)

/-- ASSEMBLY_TIMEOUT: an assembly that is not complete in time is freed and the batch refused LATE (R109). -/
def execAssemblyTimeout (port : Fin 32) (s : State) : Host.Outcome State Fault Refusal :=
  let dead := s.adm.asm.filter fun a => decide (a.1 = port.val) && !a.2.complete && later s.tick (tadd a.2.opened s.asmTicks)
  let s := { s with adm := { s.adm with asm := s.adm.asm.filter fun a => !(dead.contains a) } }
  .next (dead.foldl (fun s a => (s.bump .hdg (port / 8) 0x1B8).refusePkt (port / 8) port a.2.first 0xC) s)

end Sys2Proof.Machine
end

