-- ==== Sys2Proof/Machine/Stages.lean ====
section
/-! DEFINITION. The later stages of admitted requests: senses, sector transfers and fills of a Deep request (R72, R73, R216,
R265, R450), the Confluence and the result (R129, R133). -/

namespace Sys2Proof.Machine

/-- Replace the misses of a request. -/
def State.setMisses (s : State) (rid : Nat) (ms : List Miss) : State :=
  { s with adm := { s.adm with reqs := s.adm.reqs.map fun r => if r.rid = rid then { r with misses := ms } else r } }

/-- FLASH_SENSE: the dies of the request whose sense frame runs in this tick sense their pages (R72, R73). -/
def State.flashSense (s : State) (r : Req) : State :=
  s.setMisses r.rid (r.misses.map fun m =>
    if tle m.senseAt s.tick && later (tadd m.senseAt s.senseTicks) s.tick then { m with sensed := true } else m)

/-- SECTOR_TRANSFER: sensed sectors whose transfer ticks have come cross their channel (R72). -/
def State.sectorTransfer (s : State) (r : Req) : State :=
  let due := fun (m : Miss) => m.sensed && !m.transferred && tle (tadd m.senseAt s.senseTicks) s.tick &&
    later (tadd m.senseAt (s.senseTicks + s.xferTicks)) s.tick
  let s := (r.misses.filter due).foldl (fun s m => s.bump .fmc (fmcOf m.die) 0x100) s
  s.setMisses r.rid (r.misses.map fun m => if due m then { m with transferred := true } else m)

/-- A fill from the copy of a group that a probe or a fetch has named: when its sector fails its CRC the failure is counted, and the lines
are delivered with poison without being written (R265); the lines of a lost group are filled with poison. -/
def State.fillFails (s : State) (p g : Nat) (copy : Option Nat) : State × Bool :=
  match copy with
  | none => (s, false)
  | some k =>
    if (s.sectorAt k).bad && !((s.fgroup p g).lost && decide (some k = s.copyOf p g)) then (s.sectorFail k, true) else (s, false)

/-- Fill one missed group from the copy that its probe named: the lines that are still ABSENT become CLEAN with the flash data (R216, R262,
R263); what cannot be written is captured with poison for the request (R265). A line that has become resident since the probe is read
instead. -/
def State.fillGroup (s : State) (fmt : Nat → Nat) (m : Miss) : Captured × State :=
  let (s, bad) := s.fillFails m.parcel m.group m.copy
  m.lines.foldl (fun (a : Captured × State) l =>
    let s := a.2
    match s.lineAt m.parcel l with
    | none => a
    | some ln =>
      if s.resident m.parcel l then (a.1, s.bump .tier (stackOf ln / 6) 0x108)
      else if bad then (a.1 ++ [(ln, s.copyLine m.copy l, true)], s)
      else (a.1, (s.fillLine m.parcel l (fmt m.parcel) (s.copyLine m.copy l) (s.copyPoison m.copy m.parcel l)).bump .tier (stackOf ln / 6) 0x100))
    ([], s)

/-- FORMAT of the extent that a parcel belongs to. -/
def State.parcelFormat (s : State) (p : Nat) : Nat := (s.exttNow (sget (fun _ => ({} : ParcelOwner)) s.tier.parcels p).ext).format

/-- The row phase on the rows and lines that were missing (R72). -/
def State.missPhase (s : State) (caps : Captured) (r : Req) (filled : List Miss) : State :=
  let hit := fun (x ln : Nat) =>
    let l := s.lineRef (s.extt r.banks x) ln
    filled.any fun m => decide (m.parcel = l.1 ∧ m.group = l.2.1 / 16) && m.lines.contains l.2.1
  let pending := fun (x ln : Nat) =>
    let l := s.lineRef (s.extt r.banks x) ln
    (r.misses.filter fun m => !m.filled).any fun m => decide (m.parcel = l.1 ∧ m.group = l.2.1 / 16) && m.lines.contains l.2.1
  match r.work with
  | .read x off n d m bad =>
    let o := s.runRead caps r x off n d m bad fun ln => hit x ln
    o.1.setWork r.rid o.2
  | .batch .. =>
    let o := s.runThreads caps r fun t =>
      t.miss && !((rowLines (s.extt r.banks t.ext) t.off).any fun ln => pending t.ext ln)
    o.1.setWork r.rid o.2
  | _ => s

/-- FILL_WRITE: in the fill tick of each missed group (R72, R216). A transfer whose key generation is not the current one
delivers nothing (R450). -/
def State.fillWrite (s : State) (r : Req) : State :=
  let due := r.misses.filter fun m => m.transferred && !m.filled &&
    decide (tadd m.senseAt (s.senseTicks + s.xferTicks) = s.tick)
  if due.isEmpty then s
  else
    let live := due.filter fun m => !s.staleGen m.copy
    let s := (due.filter fun m => s.staleGen m.copy).foldl (fun s _ => s.bump .mgt 0 0x140) s
    let f := live.foldl (fun (a : Captured × State) m =>
      let o := a.2.fillGroup a.2.parcelFormat m
      (a.1 ++ o.1, o.2)) ([], s)
    let s := f.2.setMisses r.rid (r.misses.map fun m => if due.contains m then { m with filled := true } else m)
    match s.reqOf r.rid with
    | some r => s.missPhase f.1 r live
    | none => s

/-- The Confluence tick of a batch. -/
def Req.confTick (r : Req) : Nat := tadd r.admitTick r.cls.conf

/-- A packet of this request already waits in an egress queue. -/
def State.sentAlready (s : State) (r : Req) : Bool :=
  match r.egress with
  | some p => (s.sched p).queue.any fun e => decide (e.rid = some r.rid)
  | none => false

/-- RESULT_SEND: in the egress tick, once. -/
def State.resultSend (s : State) (r : Req) : State := if s.sentAlready r then s else s.sendReadResult r

/-- Act on a request by number, if it is there. -/
def State.withReq (s : State) (rid : Nat) (k : Req → State) : State :=
  match s.reqOf rid with
  | some r => k r
  | none => s

/-- FLASH_SENSE (R72). -/
def execFlashSense (rid : Nat) (s : State) : Host.Outcome State Fault Refusal := .next (s.withReq rid s.flashSense)

/-- SECTOR_TRANSFER (R72). -/
def execSectorTransfer (rid : Nat) (s : State) : Host.Outcome State Fault Refusal := .next (s.withReq rid s.sectorTransfer)

/-- FILL_WRITE (R216). -/
def execFillWrite (rid : Nat) (s : State) : Host.Outcome State Fault Refusal := .next (s.withReq rid s.fillWrite)

/-- CONFLUENCE (R129). -/
def execConfluence (rid : Nat) (s : State) : Host.Outcome State Fault Refusal :=
  .next (s.withReq rid fun r => if r.confTick = s.tick then s.confluence r else s)

/-- RESULT_SEND (R133). -/
def execResultSend (rid : Nat) (s : State) : Host.Outcome State Fault Refusal :=
  .next (s.withReq rid fun r => if r.pct = s.tick then s.resultSend r else s)

end Sys2Proof.Machine
end

