-- ==== Sys2Proof/Machine/Updates.lean ====
section
/-! DEFINITION. Updates (chapter 6): gradient pushes (R162 to R168), the update descriptor and the optimizer kernels (R169 to
R177, R517), memory and home atomics (R181 to R185, R291), the landing tick (R179, R180, R245) and their completions. -/

namespace Sys2Proof.Machine

/-! ### The update descriptor (R169 to R171) -/

/-- The update descriptor of a weight extent with ε of its companion. -/
structure UpdDesc where
  opt : Nat
  bf16 : Bool
  comp : Nat
  vecParcel : Nat
  lr : F32
  oneMb1 : F32
  oneMb2 : F32
  eps : F32
deriving DecidableEq, Repr

/-- An FP16 code as FP32. -/
def ofFp16 (c : Nat) : F32 := fword (fp16.decode c)

/-- Decode words 5 and 6 and the companion's ε. -/
def updDesc (w5 w6 : Word) (eps : Nat) : UpdDesc :=
  { opt := bits w5 2 0, bf16 := bit w5 3, comp := bits w5 25 8, vecParcel := bits w5 49 26, lr := BitVec.ofNat 32 (bits w6 31 0),
    oneMb1 := ofFp16 (bits w6 47 32), oneMb2 := ofFp16 (bits w6 63 48), eps := ofBf16 eps }

/-- Vectors of state a row has (R171). -/
def UpdDesc.vectors (d : UpdDesc) : Nat := if d.opt = 2 then 1 else if d.opt = 4 then 2 else 0

/-- Bytes of a state element. -/
def UpdDesc.width (d : UpdDesc) : Nat := if d.bf16 then 2 else 4

/-- S_LINES of R171. -/
def UpdDesc.stateLines (d : UpdDesc) (e : Nat) : Nat := cdiv (d.vectors * e * d.width) 256

/-- Whether the optimizer keeps a count area. -/
def UpdDesc.counts (d : UpdDesc) : Bool := decide (d.opt = 3 ∨ d.opt = 4)

/-- Whether the optimizer names a companion. -/
def UpdDesc.usesComp (d : UpdDesc) : Bool := decide (2 ≤ d.opt)

/-- Companion lines that hold row `r`'s vector state. -/
def UpdDesc.vecLines (d : UpdDesc) (e r : Nat) : List Nat :=
  (List.range (d.stateLines e)).map fun i => d.vecParcel * 8192 + r * d.stateLines e + i

/-- Companion line that holds row `r`'s count word. -/
def UpdDesc.countLines (d : UpdDesc) (r : Nat) : List Nat := if d.counts then [r / 64] else []

/-- Companion lines of row `r`. -/
def UpdDesc.compLines (d : UpdDesc) (e r : Nat) : List Nat := d.vecLines e r ++ d.countLines r

/-- The descriptor that a push admitted now is bound to (R173). -/
def State.boundDesc (s : State) (x : Nat) : UpdDesc :=
  let ws := s.descWords (s.activeBank .extt) x
  let w5 := ws.getD 5 0
  let cw := s.descWords (s.activeBank .extt) (bits w5 25 8)
  updDesc w5 (ws.getD 6 0) (bits (cw.getD 5 0) 15 0)

/-- F and V of R178. -/
def kernelCost (opt : Nat) : Nat × Nat := match opt with
  | 1 => (2, 2) | 2 => (2, 4) | 3 => (12, 4) | 4 => (16, 10) | _ => (0, 0)

/-! ### PUSH in the index stage (R162 to R164, R178) -/

/-- The entries of a push: row, gradient widened to FP32, and whether its bytes overlap a poisoned segment (R162, R164,
R167). -/
def pushEntries (k : Packet) (f : FFmt) (n e : Nat) : List (Nat × List F32 × Bool) :=
  let z := 8 + e * f.width
  (List.range n).map fun i =>
    let o := 8 + i * z
    let b := k.payload.drop o
    (leNat (b.take 6), (elemsOf f.width e (b.drop 8)).map (fun c => fword (f.decode c)),
     (List.range ((o + z - 1) / 256 + 1 - o / 256)).any fun j => k.seg (o / 256 + j))

/-- The parcels of lines of an extent, those within its size, by their place in it. -/
def State.parcelsOf (s : State) (e : Extt) (lns : List Nat) : List Nat :=
  ((lns.filter fun l => decide (l * 256 < e.bytesAt s.tick)).map (· / 8192)).dedup

/-- The table entries that the key check of lines of an extent reads: parcel map and key of each parcel (R80, R163). -/
def State.keyRefs (s : State) (e : Extt) (lns : List Nat) : List (Nat × Bool) :=
  (s.parcelsOf e lns).flatMap fun i =>
    [s.pmapRef e.pmap i, s.entryRef .pkt (boundBank s.banks .pkt) (s.parcelOf e (i * 2 ^ 21)).1]

/-- The first parcel, by its place in the extent, that fails the key check of R57. Log 12. -/
def State.badKey (s : State) (c : Ctxt) (e : Extt) (lns : List Nat) (write : Bool) : Option Nat :=
  (s.parcelsOf e lns).find? fun i =>
    let k := s.pkt s.banks (s.parcelOf e (i * 2 ^ 21)).1
    !(k.1 && c.keyOk k.2 write)

/-- Count and capture the failed key check of parcel `i` of extent `x` (R57). -/
def State.keyFailIn (s : State) (ctx x : Nat) (e : Extt) (i : Nat) : State :=
  let q := s.parcelOf e (i * 2 ^ 21)
  s.keyFail ((s.lineAt q.1 0).getD (q.2 * 2 ^ 28)) ctx (ptrTo x (i * 2 ^ 21))

/-- Rows of extent `x` that pushes admitted in this tick have charged already (R178). -/
def State.chargedRows (s : State) (x : Nat) : List Nat :=
  s.adm.reqs.flatMap fun r => match r.work with
    | .push x' _ _ _ rows _ _ _ => if x' = x ∧ r.admitTick = s.tick then rows.map (·.row) else []
    | _ => []

/-- Charge the lines of an extent that a push or atomic reads and writes in T + 1, each of which must be resident. -/
def Demand.rmwLines (d : Demand) (e : Extt) (lns : List Nat) : Demand :=
  lns.foldl (fun (d : Demand) ln =>
    let r := d.st.lineRef e ln
    (d.mustBeResident r.1 r.2.1).writeLine e r.1 r.2.1 2) d

/-- The 16-line groups of lines of an extent. -/
def State.groupsOf (s : State) (e : Extt) (lns : List Nat) : List (Nat × Nat) :=
  (lns.map fun ln => let r := s.lineRef e ln; (r.1, r.2.1 / 16)).dedup

/-- The coalescing core of row `r` of extent `x` (R166). -/
def State.coalesceCore (s : State) (e : Extt) (x r : Nat) : Nat :=
  (s.lineRef e (r * e.rowLines)).2.2 / 6 * 32 + (r ^^^ x) % 32

/-- Charges of a push of rows `rows` (R166, R168, R178): each new row once, each entry its coalescing cycles and its bytes. -/
def Demand.push (d : Demand) (h x : Nat) (e ce : Extt) (u : UpdDesc) (rows : List Nat) (z : Nat) : Demand :=
  let s := d.st
  let t1 := tadd s.tick 1
  let fresh := rows.dedup.filter fun r => !((s.chargedRows x).contains r)
  let wl := fun (r : Nat) => rowLines e (r * e.rowSize)
  let d := (rows.dedup).foldl (fun (d : Demand) r =>
    ((wl r).foldl (fun (d : Demand) ln => let q := s.lineRef e ln; d.mustBeResident q.1 q.2.1) d)) d
  let d := ((rows.dedup.flatMap fun r => u.compLines e.rowElems r).dedup).foldl (fun (d : Demand) ln =>
    let q := s.lineRef ce ln; d.mustBeResident q.1 q.2.1) d
  let d := (fresh.flatMap wl).foldl (fun (d : Demand) ln => let q := s.lineRef e ln; d.writeLine e q.1 q.2.1 2) d
  let d := ((fresh.flatMap fun r => u.vecLines e.rowElems r) ++ (fresh.flatMap fun r => u.countLines r).dedup).foldl
    (fun (d : Demand) ln => let q := s.lineRef ce ln; d.writeLine ce q.1 q.2.1 2) d
  let fv := kernelCost u.opt
  let v := cdiv e.rowElems 32
  let d := d.add (rows.map fun r => ⟨.engine (s.coalesceCore e x r), t1, 1 + v, none⟩)
  let d := d.add (fresh.map fun r => ⟨.engine (s.coalesceCore e x r), t1, fv.1 + fv.2 * v, none⟩)
  let d := d.add (fresh.flatMap fun r =>
    [⟨.thread (s.coalesceCore e x r), s.tick, cdiv e.rowElems 64, none⟩, ⟨.thread (s.coalesceCore e x r), t1, cdiv e.rowElems 64, none⟩])
  rows.foldl (fun (d : Demand) r => d.add (linkNeed h (s.coalesceCore e x r / 32) t1 z)) d

/-- Decide a PUSH (R163). Log 11. -/
def State.decidePush (s : State) (p : Nat) (q : Queued) : Decided :=
  let k := q.pkt
  let w := k.word 0
  let x := bits w 17 0
  let n := bits w 47 32
  s.front p q 3 [⟨x, 0⟩] fun c s =>
    let h := p / 8
    s.stepOne h p k [⟨.index h, s.tick, n, none⟩] fun s =>
      let e := s.extt s.banks x
      let u := s.boundDesc x
      match ffmtOf (bits w 23 20) with
      | none => .inl (s.answer p k stBadFormat)
      | some f =>
        let z := 8 + e.rowElems * f.width
        if n = 0 ∨ k.payload.length ≠ 8 + n * z ∨ e.format = 0 ∨ e.coherent = true ∨ u.opt = 0 then .inl (s.answer p k stBadFormat)
        else
          let es := pushEntries k f n e.rowElems
          let live := es.filter fun a => !a.2.2
          let dropped := n - live.length
          let rows := live.map (·.1)
          let ce := s.extt s.banks u.comp
          let wls := (rows.dedup.filter fun r => decide (r < e.rowsAt s.tick)).flatMap fun r => rowLines e (r * e.rowSize)
          let cls' := rows.dedup.flatMap fun r => u.compLines e.rowElems r
          let refs := s.keyRefs e wls ++ (if u.usesComp then
            s.entryRef .extt (boundBank s.banks .extt) u.comp :: (if ce.valid then s.keyRefs ce cls' else []) else [])
          State.whenFetched h p k (s.takeCopies h refs) fun s =>
            match s.badKey c e wls true, (if u.usesComp && ce.valid then s.badKey c ce cls' true else none) with
            | some i, _ => .inl ((s.keyFailIn k.ctxid.toNat x e i).answer p k stAccess)
            | none, some i => .inl ((s.keyFailIn k.ctxid.toNat u.comp ce i).answer p k stAccess)
            | none, none =>
              if rows.any (fun r => decide (e.rowsAt s.tick ≤ r)) ||
                  (u.usesComp && (!ce.valid || cls'.any fun l => decide (ce.bytesAt s.tick ≤ l * 256))) then .inl (s.answer p k stInvalid)
              else if u.usesComp && ce.revoked && tle ce.revoke s.tick then .inl (s.answer p k stRevoked)
              else
                let cls := s.classOf [x]
                let d : Demand := { st := s }
                let d := d.push h x e ce u rows z
                let gs := (s.groupsOf e wls ++ s.groupsOf ce cls').dedup
                let d := d.dirty h gs
                let (d, port, segs) := d.egress h c k.ctxid.toNat k.src (tadd s.tick 2) [8]
                let ws := s.descWords (s.activeBank .extt) x
                let cw := s.descWords (s.activeBank .extt) u.comp
                let work := Work.push x (ws.getD 5 0) (ws.getD 6 0) (BitVec.ofNat 16 (bits (cw.getD 5 0) 15 0))
                  (live.map fun a => ⟨a.1, a.2.1⟩) dropped (bit w 24 || decide (dropped ≠ 0)) false
                .inr ⟨s, d, s.mkReq k (some p) h cls port segs (if u.usesComp then [x, u.comp] else [x]) [] work, fun s =>
                  let s := ((s.noteGroups h gs).useIndex h n).bumpN .hdg h 0x1D8 n
                  if dropped = 0 then s else (s.bumpN .hdg h 0x1E8 dropped).raise .hdg h 3⟩

/-! ### Atomics in the index stage (R181, R183, R284, R291) -/

/-- The operations of an ATOMIC packet. -/
def atomicOps (k : Packet) (n : Nat) : List AtomicOp :=
  (List.range n).map fun i =>
    { off := bits (k.word (1 + 3 * i)) 43 0, op := BitVec.ofNat 4 (bits (k.word (1 + 3 * i)) 51 48), a := k.word (2 + 3 * i),
      b := k.word (3 + 3 * i) }

/-- Go on with an ATOMIC packet that its index stage does not end (R183): its form, its offsets, and the key check of its lines. -/
def State.atomicChecks (s : State) (h p : Nat) (k : Packet) (c : Ctxt) (x n : Nat) (go : State → Decided) : Decided :=
  let e := s.extt s.banks x
  let ops := atomicOps k n
  let lns := ops.map fun o => o.off / 256
  if k.payload.length ≠ 8 + 24 * n ∨ ops.any (fun o => decide (10 ≤ o.op.toNat)) = true then .inl (s.answer p k stBadFormat)
  else if ops.any (fun o => decide (o.off % 8 ≠ 0 ∨ e.bytesAt s.tick ≤ o.off)) then .inl (s.answer p k stInvalid)
  else
    State.whenFetched h p k (s.takeCopies h (s.keyRefs e lns)) fun s =>
      match s.badKey c e lns true with
      | some i => .inl ((s.keyFailIn k.ctxid.toNat x e i).answer p k stAccess)
      | none => go s

/-- The map of an atomic packet: its line charges, dirty grant, crossings and egress (R92, R184, R185). The records that RET asks for cross in
T + 1 (DESIGN CHOICE, log 32). -/
def State.admitAtomic (s : State) (h p : Nat) (k : Packet) (c : Ctxt) (x n : Nat) (dom : Option Nat) (after : State → State) : Decided :=
  let e := s.extt s.banks x
  let ops := atomicOps k n
  let ret := bit (k.word 0) 28
  let cls := s.classOf [x]
  let d : Demand := { st := s }
  let d := d.rmwLines e (ops.map fun o => o.off / 256)
  let gs := s.groupsOf e (ops.map fun o => o.off / 256)
  let d := d.dirty h gs
  let home := fun (o : AtomicOp) => (s.lineRef e (o.off / 256)).2.2 / 6
  let d := ops.foldl (fun (d : Demand) o => d.add (linkNeed h (home o) (tadd s.tick 1) 24)) d
  let (d, port, segs) := d.egress h c k.ctxid.toNat k.src (tadd s.tick 2) [if ret then 16 * n else 0]
  let d := match port with
    | some o' => if ret then ops.foldl (fun (d : Demand) o => d.add (linkNeed (home o) (o' / 8) (tadd s.tick 1) 16)) d else d
    | none => d
  let mk := s.mkReq k (some p) h cls port segs [x] [] (.atomic x ops ret false)
  .inr ⟨s, d, fun rid => { mk rid with domain := dom }, fun s => after (s.noteGroups h gs)⟩

/-- Decide an ATOMIC on an extent that is not coherent. -/
def State.decideAtomic (s : State) (p : Nat) (q : Queued) : Decided :=
  let k := q.pkt
  let x := bits (k.word 0) 17 0
  let n := bits (k.word 0) 27 20 + 1
  s.front p q 4 [⟨x, 0⟩] fun c s =>
    s.atomicChecks (p / 8) p k c x n fun s =>
      if (s.extt s.banks x).coherent then .inl (s.answer p k stBadFormat) else s.admitAtomic (p / 8) p k c x n none id

/-! ### Coherent requests at their home Headgate (R284, R286) -/

/-- The head of a tile's home queue, when its Headgate may take it. -/
def State.homeHead (s : State) (tile : Nat) (want : Packet → Bool) : Option Queued :=
  match s.adm.homeQ.find? (fun x => decide (x.1 = tile)) with
  | some x =>
    if want x.2.pkt && decide (s.linkState x.2.port = 4 ∧ s.headsTaken tile < s.intakeWindow tile) && s.replyRoom x.2.port && s.headgateRuns
    then some x.2 else none
  | none => none

/-- Take the head of a tile's home queue; snoop responses that waited behind it follow (R288). -/
def State.takeHome (s : State) (tile : Nat) (want : Packet → Bool) (k : Queued → State → State) : State :=
  match s.homeHead tile want with
  | none => s
  | some q =>
    let s := { s with adm := { s.adm with homeQ := s.adm.homeQ.erase (tile, q) } }.countHead tile
    let s := if s.aged q then s.refusePkt tile q.port q.pkt 0xC
      else if s.stopped then s.refusePkt tile q.port q.pkt 0xE
      else k q s
    s.releaseResponses

/-- Members that hold an S line besides `q`: the listed sharers, or every valid member with OVF (R287). -/
def State.otherSharers (s : State) (d : Domt) (w : Word) (q : Nat) : List Nat :=
  (if dOvf w then (List.range d.members).filter fun m => (s.member d m).isSome else dPtrs w).filter (· ≠ q)

/-- A recall refusal (R286): refused PREFETCH; the entry opens, in the place of a complete one of the requester's own, unless the line has
one or the table is full; `ovf` marks an invalidation that goes to the whole member list. Log 72. -/
def State.openRecall (s : State) (tile p : Nat) (k : Packet) (dn x ln q kind : Nat) (who : List Nat) (qShares : Bool) (owner : Nat)
    (ovf : Bool) : State :=
  let retry := s.retryOf 0xD
  let s := match s.recallOf x ln with
    | some r => if r.complete && decide (r.requester = q) then s.closeRecall x ln else s
    | none => s
  let s :=
    if (s.recallOf x ln).isSome then s
    else if 4096 ≤ (s.coh.recalls.filter fun r => decide (r.tile = tile)).length then s.raise .coh tile 2
    else
      let r : Recall := {
        tile := tile, domain := dn, ext := x, line := ln, requester := q, kind := BitVec.ofNat 4 kind, qShares := qShares,
        owner := owner, expires := tadd retry 16,
        snoops := who.map fun m => ⟨m, BitVec.ofNat 4 kind, none, false⟩, complete := false }
      let s := { s with coh := { s.coh with recalls := s.coh.recalls ++ [r] } }
      if ovf then s.bump .coh tile 0x130 else s
  (s.bump .coh tile 0x120).refusePkt tile p k 0xD

/-- The front of a coherent request at its home: tables, checks 2 to 4, the domain and the member (R284). `epoch` is the
DOM_EPOCH that the packet carries, none for a home atomic. -/
def State.homeFront (s : State) (tile : Nat) (q : Queued) (right : Nat) (n : Named) (dn : Nat) (epoch : Option Nat)
    (k : Ctxt → Nat → State → Decided) : Decided :=
  s.frontAt tile q.port q right [n] fun c s =>
    let d := s.dom dn
    let e := s.extt s.banks n.ext
    if !e.coherent then .inl (s.answer q.port q.pkt stBadFormat)
    else if d.st ≠ .active ∨ (epoch.isSome = true ∧ epoch ≠ some d.epoch.toNat) then .inl (s.answer q.port q.pkt stDown)
    else
      match s.memberOf (s.domt s.banks dn) q.pkt.src with
      | none => .inl (s.answer q.port q.pkt stAccess)
      | some m => k c m s

/-- Decide a home atomic (R285, R289, R291). -/
def State.decideHomeAtomic (s : State) (tile : Nat) (q : Queued) : Decided :=
  let k := q.pkt
  let x := bits (k.word 0) 17 0
  let n := bits (k.word 0) 27 20 + 1
  let dn := (s.extt s.banks x).domain
  s.homeFront tile q 4 ⟨x, 0⟩ dn none fun c m s =>
    let e := s.extt s.banks x
    let ops := atomicOps k n
    let ln := (ops.headD { off := 0, op := 0, a := 0, b := 0 }).off / 256
    s.atomicChecks tile q.port k c x n fun s =>
      if ops.any (fun o => decide (o.off / 256 ≠ ln)) then .inl (s.answer q.port k stBadFormat)
      else State.whenFetched tile q.port k (s.fetchDir tile e ln) fun s =>
        match s.cachedEntry e ln with
        | none => .inl ((s.detectDown dn 3 0 tile).answer q.port k stDown)
        | some mem =>
          let w := s.dirView x ln mem
          let wait := match s.recallOf x ln with
            | some r => decide (r.requester ≠ m) || !r.complete
            | none => false
          if wait then .inl ((s.bump .coh tile 0x120).refusePkt tile q.port k 0xD)
          else
            if dState w = 0 then s.admitAtomic tile q.port k c x n (some dn) fun s => s.closeRecall x ln
            else if 4194304 ≤ s.ownedView tile then .inl ((s.raise .coh tile 3).refusePkt tile q.port k 0xA)
            else if dState w = 1 then
              .inl (s.openRecall tile q.port k dn x ln m 8 (s.otherSharers (s.domt s.banks dn) w 1024) false 0 (dOvf w))
            else .inl (s.openRecall tile q.port k dn x ln m 0xA [(dPtrs w).headD 0] false ((dPtrs w).headD 0) false)

/-! ### Applying atomics (R182, R184, R291) -/

/-- FMIN: the rules of R152 mirrored. -/
def fmin (x y : F32) : F32 := if isNan x || isNan y then fnan else if fkey x ≤ fkey y then x else y

/-- Two FP32 halves of a word through a function. -/
def halves (f : F32 → F32 → F32) (w a : Word) : Word :=
  (f (w.setWidth 32) (a.setWidth 32)).setWidth 64 ||| ((f ((w >>> 32).setWidth 32) ((a >>> 32).setWidth 32)).setWidth 64 <<< 32)

/-- The word after an operation (R182). -/
def atomicWord (op : BitVec 4) (w a b : Word) : Word :=
  match op.toNat with
  | 0 => w + a
  | 1 => halves fadd w a
  | 2 => if w.slt a then w else a
  | 3 => if w.slt a then a else w
  | 4 => if w.ult a then w else a
  | 5 => if w.ult a then a else w
  | 6 => halves fmin w a
  | 7 => halves fmax w a
  | 8 => a
  | 9 => if w = a then b else w
  | _ => w

/-- Apply one operation to its line (R184): a line still poisoned after repair keeps its data and the operation returns 0. -/
def State.applyAtomic (s : State) (e : Extt) (fmt : Nat) (home : Bool) (o : AtomicOp) : AtomicOp × State :=
  let r := s.lineRef e (o.off / 256)
  let tile := r.2.2 / 6
  match s.lineAt r.1 r.2.1 with
  | none => (o, s)
  | some ln =>
    let (bs, psn, s) := s.readLine r.1 r.2.1 ln fmt
    if psn then ({ o with old := 0, poisoned := true }, s.bump .hdg tile 0x1F8)
    else
      let s := if home then s.bump .coh tile 0x150 else s
      let s := s.bump .hdg tile 0x1F0
      let i := o.off % 256
      let old := BitVec.ofNat 64 (leNat ((bs.drop i).take 8))
      let new := atomicWord o.op old o.a o.b
      let line := bs.take i ++ leBytes 8 new.toNat ++ bs.drop (i + 8)
      ({ o with old := old }, (s.writePool r.1 r.2.1 0 fmt line false).bump .hmc (stackOf ln) 0x110)

/-- The units of a request that are applied: all, but in the tick of a tile fault each is applied whole or not at all, and nothing tells
which (R428). Log 179. -/
def State.unitsLand {α : Type} [DecidableEq α] (s : State) (units : List α) : List α × State :=
  if !s.tileFaults.contains s.tick then (units, s)
  else units.dedup.foldl (fun (a : List α × State) u =>
    let d := a.2.drawBool
    (if d.1 then a.1 ++ [u] else a.1, d.2)) ([], s)

/-- Apply the operations of a packet in entry order; in the tick of a tile fault each 8-byte word stands alone (R428). -/
def State.applyAtomics (s : State) (e : Extt) (fmt : Nat) (home : Bool) (ops : List AtomicOp) : List AtomicOp × State :=
  let u := s.unitsLand (ops.map (·.off))
  ops.foldl (fun (a : List AtomicOp × State) o =>
    let r := if u.1.contains o.off then a.2.applyAtomic e fmt home o else (o, a.2)
    (a.1 ++ [r.1], r.2)) ([], u.2)

/-! ### The optimizer kernels (R167, R174 to R177, R517) -/

/-- One step of xorshift64 (R517). -/
def xorshift (x : Word) : Word :=
  let x := x ^^^ (x <<< 13)
  let x := x ^^^ (x >>> 7)
  x ^^^ (x <<< 17)

/-- Draw ρ from a core's generator (R517). -/
def State.drawRho (s : State) (g : Nat) : Nat × State :=
  let x := xorshift (sget (fun _ => (0 : Word)) s.prng g)
  (bits x 63 48, { s with prng := sset (fun _ => (0 : Word)) s.prng g x })

/-- Stochastic rounding to BF16 with draw ρ (R176). -/
def stochBf16 (x : F32) (rho : Nat) : Nat :=
  let mag := x.toNat % 2 ^ 31
  let sg := if x.getLsbD 31 then 0x8000 else 0
  if isNan x then 0x7FC0
  else if mag = 0x7F800000 then sg + 0x7F80
  else
    let v := (mag + rho) / 65536
    if 0x7F80 ≤ v then sg + 0x7F7F else sg + v

/-- Encode elements in BF16, drawing once for each in ascending order (R176, R517). -/
def State.encodeStoch (s : State) (g : Nat) (xs : List F32) : List Byte × State :=
  xs.foldl (fun (a : List Byte × State) x =>
    let r := a.2.drawRho g
    (a.1 ++ leBytes 2 (stochBf16 x r.1), r.2)) ([], s)

/-- Pad with zeros to whole lines. -/
def padLines (n : Nat) (bs : List Byte) : List Byte := (bs ++ List.replicate (256 * n - bs.length) 0).take (256 * n)

/-- Encode the new weights of a row (R175): its bytes, and whether a NaN had no encoding. -/
def State.encodeWeights (s : State) (g : Nat) (e : Extt) (xs : List F32) : List Byte × Bool × State :=
  if e.format = 2 then let r := s.encodeStoch g xs; (padLines e.rowLines r.1, false, r.2)
  else if 6 ≤ e.format then
    (encodeRow e.format e.rowLines (xs.map fun x => if isNan x then 0 else x), xs.any isNan, s)
  else (encodeRow e.format e.rowLines xs, false, s)

/-- Whether `y` lies within a relative error of 2⁻²⁰ of β^t (R174). -/
def powOk (beta y : F32) (t : Nat) : Bool :=
  let b := exactInt beta
  decide ((exactInt y * 2 ^ (149 * (t - 1)) - b ^ t).natAbs * 2 ^ 20 ≤ (b ^ t).natAbs)

/-- β^t as the kernel has it, exp2(t × log₂ β) (R174): the free value where it keeps the stated bound, else the exact power
rounded once (log 5). A negative or non-finite β has no logarithm. -/
def powBeta (beta : F32) (t : Nat) : F32 :=
  let y := Config.powBeta beta t
  if !isFin beta || decide (exactInt beta < 0) then fnan
  else if isFin y && powOk beta y t then y
  else fword (.fin false ((exactInt beta) ^ t).toNat (-(149 * t : Nat)))

/-- What the kernel computes for one row (R174): new weights, new vector state, new count word. -/
def kernel (u : UpdDesc) (g w state : List F32) (count : Nat) : List F32 × List F32 × Nat :=
  let one := 0x3F800000#32
  let neg := fun (x : F32) => x ^^^ 0x80000000#32
  let n := w.length
  match u.opt with
  | 1 => ((g.zip w).map fun x => ffma (neg u.lr) x.1 x.2, [], 0)
  | 2 =>
    let mu := fsub one u.oneMb1
    let v := (state.zip g).map fun x => ffma mu x.1 x.2
    ((v.zip w).map fun x => ffma (neg u.lr) x.1 x.2, v, 0)
  | 3 =>
    let a := fadd (BitVec.ofNat 32 count) (fdiv (treeSum n (g.map fun x => fmul x x)) (fnat n))
    let q := fdiv u.lr (fadd (fsqrt a) u.eps)
    ((g.zip w).map fun x => ffma (neg q) x.1 x.2, [], a.toNat)
  | 4 =>
    let t := min (count + 1) 4294967295
    let b1 := fsub one u.oneMb1
    let b2 := fsub one u.oneMb2
    let m := ((state.take n).zip g).map fun x => ffma (fsub one b1) (fsub x.2 x.1) x.1
    let v := ((state.drop n).zip g).map fun x => ffma (fsub one b2) (fsub (fmul x.2 x.2) x.1) x.1
    let h1 := fsub one (powBeta b1 t)
    let h2 := fsub one (powBeta b2 t)
    let al := fdiv (fmul u.lr (fsqrt h2)) h1
    let ep := fmul u.eps (fsqrt h2)
    (((m.zip v).zip w).map fun x => ffma (neg al) (fdiv x.1.1 (fadd (fsqrt x.1.2) ep)) x.2, m ++ v, t)
  | _ => (w, state, count)

/-- Read lines of an extent for the kernel: bytes and whether any is poisoned. -/
def State.kernelRead (s : State) (e : Extt) (lns : List Nat) : List Byte × Bool × State :=
  lns.foldl (fun (a : List Byte × Bool × State) ln =>
    let r := a.2.2.lineRef e ln
    let v := a.2.2.readLine r.1 r.2.1 ((a.2.2.lineAt r.1 r.2.1).getD 0) e.format
    (a.1 ++ v.1, a.2.1 || v.2.1, v.2.2)) ([], false, s)

/-- Write whole lines of an extent, poisoned or not. -/
def State.kernelWrite (s : State) (e : Extt) (lns : List Nat) (bs : List Byte) (poison : Bool) : State :=
  lns.zipIdx.foldl (fun s l =>
    let r := s.lineRef e l.1
    s.writePool r.1 r.2.1 0 e.format ((bs.drop (256 * l.2)).take 256) poison) s

/-- Sum the gradients of a row by the depth rule (R167, R153); the order is free (log 3). -/
def coalesce (seed : Nat) (gs : List (List F32)) : List F32 :=
  let ps : List Partial := gs.map fun g => ⟨0, 0, 0, g, [], [], false, none⟩
  ((mergeAll [⟨6, 0, 0, 0, 0⟩] gs.length seed ps).map (·.elems)).getD []

/-- Apply the optimizer to one row: weights, state and count together (R174, R175, R180, R260). -/
def State.applyKernel (s : State) (b : BitVec 8) (x : Nat) (u : UpdDesc) (row : Nat) (gs : List (List F32)) : State :=
  let e := s.extt b x
  let ce := s.extt b u.comp
  let n := e.rowElems
  let core := s.coalesceCore e x row
  let g := s.physCore core
  let grad := coalesce (s.fresh * 65536 + row) gs
  let s := { s with fresh := s.fresh + 1 }
  let wl := rowLines e (row * e.rowSize)
  let vl := u.vecLines n row
  let cl := u.countLines row
  let (wb, p1, s) := s.kernelRead e wl
  let (vb, p2, s) := s.kernelRead ce vl
  let (cb, p3, s) := s.kernelRead ce cl
  let at' := 4 * row % 256
  let cnt := leNat ((cb.drop at').take 4)
  let st := (elemsOf u.width (u.vectors * n) vb).map fun c => if u.bf16 then ofBf16 c else BitVec.ofNat 32 c
  let o := kernel u grad (decodeRow e.format n wb) st cnt
  let psn := p1 || p2 || p3
  let (nw, nan, s) := s.encodeWeights g e o.1
  let (nv, s) := if u.bf16 then s.encodeStoch g o.2.1 else ((o.2.1.flatMap fun (v : F32) => leBytes 4 v.toNat), s)
  let s := s.kernelWrite e wl nw (psn || nan)
  let s := s.kernelWrite ce vl (padLines vl.length nv) psn
  let s := s.kernelWrite ce cl (cb.take at' ++ leBytes 4 o.2.2 ++ cb.drop (at' + 4)) p3
  let fv := kernelCost u.opt
  let v := cdiv n 32
  (s.bumpN .eng g 0x110 (gs.length * (1 + v) + fv.1 + fv.2 * v)).bump .hdg (core / 32) 0x1E0

/-! ### The landing tick (R179, R245) -/

/-- Requests of one source and order stream (R245). -/
def Req.stream (a b : Req) : Bool := decide (a.src = b.src ∧ a.ctx = b.ctx ∧ a.tag = b.tag)

/-- Physical lines that a write or atomic touches. -/
def State.touched (s : State) (r : Req) : List Nat :=
  let at' := fun (x ln : Nat) =>
    let q := s.lineRef (s.extt r.banks x) ln
    s.lineAt q.1 q.2.1
  match r.work with
  | .write ps _ _ _ => (ps.filterMap fun p => at' p.ext p.line).dedup
  | .atomic x ops _ _ => (ops.filterMap fun o => at' x (o.off / 256)).dedup
  | _ => []

/-- Resident lines that a read of this tick reads: physical line, parcel, line, format. -/
def State.readsNow (s : State) (r : Req) : List (Nat × Nat × Nat × Nat) :=
  let at' := fun (x ln : Nat) =>
    let e := s.extt r.banks x
    let q := s.lineRef e ln
    if s.resident q.1 q.2.1 then (s.lineAt q.1 q.2.1).map fun l => (l, q.1, q.2.1, e.format) else none
  if r.rowDone then []
  else match r.work with
  | .read x off n _ _ _ => (linesOf off n).filterMap (at' x)
  | .batch _ _ _ _ _ ts _ _ _ _ _ =>
    ((ts.filter fun t => !t.done && !t.miss && decide (t.st = .live)).flatMap fun t =>
      (rowLines (s.extt r.banks t.ext) t.off).filterMap (at' t.ext)).dedup
  | _ => []

/-- A read whose stream has earlier or later writes or atomics landing with it: what it will see of each line. -/
structure Watch where
  req : Req
  /-- Physical line, parcel, line, format, and the request after which it is seen (none: before all). -/
  lines : List ((Nat × Nat × Nat × Nat) × Option Nat)
  /-- All its own work was decided before it, so that it may see the state after all steps instead. -/
  mayWait : Bool
  caps : Captured := []
deriving DecidableEq, Repr

/-- The reads of this tick that R245 orders against the landing work, given in the order in which it is applied: each sees a line after the
last step of its own stream that was decided before it (R179). -/
def State.watches (s : State) (work : List Req) : List Watch :=
  let rs := s.adm.reqs.filter fun r => decide (tadd r.admitTick 1 = s.tick)
  rs.filterMap fun r =>
    let own := (work.filter fun w => r.stream w).map fun w => (w.rid, s.touched w)
    if own.isEmpty then none
    else
      let ls := (s.readsNow r).filter fun l => own.any fun o => o.2.contains l.1
      if ls.isEmpty then none
      else
        some { req := r
               lines := ls.map fun l => (l, ((own.filter fun o => decide (o.1 < r.rid) && o.2.contains l.1).map (·.1)).getLast?)
               mayWait := own.all fun o => decide (o.1 < r.rid) }

/-- Read the lines that watches see at this point. -/
def State.captureAt (s : State) (point : Option Nat) (ws : List Watch) : List Watch × State :=
  ws.foldl (fun (a : List Watch × State) w =>
    let r := (w.lines.filter fun l => decide (l.2 = point)).foldl (fun (c : Captured × State) l =>
      let v := c.2.readLine l.1.2.1 l.1.2.2.1 l.1.1 l.1.2.2.2
      (c.1 ++ [(l.1.1, v.1, v.2.1)], v.2.2)) (w.caps, a.2)
    (a.1 ++ [{ w with caps := r.1 }], r.2)) ([], s)

/-- Land a WRITE, whole: the key check of both parcels, then the pieces (R57, R179). A failed check writes nothing and
leaves no pieces. -/
def State.landWrite (s : State) (r : Req) (ps : List Piece) (f : BitVec 4) (ack : Bool) : State :=
  let c := s.ctxt r.banks r.ctx.toNat
  let bad := ps.find? fun p =>
    let k := s.pkt r.banks (s.lineRef (s.extt r.banks p.ext) p.line).1
    !(k.1 && c.keyOk k.2 true)
  match bad with
  | some p =>
    let q := s.lineRef (s.extt r.banks p.ext) p.line
    (s.keyFail ((s.lineAt q.1 q.2.1).getD 0) r.ctx.toNat (ptrTo p.ext (p.line * 256))).setWork r.rid (.write [] f ack true)
  | none =>
    let u := s.unitsLand (ps.map fun p => (p.ext, p.line))
    let s := ps.foldl (fun s p =>
      let q := s.lineRef (s.extt r.banks p.ext) p.line
      if u.1.contains (p.ext, p.line) then s.writePool q.1 q.2.1 p.first f.toNat p.bytes p.poison else s) u.2
    s.setWork r.rid (.write ps f ack true)

/-- Land a request of writes or atomics. -/
def State.landOne (s : State) (r : Req) : State :=
  match r.work with
  | .write ps f ack _ => s.landWrite r ps f ack
  | .atomic x ops ret _ =>
    let e := s.extt r.banks x
    let o := s.applyAtomics e e.format r.domain.isSome ops
    o.2.setWork r.rid (.atomic x o.1 ret true)
  | _ => s

/-- Whether the request's work is a write. -/
def Work.isWrite : Work → Bool
  | .write .. => true | _ => false

/-- A READ or a batch. -/
def Work.isLookup : Work → Bool
  | .read .. | .batch .. => true
  | _ => false

/-- Whether it is an atomic. -/
def Work.isAtomic : Work → Bool
  | .atomic .. => true | _ => false
/-- Whether it is a push. -/
def Work.isPush : Work → Bool
  | .push .. => true | _ => false

/-- Whether it is a coherent transition. -/
def Work.isCoh : Work → Bool
  | .coh .. => true | _ => false

/-- Land the pushes of a tick: every row of an extent once, with the sum of its entries (R166, R167, R180). -/
def State.landPushes (s : State) (l : List Req) : State :=
  let items := l.flatMap fun r => match r.work with
    | .push x w5 w6 eps rows _ _ _ => rows.map fun g => (x, g.row, updDesc w5 w6 eps.toNat, r.banks, g.grad)
    | _ => []
  let u := s.unitsLand (items.map fun i => (i.1, i.2.1)).dedup
  let s := u.1.foldl (fun s k =>
    let mine := items.filter fun i => decide (i.1 = k.1 ∧ i.2.1 = k.2)
    match mine.head? with
    | some i => s.applyKernel i.2.2.2.1 k.1 i.2.2.1 k.2 (mine.map fun i => i.2.2.2.2)
    | none => s) u.2
  l.foldl (fun s r => match r.work with
    | .push x a b c rows d ack _ => s.setWork r.rid (.push x a b c rows d ack true)
    | _ => s) s

/-- Coherent work admitted in the last tick lands in the home's COH engine: WB data, then the directory entry (R285, R290). -/
def State.landCoh (s : State) (r : Req) : State :=
  match r.work with
  | .coh msg dn x ln data new gr wd st _ _ =>
    let e := s.extt r.banks x
    let q := s.lineRef e ln
    let s := match data with
      | some d => s.writePool q.1 q.2.1 0 e.format d.1 d.2
      | none => s
    let c := s.ctxt r.banks r.ctx.toNat
    let k := s.pkt r.banks q.1
    let ok := k.1 && c.keyOk k.2 false
    let v : List Byte × Bool × State := if wd then
        (if ok then s.readLine q.1 q.2.1 ((s.lineAt q.1 q.2.1).getD 0) e.format
         else ([], false, s.keyFail ((s.lineAt q.1 q.2.1).getD 0) r.ctx.toNat (ptrTo x (ln * 256)))) else ([], false, s)
    let s := v.2.2
    let st := if wd && !ok then BitVec.ofNat 8 stAccess else if v.2.1 then BitVec.ofNat 8 stPoison else st
    let s := (s.writeDirEntry e ln new).noteOwned (q.2.2 / 6) x ln new
    s.setWork r.rid (.coh msg dn x ln data new gr wd st v.1 true)
  | _ => s

/-- Work of the last tick that has not landed, but for that of a domain that goes DOWN in this tick (R293). -/
def State.dueLanding (s : State) : List Req :=
  s.adm.reqs.filter fun r => r.work.lands && decide (tadd r.admitTick 1 = s.tick) && !r.work.landed && !r.domain.any s.fallen

/-- Whether a request is finished once its work has landed: nothing is left to answer. -/
def Req.doneSilent (r : Req) : Bool :=
  r.work.landed && (r.egress.isNone || (match r.work with
    | .write ps _ ack _ => !ack && !ps.isEmpty
    | .push _ _ _ _ _ _ ack _ => !ack
    | _ => false))

/-- The Deep reads whose own stream has writes or atomics in the landing work, all decided after them: what fills in this tick is filled and
read first, before all three steps (R179, R245). -/
def State.fillsFirst (s : State) (work : List Req) : State :=
  (s.adm.reqs.filter fun r => r.work.isLookup && work.any fun w => r.stream w).foldl (fun s r => s.withReq r.rid s.fillWrite) s

/-- LANDING: the Deep reads of R245, writes, atomics, kernels, the work of coherent lines in the order of its decisions (R285, R291), then the
other ordered reads of R245 (R179). -/
def State.landing (s : State) : State :=
  let due := s.dueLanding
  if due.isEmpty then s
  else
    let home := fun (r : Req) => r.work.isCoh || (r.work.isAtomic && r.domain.isSome)
    let order := (due.filter fun r => r.work.isWrite) ++ (due.filter fun r => r.work.isAtomic && !home r)
    let s := s.fillsFirst (due.filter fun r => r.work.isWrite || r.work.isAtomic)
    let ws := s.watches order
    let (ws, s) := s.captureAt none ws
    let (ws, s) := order.foldl (fun (a : List Watch × State) r =>
      let s := a.2.landOne r
      s.captureAt (some r.rid) a.1) (ws, s)
    let s := s.landPushes (due.filter fun r => r.work.isPush)
    let s := (due.filter home).foldl (fun s r => if r.work.isCoh then s.landCoh r else s.landOne r) s
    let s := ws.foldl (fun s w =>
      let (wait, s) := if w.mayWait then s.drawBool else (false, s)
      match s.reqOf w.req.rid with
      | some r => s.rowPhase (if wait then [] else w.caps) r
      | none => s) s
    ({ s with adm := { s.adm with reqs := s.adm.reqs.filter fun r => !r.doneSilent } }).retryRecalls

/-! ### Completions in T + 2 (R165, R185, R305) -/

/-- The landed work of a request whose completion is due: two ticks after admission, or later on the same request. -/
def State.dueReply (s : State) (rid : Nat) : Option Req :=
  match s.reqOf rid with
  | some r => if r.work.landed && decide (tadd r.admitTick 2 = s.tick) then some r else none
  | none => none

/-- Drop a finished request. -/
def State.dropReq (s : State) (rid : Nat) : State :=
  { s with adm := { s.adm with reqs := s.adm.reqs.filter fun r => decide (r.rid ≠ rid) } }

/-- WRITE_ACK: OK when asked for; a failed key check answers ACCESS in any case. -/
def State.writeAck (s : State) (r : Req) : State :=
  match r.work with
  | .write ps _ ack _ =>
    if s.sentAlready r then s
    else if ps.isEmpty then s.sendResult r 0x20 stAccess [([], [])]
    else if ack then s.sendResult r 0x20 stOk [([], [])]
    else s
  | _ => s

/-- PUSH_COMPLETION (R165). -/
def State.pushCompletion (s : State) (r : Req) : State :=
  match r.work with
  | .push _ _ _ _ _ d ack _ =>
    if s.sentAlready r then s
    else if ack then s.sendResult r 0x20 (if d = 0 then stOk else stConsumed) [(leBytes 8 d, [false])]
    else s
  | _ => s

/-- ATOMIC_RESULT (R185). -/
def State.atomicResult (s : State) (r : Req) : State :=
  match r.work with
  | .atomic _ ops ret _ =>
    if s.sentAlready r then s
    else
      let st := if ops.any (·.poisoned) then stPoison else stOk
      let body := ops.flatMap fun o => wordsBytes [o.old, if o.poisoned then BitVec.ofNat 64 stPoison else 0]
      s.sendResult r 0x20 st [(if ret then body else [], [])]
  | _ => s

/-! ### Rows -/

/-- PUSH (R163). -/
def execPush (port : Fin 32) (s : State) : Host.Outcome State Fault Refusal :=
  .next (s.takeHead port 4 fun q s => (s.decidePush port q).settle (port / 8) port q.pkt)

/-- ATOMIC (R183): the head of the port's queue, else a home atomic at the head of the tile's home queue. -/
def execAtomic (port : Fin 32) (s : State) : Host.Outcome State Fault Refusal :=
  .next (if (s.headOf port 5).isSome then s.takeHead port 5 fun q s => (s.decideAtomic port q).settle (port / 8) port q.pkt
    else s.takeHome (port.val / 8) (fun k => decide (k.opcode = 5)) fun q s => (s.decideHomeAtomic (port.val / 8) q).settle (port.val / 8) q.port q.pkt)

/-- ROW_PHASE (R113): in T + 1; where work of its own stream lands in the tick, that lands first and the read sees it as R245 says. Log 29. -/
def execRowPhase (rid : Nat) (s : State) : Host.Outcome State Fault Refusal :=
  .next (match s.reqOf rid with
    | some r =>
      if tadd r.admitTick 1 = s.tick then
        let own := (s.dueLanding.filter fun w => w.work.isWrite || w.work.isAtomic).any fun w => r.stream w
        let s := if own then s.landing else s
        match s.reqOf rid with
        | some r => s.rowPhase [] r
        | none => s
      else s
    | none => s)

/-- LANDING (R179). -/
def execLanding (s : State) : Host.Outcome State Fault Refusal := .next s.landing

/-- WRITE_ACK (R305). -/
def execWriteAck (rid : Nat) (s : State) : Host.Outcome State Fault Refusal :=
  .next (match s.dueReply rid with
    | some r => s.writeAck r
    | none => s)

/-- PUSH_COMPLETION (R165). -/
def execPushCompletion (rid : Nat) (s : State) : Host.Outcome State Fault Refusal :=
  .next (match s.dueReply rid with
    | some r => s.pushCompletion r
    | none => s)

/-- ATOMIC_RESULT (R185). -/
def execAtomicResult (rid : Nat) (s : State) : Host.Outcome State Fault Refusal :=
  .next (match s.dueReply rid with
    | some r => s.atomicResult r
    | none => s)

end Sys2Proof.Machine
end

