-- ==== Sys2Proof/Machine/Coherence.lean ====
section
/-! DEFINITION. Coherence requests at their home (chapter 10): the decision table of R285, recalls (R286), the limit of R289, the
charges of R290 and the GRANT (R283, R285). -/

namespace Sys2Proof.Machine

/-- What the home decides from the directory entry (R285). -/
inductive CohAct where
  /-- Admit: the entry it leaves, the state granted, whether data returns, whether the request's data is written. -/
  | allows (new : Word) (granted : Nat) (withData write : Bool)
  | access
  /-- Recall with a snoop of this code to these members; whether q is a sharer; the owner; whether it is an OVF broadcast. -/
  | recall (kind : Nat) (who : List Nat) (qShares : Bool) (owner : Nat) (ovf : Bool)
  /-- The requester has lost a line that the directory shows it holding in M. -/
  | lost
  | limit
deriving DecidableEq, Repr

/-- RD_S for member `m` on entry `w`; `full` says that the tile is at the limit of R289. -/
def cohRdS (w : Word) (m : Nat) (full : Bool) : CohAct :=
  let o := (dPtrs w).headD 0
  match dState w with
  | 0 => if full then .allows (dirOne 1 m) 1 true false else .allows (dirOne 2 m) 2 true false
  | 1 =>
    if dPtrs w = [m] ∧ dOvf w = false then .allows w 1 true false
    else .allows (dirShared (if (dPtrs w).contains m then dPtrs w else dPtrs w ++ [m]) (dOvf w)) 1 true false
  | 2 => if o = m then (if full then .allows (dirOne 1 m) 1 true false else .allows (dirOne 2 m) 2 true false) else .recall 9 [o] false o false
  | _ => if o = m then .lost else .recall 9 [o] false o false

/-- RD_X for member `m`; `others` are the other sharers of an S entry. -/
def cohRdX (w : Word) (m : Nat) (full : Bool) (others : List Nat) : CohAct :=
  let o := (dPtrs w).headD 0
  if full then .limit
  else match dState w with
  | 0 => .allows (dirOne 3 m) 3 true false
  | 1 =>
    if dPtrs w = [m] ∧ dOvf w = false then .allows (dirOne 3 m) 3 true false
    else .recall 8 others ((dPtrs w).contains m) 0 (dOvf w)
  | 2 => if o = m then .allows (dirOne 3 m) 3 true false else .recall 0xA [o] false o false
  | _ => if o = m then .lost else .recall 0xA [o] false o false

/-- UPG for member `m`: as RD_X but for the only sharer, which gets M without data. -/
def cohUpg (w : Word) (m : Nat) (full : Bool) (others : List Nat) : CohAct :=
  if full then .limit
  else if dState w = 1 ∧ dPtrs w = [m] ∧ dOvf w = false then .allows (dirOne 3 m) 3 false false
  else cohRdX w m full others

/-- WB and WBS (`keep`): only the owner may write back. -/
def cohWb (w : Word) (m : Nat) (keep : Bool) : CohAct :=
  if dOwned w && decide ((dPtrs w).headD 0 = m) then
    .allows (if keep then dirOne 1 m else dirI) (b2n keep) false true
  else .access

/-- EVS: the member leaves the sharers. -/
def cohEvs (w : Word) (m : Nat) : CohAct :=
  if dState w = 1 ∧ dOvf w = false then
    let l := (dPtrs w).filter (· ≠ m)
    .allows (if l.isEmpty then dirI else dirShared l false) 0 false false
  else .allows w 0 false false

/-- The right that a coherence message needs: the transit filter of R320 counts RD_X, UPG, WB and WBS as writes (log 34). -/
def cohRight (msg : Nat) : Nat := if 1 ≤ msg ∧ msg ≤ 4 then 2 else 1

/-- Counter of a grant by the state granted. -/
def grantCounter (g : Nat) : Nat := if g = 1 then 0x108 else if g = 2 then 0x110 else 0x118

/-- The recall of a line that its owner has lost: it sends no snoop, and the line is rewritten with poison and its entry I as soon as the home
can write them (R285, R287). -/
def State.lostLine (s : State) (tile p : Nat) (k : Packet) (dn x ln q : Nat) : State :=
  let s := s.openRecall tile p k dn x ln q 0xA [] false q false
  match s.recallOf x ln with
  | some r => s.completeRecall { r with lost := true }
  | none => s

/-- Charges of an admitted coherent request (R290). -/
def Demand.coherent (d : Demand) (tile : Nat) (e : Extt) (ln : Nat) (withData write : Bool) : Demand :=
  let s := d.st
  let u := tadd s.tick 1
  let r := s.lineRef e ln
  let dl := s.dirAddr e ln / 256
  let d := d.add [s.slotOf dl u 2]
  let d := if e.assured then d.add [s.slotOf ((s.fhtOf (dl / 8192)).mirrorFrame * 8192 + dl % 8192) u 1] else d
  let d := match s.lineAt r.1 r.2.1 with
    | some l => if withData || write then d.add [s.slotOf l u 1] else d
    | none => d
  if write then
    let d := match s.lineAt r.1 r.2.1 with
      | some l => if e.assured then d.add [s.slotOf ((s.fhtOf (l / 8192)).mirrorFrame * 8192 + r.2.1) u 1] else d
      | none => d
    d.dirty tile [(r.1, r.2.1 / 16)]
  else d

/-- Admit a coherent request (R285, R290). -/
def State.admitCoh (s : State) (tile p : Nat) (k : Packet) (c : Ctxt) (msg dn x ln : Nat) (new : Word) (granted : Nat)
    (withData write : Bool) : Decided :=
  let e := s.extt s.banks x
  let r := s.lineRef e ln
  let d : Demand := { st := s }
  let d := d.coherent tile e ln withData write
  let d := { d with hold := [r.1] }
  let size := if withData then 272 else 16
  let (d, port, segs) := d.egress tile c k.ctxid.toNat k.src (tadd s.tick 2) [size]
  let d := match port with
    | some o => d.add (linkNeed tile (o / 8) (tadd s.tick 1) size)
    | none => d
  let data := if write then some (k.payload.drop 16, (List.range 256).any fun i => k.bytePoison (16 + i)) else none
  let work := Work.coh (BitVec.ofNat 4 msg) dn x ln data new (BitVec.ofNat 2 granted) withData 0 [] false
  let mk := s.mkReq k (some p) tile .near port segs [x] [] work
  .inr ⟨s, d, fun rid => { mk rid with domain := some dn }, fun s =>
    let s := if write then s.noteGroups tile [(r.1, r.2.1 / 16)] else s
    let s := s.closeRecall x ln
    if withData || msg = 2 then s.bump .coh tile (grantCounter granted) else s⟩

/-- Decide a coherence request of message `msg` at its home tile (R283 to R286). Log 35. Log 36. Log 73. -/
def State.decideCoh (s : State) (tile : Nat) (msg : Nat) (act : Word → Nat → Bool → List Nat → CohAct) (q : Queued) : Decided :=
  let k := q.pkt
  let p := q.port
  let w0 := k.word 0
  let dn := bits w0 33 22
  let s := s.bump .coh tile 0x100
  let len := if msg = 3 ∨ msg = 4 then 272 else 16
  if bits w0 19 16 ≠ msg ∨ k.payload.length ≠ len then .inl (s.answer p k stBadFormat)
  else
    match ptrOf (k.word 1) with
    | .at' x off =>
      s.homeFront tile q (cohRight msg) ⟨x, off⟩ dn (some (bits w0 15 0)) fun c m s =>
        let e := s.extt s.banks x
        let ln := off / 256
        let write := decide (msg = 3 ∨ msg = 4)
        if e.domain ≠ dn then .inl (s.answer p k stAccess)
        else State.whenFetched tile p k (s.takeCopies tile (s.keyRefs e [ln])) fun s =>
          match s.badKey c e [ln] write with
          | some i => .inl ((s.keyFailIn k.ctxid.toNat x e i).answer p k stAccess)
          | none => State.whenFetched tile p k (s.fetchDir tile e ln) fun s =>
          match s.cachedEntry e ln with
          | none => .inl ((s.detectDown dn 3 0 tile).answer p k stDown)
          | some mem =>
            let w := s.dirView x ln mem
            let again := fun (s : State) => (Sum.inl ((s.bump .coh tile 0x120).refusePkt tile p k 0xD) : Decided)
            let wait := match s.recallOf x ln with
              | some r => decide (r.requester ≠ m) || !r.complete
              | none => false
            if wait then again s
            else
              let full := decide (4194304 ≤ s.ownedView tile)
              match act w m full (s.otherSharers (s.domt s.banks dn) w m) with
              | .access => .inl ((s.bump .coh tile 0x148).answer p k stAccess)
              | .limit => .inl ((s.raise .coh tile 3).refusePkt tile p k 0xA)
              | .lost => .inl (s.lostLine tile p k dn x ln m)
              | .recall kind who qs owner ovf => .inl (s.openRecall tile p k dn x ln m kind who qs owner ovf)
              | .allows new g wd wr =>
                let s := if full ∧ msg = 0 ∧ dState w ≠ 1 then s.raise .coh tile 3 else s
                s.admitCoh tile p k c msg dn x ln new g wd wr
    | _ => .inl (s.answer p k stInvalid)

/-- Whether a coherence request is the row's: its message, and for the first row every message that is not defined. -/
def cohIs (msg : Nat) (k : Packet) : Bool :=
  let m := bits (k.word 0) 19 16
  decide (k.opcode = 8) && (decide (m = msg) || (decide (msg = 0) && decide (5 < m)))

/-- Take a coherence request: the head of the tile's home queue, else one that names no line and so waits in a port's own
intake queue, the tile's ports in the order of R101. Log 135. -/
def State.takeCoh (s : State) (tile msg : Nat) (act : Word → Nat → Bool → List Nat → CohAct) : State :=
  if (s.homeHead tile (cohIs msg)).isSome then s.takeHome tile (cohIs msg) fun q s => (s.decideCoh tile msg act q).settle tile q.port q.pkt
  else
    let ports := (List.range 8).map fun i => tile * 8 + (s.tick + i) % 8
    match ports.find? (fun p => match s.headOf p 8 with
      | some q => cohIs msg q.pkt
      | none => false) with
    | some p => s.takeHead p 8 fun q s => (s.decideCoh tile msg act q).settle tile q.port q.pkt
    | none => s

/-- GRANT_SEND: one GRANT packet in T + 2 (R285). -/
def State.grantSend (s : State) (r : Req) : State :=
  match r.work with
  | .coh _ dn x ln _ _ g wd st reply _ =>
    if s.sentAlready r then s
    else
      let w := place 15 0 (s.dom dn).epoch.toNat ||| place 19 16 0xE ||| place 21 20 g.toNat ||| place 33 22 dn
      let body := wordsBytes [w, ptrTo x (ln * 256)] ++ (if wd then reply else [])
      let psn := decide (st.toNat = stPoison)
      s.sendResult r 0x24 st.toNat [(body, if psn then [true, true] else [])]
  | _ => s

/-- RD_S (R285). -/
def execRdS (tile : Fin 4) (s : State) : Host.Outcome State Fault Refusal :=
  .next (s.takeCoh tile 0 fun w m full _ => cohRdS w m full)

/-- RD_X (R285). -/
def execRdX (tile : Fin 4) (s : State) : Host.Outcome State Fault Refusal :=
  .next (s.takeCoh tile 1 fun w m full others => cohRdX w m full others)

/-- UPG (R285). -/
def execUpg (tile : Fin 4) (s : State) : Host.Outcome State Fault Refusal :=
  .next (s.takeCoh tile 2 fun w m full others => cohUpg w m full others)

/-- WB (R285). -/
def execWb (tile : Fin 4) (s : State) : Host.Outcome State Fault Refusal :=
  .next (s.takeCoh tile 3 fun w m _ _ => cohWb w m false)

/-- WBS (R285). -/
def execWbs (tile : Fin 4) (s : State) : Host.Outcome State Fault Refusal :=
  .next (s.takeCoh tile 4 fun w m _ _ => cohWb w m true)

/-- EVS (R285). -/
def execEvs (tile : Fin 4) (s : State) : Host.Outcome State Fault Refusal :=
  .next (s.takeCoh tile 5 fun w m _ _ => cohEvs w m)

/-- GRANT_SEND (R285). -/
def execGrantSend (rid : Nat) (s : State) : Host.Outcome State Fault Refusal :=
  .next (match s.dueReply rid with
    | some r => s.grantSend r
    | none => s)

end Sys2Proof.Machine
end

