-- ==== Sys2Proof/Machine/Bulk.lean ====
section
/-! DEFINITION. Bulk requests (R74 to R77, R191, R306), the page-table walk (R192 to R197), its caches (R198) and its faults
(R200 to R206), chunks and completions. -/

namespace Sys2Proof.Machine

/-! ### Placing chunks (R74, R75, R92) -/

/-- Slots of `n` lines spread over every pseudo-channel of a stack (R92). -/
def stackSlots (st u n : Nat) : List Need := (List.range 64).map fun pc => ⟨.hbm st pc, u, cdiv n 64, none⟩

/-- The stacks that [off, off + 256 g) of an extent lies on, with the bytes on each. -/
def State.rangeStacks (s : State) (e : Extt) (off g : Nat) : List (Nat × Nat) :=
  let i0 := off / 2 ^ 21
  (List.range ((off + 256 * g - 1) / 2 ^ 21 + 1 - i0)).map fun i =>
    let lo := max off ((i0 + i) * 2 ^ 21)
    let hi := min (off + 256 * g) ((i0 + i + 1) * 2 ^ 21)
    ((s.parcelOf e lo).2, hi - lo)

/-- HBM charges of the writing side of a chunk, mirrors of an Assured extent included. -/
def State.writeSide (s : State) (e : Extt) (off g u : Nat) : List Need :=
  ((s.rangeStacks e off g).map (·.1)).dedup.flatMap fun st =>
    stackSlots st u g ++ (if e.assured then stackSlots (mirrorStack st) u g else [])

/-- A plan of chunks under construction: with the reasons of the ticks that chunks skipped, and the charges that fell short in the last of
them. -/
structure Plan where
  chunks : List Chunk := []
  needs : List Need := []
  segs : List Nat := []
  reasons : List Nat := []
  lost : List Need := []
deriving DecidableEq, Repr

/-- The core of a tile that moves a chunk in tick `u`: the one with most unreserved engine-cycles, the lowest on a tie (R82). -/
def State.moverCore (s : State) (tile u : Nat) : Nat :=
  let used := fun (c : Nat) => ((s.adm.claims.filter fun x => decide (x.res = .engine c ∧ x.use' = u)).map (·.units)).sum
  (List.range 32).foldl (fun b i => if used (32 * tile + i) < used b then 32 * tile + i else b) (32 * tile)

/-- A request's chunks as they are to be placed: the byte count, the sizes (lines, pages) that the chunk at an offset may have, the largest
first, the home tile of the chunk at an offset, and the charges and segments of a chunk in the room given, with the charges for which no
egress placement exists. -/
structure ChunkPlan where
  total : Nat
  cands : Nat → List (Nat × Nat)
  tile : Nat → Nat
  need : (Res → Nat → Option Nat → Nat) → Nat → Nat → Nat → Nat → List Need × List Nat × List Need

/-- The charges of a chunk that the room does not hold. -/
def chunkShort (room : Res → Nat → Option Nat → Nat) (t : Nat) (n : List Need × List Nat × List Need) : List Need :=
  shortIn room t (mergeNeeds [] n.1) ++ n.2.2

/-- Place chunks from tick `u` on, each in the earliest tick whose room holds every charge of it (R74); without a placement, the plan so far,
with the reasons of every size in every tick that a chunk skipped (R75). -/
def State.placeChunks (s : State) (room : Res → Nat → Option Nat → Nat) (c : ChunkPlan) : Nat → Nat → Nat → Plan → Bool × Plan
  | 0, _, off, p => (decide (c.total ≤ off), p)
  | f + 1, u, off, p =>
    if c.total ≤ off then (true, p)
    else
      let tries := (c.cands off).map fun g => (g, c.need room off g.1 g.2 u)
      match tries.find? fun t => (chunkShort room s.tick t.2).isEmpty with
      | some (g, n) =>
        let ch : Chunk := { tick := u, off := off, lines := g.1, pages := g.2, tile := c.tile off, core := s.moverCore (c.tile off) u }
        s.placeChunks room c f (tadd u 1) (off + 256 * g.1) { p with chunks := p.chunks ++ [ch], needs := p.needs ++ n.1, segs := p.segs ++ n.2.1 }
      | none =>
        let why := tries.flatMap fun t => (chunkShort room s.tick t.2).map (·.res.reason)
        let lost := (tries.head?.map fun t => chunkShort room s.tick t.2).getD []
        s.placeChunks room c f (tadd u 1) off { p with reasons := (p.reasons ++ why).dedup, lost := lost }

/-- Place the chunks of a request in the parts of tile `h`: the plan, or that of its refusal, none when an idle device could not place them
either (R75; log 149). -/
def State.planChunks (s : State) (h : Nat) (c : ChunkPlan) (n u off : Nat) : Plan ⊕ Option Plan :=
  match s.placeChunks (s.left h) c n u off {} with
  | (true, p) => .inl p
  | (false, p) => .inr (if (s.placeChunks s.idleRoom c n u off {}).1 then some p else none)

/-- A map that a plan of chunks refuses: with NEVER alone when no device could hold it, else with the plan's reasons and the charges that its
chunk lacked (R75, R96; log 174). -/
def Demand.unplanned (d : Demand) : Option Plan → Demand
  | none => { d with reasons := [0xF], lost := [] }
  | some p => { d with reasons := d.reasons ++ p.reasons, lost := d.lost ++ p.lost }

/-- Sizes of a chunk of a fabric Bulk request at `off`: BULK_MAX_RATE lines or what is left of the request, for a copy also of the source
parcel, and then halves of that; a read's chunks but the last are whole packets (R74, R306; log 37). -/
def bulkSizes (rate soff total off : Nat) (read : Bool) : List (Nat × Nat) :=
  let rest := (total - off) / 256
  let inParcel := (2 ^ 21 - (soff + off) % 2 ^ 21) / 256
  let g0 := min rate (if read then rest else min rest inParcel)
  ((List.range 17).map fun i =>
    let g := g0 / 2 ^ i
    if read ∧ g < rest then g / 32 * 32 else g).dedup.filterMap fun g => if g = 0 then none else some (g, 0)

/-- The status with which step 1 ends a Bulk request on its extents: checks 1 to 4 for first and last byte, and a coherent
extent whose domain is not QUIET (R56, R275). -/
def State.bulkEnd (s : State) (c : Ctxt) (one : Bool) (ps : List Ptr) (len : Nat) : Option Nat :=
  let ns := ps.flatMap fun p => match p with
    | .at' x off => [(⟨x, off⟩ : Named), ⟨x, off + len - 1⟩]
    | _ => []
  match s.checks c one 5 ns with
  | some st => some st
  | none =>
    if ns.any fun n => let e := s.extt s.banks n.ext; e.coherent && decide ((s.dom e.domain).st ≠ .quiet) then some stAccess
    else none

/-- Give the destination parcels of a Bulk write their frames in the admission tick, as R518 gives full-line writes theirs
(log 39). -/
def Demand.bulkFrames (d : Demand) (e : Extt) (off len : Nat) : Demand :=
  (List.range ((off + len - 1) / 2 ^ 21 + 1 - off / 2 ^ 21)).foldl (fun (d : Demand) i =>
    let q := d.st.parcelOf e ((off / 2 ^ 21 + i) * 2 ^ 21)
    { d.frame e q.1 q.2 d.st.tick with holdW := d.holdW ++ [q.1] }) d

/-- Parcels of a byte range, held to the PCT (R214). -/
def State.rangeParcels (s : State) (e : Extt) (off len : Nat) : List Nat :=
  (List.range ((off + len - 1) / 2 ^ 21 + 1 - off / 2 ^ 21)).map fun i => (s.parcelOf e ((off / 2 ^ 21 + i) * 2 ^ 21)).1

/-- The ACCEPTED packet of a fabric Bulk request (R307). -/
def State.sendAccepted (s : State) (p : Nat) (k : Packet) (pct : Nat) : State :=
  s.sendReply p (mkPacket k.src s.devEid k.ctxid 0x22 s.rspVc true k.tag (respField stAccepted s.tick 0 true)
    (wordsBytes [BitVec.ofNat 64 s.tick, BitVec.ofNat 64 pct]) [])

/-- HBM charges of the reading side of a chunk: ceil of its lines over 64 on each pseudo-channel of each stack that it touches (R92). -/
def State.readSide (s : State) (e : Extt) (off g u : Nat) : List Need :=
  ((s.rangeStacks e off g).map (·.1)).dedup.flatMap fun st => stackSlots st u g

/-- The chunks of a fabric Bulk request (R74, R92, R306). -/
def State.bulkPlan (s : State) (port v ctx : Nat) (c : Ctxt) (e : Extt) (so : Nat) (dst : Option (Extt × Nat)) (rate len : Nat) : ChunkPlan := {
  total := len
  cands := fun off => bulkSizes rate so len off dst.isNone
  tile := fun off => (s.parcelOf e (so + off)).2 / 6
  need := fun room off g _ u =>
    let src := s.readSide e (so + off) g u
    match dst with
    | some (f, o) =>
      let st := (s.parcelOf e (so + off)).2
      (src ++ s.writeSide f (o + off) g u ++ ((s.rangeStacks f (o + off) g).flatMap fun q => linkNeed (st / 6) (q.1 / 6) u q.2), [], [])
    | none =>
      let src := src ++ ((s.rangeStacks e (so + off) g).flatMap fun q => linkNeed (q.1 / 6) (port / 8) u q.2)
      let blocks := (packetSizes (256 * g)).map blocksOf
      match State.placeIn room s port (tadd u 1) v blocks 0 [] with
      | none => (src, [], [⟨.seg port 0, tadd u 1, blocks.sum, none⟩])
      | some got => (src ++ s.egressNeeds port (tadd u 1) v ctx c got, got.map (·.1), []) }

/-- Admit a fabric Bulk request whose format is right. -/
def State.admitBulk (s : State) (p : Nat) (k : Packet) (c : Ctxt) (copy : Bool) (x so : Nat) (dst : Option (Nat × Nat)) (len : Nat) : Decided :=
  let h := p / 8
  let e := s.extt s.banks x
  match s.portTo k.src (tadd s.tick 3) with
  | none => .inl (s.refusePkt h p k 6)
  | some port =>
    let v := bits (c.sub.headD 0) 2 0
    let d : Demand := { st := s }
    let d := match dst with
      | some (y, o) => d.bulkFrames (s.extt s.banks y) o len
      | none => d
    let plan := s.bulkPlan port v k.ctxid.toNat c e so (dst.map fun y => (s.extt s.banks y.1, y.2)) (s.bulkRate h) len
    match s.planChunks h plan 4094 (tadd s.tick 2) 0 with
    | .inr why => .inr ⟨s, d.unplanned why, s.mkReq k (some p) h .bulk none [] [] [] (.bulkCopy 0 0 0), id⟩
    | .inl pl =>
      let pct := tadd ((pl.chunks.getLast?.map (·.tick)).getD s.tick) 1
      let d := d.add pl.needs
      let (d, segs) := if copy then
          match s.placeEgress h port pct v [blocksOf 8] 0 [] with
          | none => (d.refuse 6, [])
          | some got => (d.add (s.egressNeeds port pct v k.ctxid.toNat c got), got.map (·.1))
        else (d, pl.segs)
      let d := { d with hold := d.hold ++ s.rangeParcels e so len }
      let xs := x :: (dst.toList.map (·.1))
      let work := match dst with
        | some (y, o) => Work.bulkCopy (ptrTo x so) (ptrTo y o) len
        | none => Work.bulkRead (ptrTo x so) len [] [] 0
      let mk := s.mkReq k (some p) h .bulk (some port) segs xs [] work
      .inr ⟨s, d, fun rid => { mk rid with pct := pct, chunks := pl.chunks }, fun s => s.sendAccepted p k pct⟩

/-- Decide BULK_READ or BULK_COPY (R306). -/
def State.decideBulk (s : State) (p : Nat) (copy : Bool) (q : Queued) : Decided :=
  let k := q.pkt
  let nw := if copy then 3 else 2
  let lw := k.word (nw - 1)
  let len := bits lw 35 0
  let ps := (List.range (nw - 1)).map fun i => ptrOf (k.word i)
  let ns := ps.filterMap fun x => match x with
    | .at' e o => some (⟨e, o⟩ : Named)
    | _ => none
  State.whenFetched (p / 8) p k (s.takeCopies (p / 8) (s.tablesOf k.ctxid.toNat (some k.src.toNat) ns)) fun s =>
    let c := s.ctxt s.banks k.ctxid.toNat
    let st := s.bulkEnd c (s.check1 k) ps len
    let aligned := ps.all fun x => match x with
      | .at' _ o => decide (o % 256 = 0)
      | _ => true
    if st = some stAccess then .inl (s.answer p k stAccess)
    else if k.payload.length ≠ 8 * nw ∨ len = 0 ∨ len % 256 ≠ 0 ∨ bits lw 63 36 ≠ 0 ∨ aligned = false then .inl (s.answer p k stBadFormat)
    else
      match ps with
      | [.at' x so] => match st with
        | some st => .inl (s.answer p k st)
        | none => s.admitBulk p k c false x so none len
      | [.at' x so, .at' y o] => match st with
        | some st => .inl (s.answer p k st)
        | none => s.admitBulk p k c true x so (some (y, o)) len
      | _ => .inl (s.answer p k stInvalid)

/-! ### Host-address descriptors (R188 to R191, R76) -/

/-- A host-address descriptor as the driver posted it. -/
structure HostDesc where
  ring : Nat
  tag : BitVec 32
  toPool : Bool
  ctx : Nat
  hva : Word
  ptr : Word
  len : Nat
  /-- A reserved field of the entry is nonzero. -/
  rsv : Bool := false
deriving DecidableEq, Repr

/-- Whether [a, a + n) lies within one canonical half (R190); the first address that does not, otherwise. Log 40. -/
def canonFail (mode a n : Nat) : Option Nat :=
  let hlf := canonHalf mode
  if a < hlf then (if a + n ≤ hlf then none else some hlf)
  else if 2 ^ 64 - hlf ≤ a then (if a + n ≤ 2 ^ 64 then none else some 0)
  else some a

/-- Pages of [a, a + n). -/
def pagesOf (a n : Nat) : Nat := if n = 0 then 0 else (a + n - 1) / 4096 + 1 - a / 4096

/-- The one chunk that R191 cuts at `off`: its lines and its walk charge. -/
def State.hostCut (s : State) (h hva po start len off : Nat) : List (Nat × Nat) :=
  let w := s.capacity (.walk h) (tadd s.tick 2)
  let extra := if off = start ∧ pagesOf (hva + start) (len - start) = cdiv (len - start) 4096 then 1 else 0
  let byWalk := ((hva + off) / 4096 + (w - extra)) * 4096 - hva
  let byParcel := off + (2 ^ 21 - (po + off) % 2 ^ 21)
  let stop := min (min (off + 256 * s.bulkRate h) byWalk) (min byParcel len)
  if stop ≤ off then [] else [((stop - off) / 256, pagesOf (hva + off) (stop - off) + extra)]

/-- The chunks of a host-address descriptor from `start` on: each on the tile that owns the home stack of its own pool parcel, whose walker
translates it. Any page of the host side may lie on any stack, so a chunk's bytes are charged on the link to or from every other tile (R17,
R191, R192; log 38). -/
def State.hostPlan (s : State) (h : Nat) (d : HostDesc) (e : Extt) (po start : Nat) : ChunkPlan := {
  total := d.len
  cands := fun off => s.hostCut h d.hva.toNat po start d.len off
  tile := fun off => (s.parcelOf e (po + off)).2 / 6
  need := fun _ off g pages u =>
    let st := (s.parcelOf e (po + off)).2
    let t := st / 6
    let host := (List.range 24).flatMap fun i => stackSlots i u g
    let pool := if d.toPool then s.writeSide e (po + off) g u else stackSlots st u g
    let cross := (List.range 4).flatMap fun o => if d.toPool then linkNeed o t u (256 * g) else linkNeed t o u (256 * g)
    (host ++ pool ++ cross ++ [⟨.walk t, tsub u 1, pages, none⟩], [], []) }

/-- How an attempt to take a host-address descriptor ends. -/
inductive HostEnd where
  | ends (status fault : Nat) (va : Nat)
  | refused (reason : Nat)
  | accepted
deriving DecidableEq, Repr

/-- The ends of R190, in order. -/
def State.hostEnd (s : State) (d : HostDesc) : Option (Nat × Nat × Nat) :=
  let c := s.ctxt s.banks d.ctx
  let p := ptrOf d.ptr
  let one := c.valid && c.host
  if !one || !(decide (c.xlt = 1 ∨ c.xlt = 2) && c.may 7 && c.may 5) then some (stAccess, 0, 0)
  else
    let st := s.bulkEnd c one [p] d.len
    if st = some stAccess then some (stAccess, 0, 0)
    else if d.hva.toNat % 256 ≠ 0 ∨ bits d.ptr 43 0 % 256 ≠ 0 ∨ d.len = 0 ∨ d.len % 256 ≠ 0 ∨ d.rsv = true then some (stBadFormat, 0, 0)
    else match canonFail c.xlt d.hva.toNat d.len with
      | some a => some (stFault, 7, a)
      | none => match p with
        | .at' _ _ => st.map fun x => (x, 0, 0)
        | _ => some (stInvalid, 0, 0)

/-- The tile whose Headgate takes a host-address descriptor from `start` on: the owner of the home stack of its first pool parcel there
(R191). Log 15. -/
def State.hostTile (s : State) (d : HostDesc) (start : Nat) : Nat :=
  match ptrOf d.ptr with
  | .at' x off => (s.parcelOf (s.extt s.banks x) (off + start)).2 / 6
  | _ => 0

/-- The table entries that a host-address descriptor's index stage reads. -/
def State.hostTables (s : State) (d : HostDesc) (start : Nat) : List (Nat × Bool) :=
  s.tablesOf d.ctx none (match ptrOf d.ptr with
    | .at' x off => [⟨x, off + start⟩, ⟨x, off + d.len - 1⟩]
    | _ => [])

/-- Take a host-address descriptor from `start` on in the capacity of tile `h`, once nothing ends it (R74, R76, R90, R191). -/
def State.placeHost (s : State) (h : Nat) (d : HostDesc) (x po start : Nat) : HostEnd × State :=
  let no := fun (m : Demand) =>
    let rs := m.reasons.foldl min 0xF
    (HostEnd.refused rs, (s.refusedDemand h m.lost m.lost rs).countRefusal h 0 (BitVec.ofNat 16 d.ctx) rs)
  let e := s.extt s.banks x
  let m : Demand := { st := s }
  let m := if d.toPool then m.bulkFrames e (po + start) (d.len - start) else m
  match s.planChunks h (s.hostPlan h d e po start) 4093 (tadd s.tick 3) start with
  | .inr why => no (m.unplanned why)
  | .inl pl =>
    if m.reasons ≠ [] then no m
    else
      let pct := tadd ((pl.chunks.getLast?.map (·.tick)).getD s.tick) 1
      let s := m.st
      let r : Req := {
        rid := s.adm.nextRid, ctx := BitVec.ofNat 16 d.ctx, src := 0, tag := 0, port := none, tile := h, cls := .bulk, admitTick := s.tick,
        pct := pct, egress := none, segs := [], banks := s.banks, epoch := BitVec.ofNat 32 (s.fld 0x5200 63 32), exts := [x],
        domain := none, misses := [], chunks := pl.chunks, moved := start,
        work := .hostBulk d.ring d.tag d.toPool d.hva d.ptr d.len }
      let s := s.reserve h r.rid (mergeNeeds [] pl.needs)
      let s := { s with adm := { s.adm with nextRid := s.adm.nextRid + 1, reqs := s.adm.reqs ++ [r] } }
      let s := (s.rangeParcels e (po + start) (d.len - start)).dedup.foldl (fun s q => s.holdParcel d.toPool q pct) s
      let s := s.bump .hdg h 0x110
      (.accepted, s.postCpl (ringOf d.ring) {
        accepted := true, status := BitVec.ofNat 8 stAccepted, opcode := 0x50, tag := d.tag,
        result0 := BitVec.ofNat 64 s.tick, result1 := BitVec.ofNat 64 pct })

/-- Try to take a host-address descriptor from `start` on: its tables, the ends of R190, the stopped Headgate, then its capacity. -/
def State.admitHost (s : State) (d : HostDesc) (start : Nat) : HostEnd × State :=
  let h := s.hostTile d start
  let no := fun (s : State) (rs : Nat) => (HostEnd.refused rs, s.countRefusal h 0 (BitVec.ofNat 16 d.ctx) rs)
  let f := s.takeCopies h (s.hostTables d start)
  match f.1 with
  | .late => no f.2 0xC
  | .bad a => (.ends stInternal 0 0, f.2.raiseTableCrc a)
  | .ok =>
    let s := f.2
    match s.hostEnd d with
    | some (st, g, va) => (.ends st g va, s)
    | none =>
      if s.stopped || !s.headgateRuns then no s 0xE
      else
        match ptrOf d.ptr with
        | .at' x po => s.placeHost h d x po start
        | _ => (.ends stInvalid 0 0, s)

/-- Take a HOST_BULK from the ring (R189, R190, R391). -/
def State.takeHostBulk (s : State) (d : HostDesc) : State :=
  match s.admitHost d 0 with
  | (.ends st f va, s) => s.endBulk d.ring d.tag st 0 f (BitVec.ofNat 64 va) 0
  | (.refused rs, s) =>
    let s := { s with fw := { s.fw with journal := s.fw.journal.filter fun j => !(decide (j.ring = d.ring ∧ j.tag = d.tag ∧ j.opcode = 0x50)) } }
    s.postCpl (ringOf d.ring)
      { status := BitVec.ofNat 8 stRefused, opcode := 0x50, reason := BitVec.ofNat 4 rs, tag := d.tag,
        result0 := BitVec.ofNat 64 s.tick, result1 := BitVec.ofNat 64 (s.retryOf rs) }
  | (.accepted, s) => s

/-- The descriptor of a host-address request. -/
def Req.desc (r : Req) : Option HostDesc :=
  match r.work with
  | .hostBulk ring tag tp hva ptr len => some ⟨ring, tag, tp, r.ctx.toNat, hva, ptr, len, false⟩
  | _ => none

/-- Try a parked descriptor again (R76). -/
def State.readmitOne (s : State) (q : Parked) : State :=
  match q.req.desc with
  | some d =>
    let rid := q.req.rid
    let gone := fun (s : State) => { s with xlt := { s.xlt with parked := s.xlt.parked.filter fun x => decide (x.req.rid ≠ rid) } }
    match s.admitHost d q.resume with
    | (.ends st f va, s) => (gone s).endBulk d.ring d.tag st q.resume f (BitVec.ofNat 64 va) 0
    | (.refused 0xF, s) => (gone s).endBulk d.ring d.tag stRefused q.resume 0 0 0xF
    | (.refused rs, s) =>
      { s with xlt := { s.xlt with parked := s.xlt.parked.map fun x => if x.req.rid = rid then { x with retry := some (s.retryOf rs) } else x } }
    | (.accepted, s) => gone s
  | none => s

/-- Parked descriptors whose retry tick has come, the tiles in the order of R101. -/
def State.readmitOrder (s : State) : List Parked :=
  let rank := fun (q : Parked) => (q.tile + 4 - s.tick % 4) % 4
  (s.xlt.parked.filter fun q => match q.retry with
    | some t => !later t s.tick
    | none => false).mergeSort fun a b => decide (rank a ≤ rank b)

/-- BULK_READMIT: a parked descriptor whose group has resumed, or whose retry tick has come, and before it those that stand ahead of it in the
rotating order of the tiles (R76, R101, R206; log 135). -/
def State.readmit (s : State) (rid : Nat) : State :=
  let l := s.readmitOrder
  (l.take ((l.findIdx fun q => decide (q.req.rid = rid)) + 1)).foldl (fun s q =>
    if l.any (fun q => decide (q.req.rid = rid)) then s.readmitOne q else s) s

/-! ### The walk (R193 to R198) -/

/-- How a walk ends. -/
inductive WalkEnd where
  | ok (pa : Nat)
  | fault (type level : Nat) (pte : Word)
  | poison
deriving DecidableEq, Repr

/-- Whether an address lies in the host region. -/
def State.inHost (s : State) (a : Nat) : Bool := match s.win a with
  | .host _ => true | _ => false

/-- Whether the bytes from physical address `a` to `b` lie in the host region (R62, R193). -/
def State.hostRange (s : State) (a b : Nat) : Bool :=
  match s.win a, s.win b with
  | .host x, .host y => decide (y + a = x + b)
  | _, _ => false

/-- A leaf at level `i`: its checks in order, and the physical page it gives for `va` (R193); `a` and `n` are the bytes that the chunk moves,
of which those within the leaf must lie in the host region; a napot leaf counts as separate pages (R194). -/
def State.leaf (s : State) (write : Bool) (va i : Nat) (pte : Word) (a n : Nat) : WalkEnd :=
  let ppn := bits pte 53 10
  let napot := bit pte 63
  let size := 2 ^ (12 + 9 * i)
  if i = 4 then .fault 2 i pte
  else if 0 < i ∧ ppn % 2 ^ (9 * i) ≠ 0 then .fault 2 i pte
  else if napot = true ∧ (i ≠ 0 ∨ ppn % 16 ≠ 8) then .fault 2 i pte
  else
    let ppn := if napot then ppn / 16 * 16 + va / 4096 % 16 else ppn
    if write = false ∧ bit pte 1 = false then .fault 3 i pte
    else if write = true ∧ bit pte 2 = false then .fault 3 i pte
    else if bit pte 6 = false then .fault 4 i pte
    else if write = true ∧ bit pte 7 = false then .fault 4 i pte
    else
      let base := va / size * size
      let lo := max a base - base
      let hi := min (a + n) (base + size) - 1 - base
      if s.hostRange (ppn * 4096 + lo) (ppn * 4096 + hi) then .ok ((ppn * 4096 + va % size) / 4096 * 4096) else .fault 5 i pte

/-- Two cached PTEs with the same tags (R198). -/
def PteEntry.same (x y : PteEntry) : Bool := decide (x.tile = y.tile ∧ x.asid = y.asid ∧ x.mode = y.mode ∧ x.level = y.level ∧ x.va = y.va)

/-- Put an entry of one owner into a cache list as its most recently used; beyond `n` entries of that owner its oldest goes (R198). -/
def lruPut {α : Type} (n : Nat) (mine same : α → Bool) (l : List α) (x : α) : List α :=
  let l := l.filter (fun y => !same y) ++ [x]
  if n < (l.filter mine).length then l.eraseIdx (l.findIdx mine) else l

/-- Note a PTE that took part in a translation in its tile's walk cache of 32,768 entries (R198). -/
def State.cachePte (s : State) (e : PteEntry) : State :=
  { s with xlt := { s.xlt with cache := lruPut 32768 (fun y => decide (y.tile = e.tile)) e.same s.xlt.cache e } }

/-- Note a leaf in a core's cache of 2,048 leaf translations (R198). -/
def State.cacheLeaf (s : State) (core : Nat) (e : PteEntry) : State :=
  { s with xlt := { s.xlt with leafs := lruPut 2048 (fun y => decide (y.1 = core)) (fun y => decide (y.1 = core) && e.same y.2) s.xlt.leafs (core, e) } }

/-- The PTE of a level for a virtual address from a tile's walk cache (R198; log 14); one with a parity error is dropped and is a miss
(R426). -/
def State.cachedPte (s : State) (tile asid mode i va : Nat) : Option Word × State :=
  match s.xlt.cache.find? (fun c => decide (c.tile = tile ∧ c.asid = asid ∧ c.mode = mode ∧ c.level = i ∧ c.va = va / 2 ^ (12 + 9 * i))) with
  | some c =>
    if c.bad then (none, { s with xlt := { s.xlt with cache := s.xlt.cache.erase c } }.parityError .xlt tile) else (some c.pte, s)
  | none => (none, s)

/-- Read a PTE at a host-region address in a table-fetch slot (R83, R197): none when it is poisoned or its line fails its check (R255). -/
def State.readPte (s : State) (a : Nat) : Option Word × State :=
  match s.regionPhys a with
  | some p =>
    let r := (s.useSlot 2 (stackOf (p / 256)) (s.pcOf (p / 256))).readRegionLine (p / 256)
    (if r.2.1 then none else some (BitVec.ofNat 64 (leNat ((r.1.drop (p % 256)).take 8))), r.2.2)
  | none => (none, s)

/-- What a walk is for: tile, ASID, mode, access, virtual address, and the bytes that the chunk moves (first, count). -/
structure WalkFor where
  tile : Nat
  asid : Nat
  mode : Nat
  write : Bool
  va : Nat
  a : Nat
  n : Nat
deriving DecidableEq, Repr

/-- One walk from level `i` − 1 down; with `useCache` each PTE comes from the walk cache where that holds it (R198). Answers the end, the PTEs
read and the cache hits. -/
def State.walkFrom (useCache : Bool) (w : WalkFor) : Nat → Nat → List PteEntry → Nat → State → WalkEnd × List PteEntry × Nat × State
  | 0, _, l, n, s => (.fault 1 0 0, l, n, s)
  | i + 1, a, l, n, s =>
    if !s.inHost a then (.fault 6 i 0, l, n, s)
    else
      let hit := if useCache then s.cachedPte w.tile w.asid w.mode i w.va else (none, s)
      let rd := match hit.1 with
        | some x => (some x, hit.2)
        | none => hit.2.readPte (a + w.va / 2 ^ (12 + 9 * i) % 512 * 8)
      let s := rd.2
      match rd.1 with
      | none => (.poison, l, n, s)
      | some pte =>
        let n := if hit.1.isSome then n + 1 else n
        let l := l ++ [⟨w.tile, w.asid, w.mode, i, w.va / 2 ^ (12 + 9 * i), pte, false⟩]
        if bit pte 0 = false then (.fault 1 i pte, l, n, s)
        else if bits pte 60 54 ≠ 0 ∨ (bit pte 2 = true ∧ bit pte 1 = false) then (.fault 2 i pte, l, n, s)
        else if bit pte 1 = false ∧ bit pte 3 = false then
          if i = 0 then (.fault 1 i pte, l, n, s)
          else if bit pte 63 then (.fault 2 i pte, l, n, s)
          else State.walkFrom useCache w i (bits pte 53 10 * 4096) l n s
        else (s.leaf w.write w.va i pte w.a w.n, l, n, s)

/-- A core's cached leaf for a virtual address, when it gives a translation (R198); one with a parity error is dropped and is a miss (R426). -/
def State.leafHit (s : State) (core : Nat) (w : WalkFor) : Option (Nat × PteEntry) × State :=
  match s.xlt.leafs.find? (fun c => decide (c.1 = core ∧ c.2.asid = w.asid ∧ c.2.mode = w.mode ∧ c.2.va = w.va / 2 ^ (12 + 9 * c.2.level))) with
  | some c =>
    if c.2.bad then (none, { s with xlt := { s.xlt with leafs := s.xlt.leafs.erase c } }.parityError .xlt w.tile)
    else match s.leaf w.write w.va c.2.level c.2.pte w.a w.n with
      | .ok pa => (some (pa, c.2), s)
      | _ => (none, s)
  | none => (none, s)

/-- Translate one page for a core: from its leaf cache, through the walk cache, and through memory alone when those give no translation;
PTEs of a success are cached, the last of them in the core's cache as well (R198). -/
def State.walkPage (s : State) (core : Nat) (c : Ctxt) (w : WalkFor) : WalkEnd × State :=
  match s.leafHit core w with
  | (some (pa, e), s) => (.ok pa, s.cacheLeaf core e)
  | (none, s) =>
    let levels := if c.xlt = 1 then 4 else 5
    let first := State.walkFrom true w levels (c.root * 4096) [] 0 s
    let res := match first.1 with
      | .ok _ => first
      | _ => if first.2.2.1 = 0 then first else State.walkFrom false w levels (c.root * 4096) [] 0 first.2.2.2
    let s := ((res.2.2.2).bump .xlt w.tile 0x100).bumpN .xlt w.tile 0x108 res.2.2.1
    match res.1 with
    | .ok pa =>
      let s := res.2.1.foldl State.cachePte s
      (.ok pa, match res.2.1.getLast? with
        | some e => s.cacheLeaf core e
        | none => s)
    | x => (x, s)

/-! ### Chunks (R22, R57, R306) -/

/-- Read a pool line for a Bulk chunk: the line in DRAM, or its flash copy where it is not resident (log 39). -/
def State.bulkLine (s : State) (e : Extt) (ln : Nat) : List Byte × Bool × State :=
  let q := s.lineRef e ln
  match s.lineAt q.1 q.2.1 with
  | some l => if s.resident q.1 q.2.1 then s.readLine q.1 q.2.1 l e.format else (s.flashLine q.1 q.2.1, s.flashPoison q.1 q.2.1, s)
  | none => (s.flashLine q.1 q.2.1, s.flashPoison q.1 q.2.1, s)

/-- The first parcel of a range that fails its key check, as an offset of the range's extent (R57). -/
def State.keyStop (s : State) (r : Req) (e : Extt) (off n : Nat) (write : Bool) : Option Nat :=
  let c := s.ctxt r.banks r.ctx.toNat
  let i0 := off / 2 ^ 21
  ((List.range ((off + n - 1) / 2 ^ 21 + 1 - i0)).find? fun i =>
    let k := s.pkt r.banks (s.parcelOf e ((i0 + i) * 2 ^ 21)).1
    !(k.1 && c.keyOk k.2 write)).map fun i => max off ((i0 + i) * 2 ^ 21)

/-- Count a key failure of a Bulk chunk. -/
def State.bulkKeyFail (s : State) (r : Req) (e : Extt) (x off : Nat) : State :=
  let q := s.lineRef e (off / 256)
  s.keyFail ((s.lineAt q.1 q.2.1).getD (q.2.2 * 2 ^ 28)) r.ctx.toNat (ptrTo x off)

/-- Queue RESULT packets of a Bulk read for the tick after the chunk. -/
def State.sendBulk (s : State) (r : Req) (seq0 : Nat) (status : Nat → Nat) (final : Bool) (parts : List (List Byte × List Bool)) : State :=
  match r.egress with
  | none => s
  | some p =>
    let v := bits ((s.ctxt r.banks r.ctx.toNat).sub.headD 0) 2 0
    parts.zipIdx.foldl (fun s x =>
      let last := final && decide (x.2 + 1 = parts.length)
      let pk := mkPacket r.src s.devEid r.ctx 0x20 s.rspVc true r.tag (respField (status x.2) r.admitTick (seq0 + x.2) last) x.1.1 x.1.2
      s.enqueue p {
        pkt := pk, cls := .admitted, service := v, leaf := r.ctx.toNat, linkVc := pk.vc.toNat % s.portVcs p, use' := tadd s.tick 1,
        seg := r.segs.getD (seq0 + x.2) 0, order := 0, epoch := r.epoch, rid := some r.rid, last := last, entered := 0 }) s

/-- A chunk of a Bulk read. -/
def State.readChunk (s : State) (r : Req) (ch : Chunk) (ptr : Word) (len seq : Nat) : State :=
  match ptrOf ptr with
  | .at' x o =>
    let e := s.extt r.banks x
    let stop := s.keyStop r e (o + ch.off) (256 * ch.lines) false
    let n := match stop with
      | some a => (a - (o + ch.off)) / 256
      | none => ch.lines
    let got := (List.range n).foldl (fun (a : List Byte × List Bool × State) i =>
      let v := a.2.2.bulkLine e ((o + ch.off) / 256 + i)
      (a.1 ++ v.1, a.2.1 ++ [v.2.1], v.2.2)) ([], [], s)
    let s := got.2.2
    let parts := if n = 0 then [] else cutPackets got.1 got.2.1
    let fin := decide (len ≤ ch.off + 256 * ch.lines) && stop.isNone
    let s := s.sendBulk r seq (fun i => if ((parts.getD i ([], [])).2).any id then stPoison else stOk) fin parts
    let moved := ch.off + 256 * n
    let r' := { r with
      moved := moved
      work := .bulkRead ptr len [] [] (seq + parts.length)
      chunks := if stop.isNone then r.chunks.map (fun x => if x = ch then { x with done := true } else x) else r.chunks.filter (·.done) }
    let s := s.setReq r'
    match stop with
    | none => s
    | some a => (s.bulkKeyFail r e x a).sendBulk r (seq + parts.length) (fun _ => stAccess) true [(leBytes 8 moved, [false])]
  | _ => s

/-- A chunk of a Bulk copy. -/
def State.copyChunk (s : State) (r : Req) (ch : Chunk) (src dst : Word) : State :=
  match ptrOf src, ptrOf dst with
  | .at' x o, .at' y q =>
    let e := s.extt r.banks x
    let f := s.extt r.banks y
    let n := 256 * ch.lines
    let a := s.keyStop r e (o + ch.off) n false
    let b := s.keyStop r f (q + ch.off) n true
    let stop := min ((a.map fun v => v - o).getD (ch.off + n)) ((b.map fun v => v - q).getD (ch.off + n))
    let lines := (stop - ch.off) / 256
    let s := (List.range lines).foldl (fun s i =>
      let v := s.bulkLine e ((o + ch.off) / 256 + i)
      let t := v.2.2.lineRef f ((q + ch.off) / 256 + i)
      v.2.2.writePool t.1 t.2.1 0 f.format v.1 v.2.1) s
    let s := match a, b with
      | some v, _ => if v - o = stop then s.bulkKeyFail r e x v else s
      | _, _ => s
    let s := match b with
      | some v => if v - q = stop ∧ (a.map fun v => v - o) ≠ some stop then s.bulkKeyFail r f y v else s
      | none => s
    s.setReq { r with
      moved := ch.off + 256 * lines
      chunks := if lines = ch.lines then r.chunks.map (fun x => if x = ch then { x with done := true } else x) else r.chunks.filter (·.done) }
  | _, _ => s

/-- Host-region bytes of line `i` of a walked chunk. -/
def Chunk.hostAddr (ch : Chunk) (hva i : Nat) : Nat :=
  let a := hva + ch.off + 256 * i
  ch.pas.getD (a / 4096 - (hva + ch.off) / 4096) 0 + a % 4096

/-- A chunk of a host-address descriptor, through the translations of the tick before (R192). -/
def State.hostChunk (s : State) (r : Req) (d : HostDesc) (ch : Chunk) : State :=
  match ptrOf d.ptr with
  | .at' x o =>
    let e := s.extt r.banks x
    if !ch.walked then s
    else
      match s.keyStop r e (o + ch.off) (256 * ch.lines) d.toPool with
      | some a =>
        let s := s.bulkKeyFail r e x a
        ((s.releaseAfter r.rid).dropReq r.rid).endBulk d.ring d.tag stAccess ch.off 0 0 0
      | none =>
        let s := (List.range ch.lines).foldl (fun s i =>
          match s.regionPhys (ch.hostAddr d.hva.toNat i) with
          | none => s
          | some p =>
            let ln := (o + ch.off) / 256 + i
            if d.toPool then
              let v := s.readRegionLine (p / 256)
              let t := v.2.2.lineRef e ln
              v.2.2.writePool t.1 t.2.1 0 e.format v.1 v.2.1
            else
              let v := s.bulkLine e ln
              v.2.2.writeLine p v.1 v.2.1 false 0 false none) s
        s.setReq { r with
          moved := ch.off + 256 * ch.lines
          chunks := r.chunks.map fun x => if x = ch then { x with done := true } else x }
  | _ => s

/-- BULK_CHUNK: the chunk of this tick (R74). -/
def State.bulkChunk (s : State) (r : Req) : State :=
  match r.chunks.find? (fun c => decide (c.tick = s.tick) && !c.done) with
  | none => s
  | some ch =>
    match r.work with
    | .bulkRead ptr len _ _ seq => s.readChunk r ch ptr len seq
    | .bulkCopy src dst _ => s.copyChunk r ch src dst
    | .hostBulk ring tag tp hva ptr len => s.hostChunk r ⟨ring, tag, tp, r.ctx.toNat, hva, ptr, len, false⟩ ch
    | _ => s

/-! ### Faults (R200, R201, R204, R205) -/

/-- Open groups of a tile. -/
def State.groupsOn (s : State) (t : Nat) : List FaultGroup := s.xlt.groups.filter fun g => decide (g.tile = t)

/-- Whether the fault ring is full, records still to be written at the end of the tick counted: HEAD and TAIL have equal indices and
different wrap bits (R203). -/
def State.fqFull (s : State) (t : Nat) : Bool :=
  let head := (s.fld (rOff .xlt t 0x208) 12 0 + ((s.groupsOn t).filter fun g => !g.written).length) % 8192
  let tail := s.fld (rOff .xlt t 0x210) 12 0
  decide (head % 4096 = tail % 4096 ∧ head ≠ tail)

/-- The index of a new group: a free choice among the free ones (log 3), else the lowest. -/
def State.newGroup (s : State) (t : Nat) : Nat :=
  let used := (s.groupsOn t).map (·.index)
  let prop := Config.freeNat s.fresh % 4096
  if used.contains prop then ((List.range 4096).find? fun i => !used.contains i).getD 0 else prop

/-- The ending of R205; the OVERFLOW that it sets is reported by FQ_OVERFLOW (R392). -/
def State.dropFault (s : State) (t : Nat) (d : HostDesc) (type va resume : Nat) : State :=
  let was := bit (s.reg (rOff .xlt t 0x218)) 0
  let s := ((s.setFld (rOff .xlt t 0x218) 0 0 1).raise .xlt t 1).bump .xlt t 0x120
  let s := s.endBulk d.ring d.tag stDropped resume type (BitVec.ofNat 64 va) 0
  if was then s
  else s.postEvent ⟨BitVec.ofNat 8 (Blk.code .xlt), BitVec.ofNat 8 t, 0x0050, BitVec.ofNat 64 t, s.reg (rOff .xlt t 0x120)⟩

/-- Park a descriptor that faults on tile `t`, which runs its chunk: join the open group of its key or open one; it ends with FAULT_DROPPED when it can do
neither (R201, R204, R205). -/
def State.parkFault (s : State) (t : Nat) (r : Req) (c : Ctxt) (d : HostDesc) (resume va type level : Nat) (pte : Word) : State :=
  let write := !d.toPool
  let s := (s.releaseAfter r.rid).dropReq r.rid
  let room := decide ((s.xlt.parked.filter fun q => decide (q.tile = t)).length < 8192)
  let old := s.xlt.groups.find? fun g => decide (g.tile = t ∧ g.asid.toNat = c.asid ∧ g.page = va / 4096 ∧ g.write = write)
  let park := fun (s : State) (i : Nat) =>
    { s with xlt := { s.xlt with parked := s.xlt.parked ++ [⟨{ r with moved := resume }, t, resume, some i, none⟩] } }
  match old with
  | some g =>
    if room then
      let gs := s.xlt.groups.map fun x => if x = g then { x with waiters := if x.written then x.waiters else x.waiters + 1 } else x
      (park { s with xlt := { s.xlt with groups := gs } } g.index).bump .xlt t 0x118
    else s.dropFault t d type va resume
  | none =>
    if room && decide ((s.groupsOn t).length < 4096) && !s.fqFull t then
      let i := s.newGroup t
      let uses := sget (fun _ => 0) s.xlt.gens (t * 4096 + i)
      let g : FaultGroup := {
        tile := t, index := i, gen := BitVec.ofNat 4 uses, asid := BitVec.ofNat 16 c.asid, page := va / 4096, write := write,
        type := BitVec.ofNat 4 type, level := level, ctx := r.ctx, pte := pte, opened := s.tick, waiters := 1, written := false, closing := none }
      park { s with fresh := s.fresh + 1, xlt := { s.xlt with groups := s.xlt.groups ++ [g], gens := sset (fun _ => 0) s.xlt.gens (t * 4096 + i) (uses + 1) } } i
    else s.dropFault t d type va resume

/-- A walk that ends the descriptor at once (R200). -/
def State.finalFault (s : State) (t : Nat) (r : Req) (d : HostDesc) (status type va resume : Nat) : State :=
  let s := ((s.releaseAfter r.rid).dropReq r.rid).bump .xlt t 0x128
  s.endBulk d.ring d.tag status resume type (if type = 0 then 0 else BitVec.ofNat 64 va) 0

/-- Replace a chunk of a request. -/
def State.setChunk (s : State) (r : Req) (c c' : Chunk) : State :=
  s.setReq { r with chunks := r.chunks.map fun x => if x = c then c' else x }

/-- Walk the pages of a chunk, in rising address: their physical pages, or the first that does not translate. Log 16. -/
def State.walkChunk (s : State) (tile core : Nat) (c : Ctxt) (write : Bool) (a n : Nat) : List Nat × Option (Nat × WalkEnd) × State :=
  (List.range (pagesOf a n)).foldl (fun (r : List Nat × Option (Nat × WalkEnd) × State) i =>
    match r with
    | (ps, some f, s) => (ps, some f, s)
    | (ps, none, s) =>
      let va := max a ((a / 4096 + i) * 4096)
      match s.walkPage core c ⟨tile, c.asid, c.xlt, write, va, a, n⟩ with
      | (.ok pa, s) => (ps ++ [pa], none, s)
      | (f, s) => (ps, some (va, f), s)) ([], none, s)

/-- End or suspend a descriptor whose walk for the next tick's chunk does not translate, after the chunk of this tick has moved its data
(R200, R201). -/
def State.walkFault (s : State) (r : Req) (c : Ctxt) (d : HostDesc) (ch : Chunk) (va : Nat) (f : WalkEnd) : State :=
  let s := s.bulkChunk r
  match s.reqOf r.rid, f with
  | some r, .fault ty lv pte =>
    if ty = 5 ∨ ty = 6 then s.finalFault ch.tile r d stFault ty va ch.off else s.parkFault ch.tile r c d ch.off (va / 4096 * 4096) ty lv pte
  | some r, .poison => s.finalFault ch.tile r d stConsumed 0 va ch.off
  | _, _ => s

/-- BULK_WALK: the walker of the tile that runs the chunk of the next tick translates its pages (R192, R200, R201). -/
def State.bulkWalk (s : State) (r : Req) : State :=
  match r.desc, r.chunks.find? (fun c => decide (c.tick = tadd s.tick 1) && !c.walked) with
  | some d, some ch =>
    let c := s.ctxt r.banks r.ctx.toNat
    match s.walkChunk ch.tile ch.core c (!d.toPool) (d.hva.toNat + ch.off) (256 * ch.lines) with
    | (pas, none, s) => s.setChunk r ch { ch with walked := true, pas := pas }
    | (_, some (va, f), s) => s.walkFault r c d ch va f
  | _, _ => s

/-- FAULT_RECORD_WRITE: records of the groups that opened in this tick (R202, R203). -/
def State.writeFaults (s : State) (t : Nat) : State :=
  ((s.groupsOn t).filter fun g => !g.written).foldl (fun s g =>
    let head := s.fld (rOff .xlt t 0x208) 12 0
    let w0 := place 0 0 (b2n (decide (head < 4096))) ||| place 7 4 g.type.toNat ||| place 8 8 (b2n g.write) ||| place 11 9 g.level |||
      place 31 16 g.ctx.toNat ||| place 47 32 g.waiters ||| place 63 48 g.asid.toNat
    let w3 := place 47 0 g.opened ||| place 59 48 g.index ||| place 63 60 g.gen.toNat
    let s := s.writeWords (s.fld (rOff .xlt t 0x200) 51 12 * 4096 + head % 4096 * 32) [w0, place 63 12 g.page, g.pte, w3]
    let s := s.setFld (rOff .xlt t 0x208) 12 0 ((head + 1) % 8192)
    let s := (s.bump .xlt t 0x110).raise .xlt t 0
    { s with xlt := { s.xlt with groups := s.xlt.groups.map fun x => if x = g then { x with written := true } else x } }) s

/-- GROUP_CLOSE: groups whose resume or abort was taken in an earlier tick close (R206). -/
def State.closeGroups (s : State) (t : Nat) : State :=
  let due := (s.groupsOn t).filter fun g => match g.closing with
    | some (_, i) => later s.tick i
    | none => false
  let s := due.foldl (fun s g =>
    let abort := match g.closing with
      | some (a, _) => a
      | none => false
    let mine := fun (q : Parked) => decide (q.tile = t ∧ q.group = some g.index)
    let s := { s with xlt := { s.xlt with groups := s.xlt.groups.erase g } }
    if abort then
      let l := s.xlt.parked.filter mine
      let s := { s with xlt := { s.xlt with parked := s.xlt.parked.filter fun q => !mine q } }
      (l.foldl (fun s q => match q.req.desc with
        | some d => s.endBulk d.ring d.tag stFault q.resume g.type.toNat (BitVec.ofNat 64 (g.page * 4096)) 0
        | none => s) s).bump .xlt t 0x138
    else
      let ps := s.xlt.parked.map fun q => if mine q then { q with group := none, retry := some s.tick } else q
      { s with xlt := { s.xlt with parked := ps } }.bump .xlt t 0x130) s
  s.finishDue [0x46]

/-- BULK_COMPLETION: in the PCT tick (R74, R306, R391). -/
def State.bulkCompletion (s : State) (r : Req) : State :=
  if r.pct ≠ s.tick then s
  else
    match r.work with
    | .bulkCopy _ _ len =>
      if s.sentAlready r then s
      else s.sendResult r 0x20 (if r.moved = len then stOk else stAccess) [(leBytes 8 r.moved, [false])]
    | .hostBulk ring tag _ _ _ len =>
      if r.moved = len then (s.dropReq r.rid).endBulk ring tag stOk len 0 0 0 else s
    | _ => s

/-- BULK_READ (R306). -/
def execBulkRead (port : Fin 32) (s : State) : Host.Outcome State Fault Refusal :=
  .next (s.takeHead port 6 fun q s => (s.decideBulk port false q).settle (port / 8) port q.pkt)

/-- BULK_COPY (R306). -/
def execBulkCopy (port : Fin 32) (s : State) : Host.Outcome State Fault Refusal :=
  .next (s.takeHead port 7 fun q s => (s.decideBulk port true q).settle (port / 8) port q.pkt)

/-- BULK_WALK (R192). -/
def execBulkWalk (rid : Nat) (s : State) : Host.Outcome State Fault Refusal := .next (s.withReq rid s.bulkWalk)

/-- FAULT_RECORD_WRITE (R203). -/
def execFaultRecordWrite (tile : Fin 4) (s : State) : Host.Outcome State Fault Refusal := .next (s.writeFaults tile)

/-- GROUP_CLOSE (R206). -/
def execGroupClose (tile : Fin 4) (s : State) : Host.Outcome State Fault Refusal := .next (s.closeGroups tile)

/-- BULK_READMIT (R76). -/
def execBulkReadmit (rid : Nat) (s : State) : Host.Outcome State Fault Refusal := .next (s.readmit rid)

/-- BULK_CHUNK (R74). -/
def execBulkChunk (rid : Nat) (s : State) : Host.Outcome State Fault Refusal := .next (s.withReq rid s.bulkChunk)

/-- BULK_COMPLETION (R74). -/
def execBulkCompletion (rid : Nat) (s : State) : Host.Outcome State Fault Refusal := .next (s.withReq rid s.bulkCompletion)

end Sys2Proof.Machine
end

