-- ==== Sys2Proof/Machine/Sched.lean ====
section
/-! DEFINITION. Egress scheduling: what a port sends next (R343, R365 to R370, R454), the blocks of a packet (R301, R302,
R327, R335), and the rows LATE_RESULT_DROP and PACKET_SEND_SELECT. -/

namespace Sys2Proof.Machine

/-! ### Gates and tokens (R366, R367) -/

/-- A packet of `n` blocks of service `v` may begin at network time `t` (R367). -/
def State.gateFits (s : State) (p v n t : Nat) : Bool :=
  decide (v = 7) || (s.sched p).openFor v t (blockNs (s.linkWidth p) n)

/-- The control bucket at network time `t`: it gains F tokens per tick period, 34 at most (R366). -/
def State.fillTokens (s : State) (p t : Nat) : State :=
  let c := s.sched p
  let acc := c.tokenFrac + (t - c.tokenNs) * s.floorAt p s.tick
  let n := c.tokens + acc / s.periodNs
  s.setSched p { c with
    tokens := min 34 n
    tokenFrac := if 34 ≤ n then 0 else acc % s.periodNs
    tokenNs := max t c.tokenNs }

/-! ### Classes (R365) -/

/-- Order within the control service: replies, notices and ECHO_REPLY, beacons, snoops (R366). -/
def EgressPkt.ctrlRank (e : EgressPkt) : Nat :=
  match e.cls with
  | .reply => if e.pkt.opcode = 0x32 then 1 else 0
  | .notice => 1
  | .beacon => 2
  | _ => 3

/-- Link blocks of a queued packet. -/
def EgressPkt.blocks (e : EgressPkt) : Nat := blocksOf e.pkt.payload.length

/-- The class of R365 that holds a queued packet `ns` into the tick: 1 current, 2 control, 3 late, 4 transit; none before its
segment has begun. -/
def State.sendClass (s : State) (p ns : Nat) (e : EgressPkt) : Option Nat :=
  match e.cls with
  | .admitted =>
    if e.use' = s.tick then
      (match (s.segs p s.tick)[e.seg]? with
       | some σ => if σ.start ≤ ns then some 1 else none
       | none => some 1)
    else if later e.use' s.tick then none else some 3
  | .transit => some 4
  | _ => some 2

/-- The peer holds no XOFF for the packet's link VC (R341). -/
def State.noXoff (s : State) (p : Nat) (e : EgressPkt) : Bool := decide (s.fld (rOff .lnk p 0x220) 63 56 / 2 ^ e.linkVc % 2 = 0)

/-- The earlier of two packets of one leaf: tick, segment, decision order, which numbers the requests, and SEQ (R365). -/
def EgressPkt.before (a b : EgressPkt) : Bool :=
  if a.use' ≠ b.use' then later b.use' a.use'
  else if a.seg ≠ b.seg then decide (a.seg < b.seg)
  else if a.rid ≠ b.rid then decide (a.rid.getD 0 < b.rid.getD 0)
  else decide (a.order < b.order)

/-- The head of a list of packets of one leaf. -/
def leafHead (l : List EgressPkt) : Option EgressPkt :=
  l.foldl (fun (a : Option EgressPkt) e => match a with
    | some b => if e.before b then some e else a
    | none => some e) none

/-- Heads of the leaves that hold packets of class `k`, of those that their gate lets begin at network time `t`. -/
def State.heads (s : State) (p ns t k : Nat) : List EgressPkt :=
  let l := (s.sched p).queue.filter fun e => decide (s.sendClass p ns e = some k) && s.noXoff p e
  ((l.map fun e => (e.service, e.leaf)).dedup.filterMap fun f =>
    leafHead (l.filter fun e => decide (e.service = f.1 ∧ e.leaf = f.2))).filter fun e => s.gateFits p e.service e.blocks t

/-! ### Fair queuing (R368 to R370) -/

/-- The later of two 32-bit tags (R368). -/
def tagMax (a b : BitVec 32) : BitVec 32 := if (b - a).toNat < 2 ^ 31 then b else a

/-- Tag `a` is strictly earlier than `b`. -/
def tagLess (a b : BitVec 32) : Bool := decide (a ≠ b ∧ (b - a).toNat < 2 ^ 31)

/-- Weight of a leaf: the subscriber's WEIGHT or TRANSIT_WEIGHT; 0 acts as 1 (R353, R372). -/
def State.leafWeight (s : State) (p leaf : Nat) : Nat :=
  max 1 (if leaf < 65536 then bits ((s.ctxt s.banks leaf).sub.headD 0) 15 8
    else s.fld (rOff .sch (p / 8) (0x280 + p % 8 * 8)) 31 24)

/-- Weight of a service; 0 acts as 1 (R372). -/
def State.svcWeight (s : State) (p v : Nat) : Nat :=
  max 1 (s.fld (rOff .sch (p / 8) (0x240 + p % 8 * 8)) (8 * v + 7) (8 * v))

/-- F_q of a leaf. -/
def Sched.leafTag (c : Sched) (leaf : Nat) : BitVec 32 := sget (fun _ => (0 : BitVec 32)) c.fLeaf leaf

/-- tag(q) for a head of `n` blocks (R368). -/
def State.tagOf (s : State) (p : Nat) (e : EgressPkt) : BitVec 32 :=
  let c := s.sched p
  tagMax (c.leafTag e.leaf) (c.vSvc.getD e.service 0) + BitVec.ofNat 32 (cdiv (e.blocks * 256) (s.leafWeight p e.leaf))

/-- stag(s) for the head chosen of service `e.service` (R368). -/
def State.stagOf (s : State) (p : Nat) (e : EgressPkt) : BitVec 32 :=
  let c := s.sched p
  tagMax (c.gSvc.getD e.service 0) c.vPort + BitVec.ofNat 32 (cdiv (e.blocks * 256) (s.svcWeight p e.service))

/-- The packet with the earliest tag; on a tie the one of least rank (R370). -/
def earliest (tag : EgressPkt → BitVec 32) (rank : EgressPkt → Nat) (l : List EgressPkt) : Option EgressPkt :=
  l.foldl (fun (a : Option EgressPkt) e => match a with
    | some b => if tagLess (tag e) (tag b) || (decide (tag e = tag b) && decide (rank e < rank b)) then some e else a
    | none => some e) none

/-- Rank of a leaf on a tie: CTXID counted from T mod 65,536, transit leaves after (R370). -/
def leafRank (t : Nat) (e : EgressPkt) : Nat := if e.leaf < 65536 then (e.leaf + 65536 - t % 65536) % 65536 else e.leaf

/-- Rank of a service on a tie: counted from T mod 8 (R370). -/
def svcRank (t : Nat) (e : EgressPkt) : Nat := (e.service + 8 - t % 8) % 8

/-- The choice of R368 within a class. -/
def State.fairChoice (s : State) (p : Nat) (hs : List EgressPkt) : Option EgressPkt :=
  let best := (List.range 8).filterMap fun v =>
    earliest (s.tagOf p) (leafRank s.tick) (hs.filter fun e => decide (e.service = v))
  earliest (s.stagOf p) (svcRank s.tick) best

/-- The tags after a packet has been sent. -/
def State.advanceTags (s : State) (p : Nat) (e : EgressPkt) : State :=
  let c := s.sched p
  let t := s.tagOf p e
  let g := s.stagOf p e
  let pad := fun (l : List (BitVec 32)) => l ++ List.replicate (8 - l.length) 0
  s.setSched p { c with
    fLeaf := sset (fun _ => (0 : BitVec 32)) c.fLeaf e.leaf t
    vSvc := (pad c.vSvc).set e.service t
    gSvc := (pad c.gSvc).set e.service g
    vPort := g }

/-! ### Sending a packet -/

/-- Poison bits of block `b` of a packet (R302). -/
def blockPoison (k : Packet) (b : Nat) : BitVec 2 :=
  let n := k.payload.length
  let first := 248 * b - 16
  let last := min (248 * b + 231) (n - 1)
  if n ≤ first then 0
  else
    let j := first / 256
    BitVec.ofNat 2 (b2n (k.segPoison.getLsbD j) + if j < last / 256 then 2 * b2n (k.segPoison.getLsbD (j + 1)) else 0)

/-- The bytes of a packet on the link: header, payload, end CRC (R300, R301). -/
def wireBytes (k : Packet) : List Byte := k.header ++ k.payload ++ leBytes 4 k.endCrc.toNat

/-- Send the blocks of a packet: each takes the next sequence number and waits in the replay buffer (R327, R335). Log 22. -/
def State.sendBlocks (s : State) (p vc ns : Nat) (k : Packet) : State :=
  let bs := wireBytes k
  (List.range (blocksOf k.payload.length)).foldl (fun s b =>
    let l := s.link p
    let blk := s.mkBlock p 1 vc (decide (b = 0)) l.txNext (blockPoison k b) ((bs.drop (248 * b)).take 248)
    let s := s.setLink p { l with txNext := l.txNext + 1, unacked := l.unacked ++ [⟨blk, 0, ns⟩] }
    (s.sendBlock p blk).bump .lnk p 0x110) s

/-- Count a sent packet in the telemetry of its port and link VC (R321). -/
def State.countTx (s : State) (p vc : Nat) (k : Packet) : State :=
  let t := s.tel p vc
  s.setTel p vc { t with txPkts := t.txPkts + 1, txBytes := t.txBytes + BitVec.ofNat 64 (20 + k.payload.length) }

/-- A beacon carries the network time at which its first block leaves (R308). -/
def restamp (e : EgressPkt) (t : Nat) : Packet :=
  if e.cls = .beacon then { e.pkt with payload := leBytes 8 t ++ e.pkt.payload.drop 8 }.sealed else e.pkt

/-- The last response packet of a request begins to leave: the request is complete, but for work that still lands. -/
def State.responseLeft (s : State) (rid : Nat) : State :=
  let rs := s.adm.reqs.filterMap fun r =>
    if r.rid ≠ rid then some r
    else if r.work.lands && !r.work.landed then some { r with work := r.work.silent, egress := none }
    else none
  { s with adm := { s.adm with reqs := rs } }

/-- Counter of a class of R365 (R372). -/
def classCounter (k local' : Nat) : Nat := (if k = 2 then 0x140 else if k = 3 then 0x100 else 0x180) + 8 * local'

/-- A snoop that leaves in the tick after it was queued has waited longer than a tick period or not, which no row tells (R366; log 3). -/
def State.noteWait (s : State) (p : Nat) (e : EgressPkt) : State :=
  if e.cls = .snoop ∧ tadd e.entered 1 = s.tick then
    let (long, s) := s.drawBool
    if long then s.raise .sch (p / 8) 2 else s
  else s

/-- Send queued packet `e` of class `k` at network time `t`. -/
def State.sendPacket (s : State) (p t k : Nat) (e : EgressPkt) : State :=
  let n := e.blocks
  let pkt := restamp e t
  let s := (if k = 2 then s else s.advanceTags p e).noteWait p e
  let c := s.sched p
  let s := s.setSched p { c with
    queue := c.queue.erase e
    tokens := if k = 2 then c.tokens - n else c.tokens
    last := if k = 2 then c.last else some ⟨e.service, t, t + blockNs (s.linkWidth p) n, false⟩ }
  let s := if k = 1 then s else s.bumpN .sch (p / 8) (classCounter k (p % 8)) n
  let s := ((s.sendBlocks p e.linkVc t pkt).emit (.wire p pkt)).countTx p e.linkVc pkt
  let s := if e.cls = .notice then s.bump .rtr (p / 8) 0x190 else s
  match e.rid with
  | some r => if e.last then s.responseLeft r else s
  | none => s

/-- Whether the tenant epoch drop applies to a packet (R454): RESULT, STATUS, ACCEPTED and COH_HOME of the device. -/
def EgressPkt.dated (e : EgressPkt) : Bool :=
  decide (e.cls ≠ .transit) && decide (e.pkt.opcode = 0x20 ∨ e.pkt.opcode = 0x21 ∨ e.pkt.opcode = 0x22 ∨ e.pkt.opcode = 0x24)

/-- Drop the queued packets of an older tenant epoch (R454). Log 26. -/
def State.dropStale (s : State) (p : Nat) : State :=
  let now := s.fld 0x5200 63 32
  let c := s.sched p
  let old := fun (e : EgressPkt) => e.dated && decide (e.epoch.toNat ≠ now)
  let gone := c.queue.filter old
  let s := (s.setSched p { c with queue := c.queue.filter fun e => !old e }).bumpN .mgt 0 0x138 gone.length
  gone.foldl (fun s e => match e.rid with
    | some r => if e.last then s.responseLeft r else s
    | none => s) s

/-- The packet that the port sends next, with its class (R365, R366, R368). -/
def State.nextPacket (s : State) (p ns t : Nat) : Option (Nat × EgressPkt) :=
  let fair := fun k => (s.fairChoice p (s.heads p ns t k)).map fun e => (k, e)
  let ctrl : Option (Nat × EgressPkt) :=
    if (s.sched p).tokens = 0 then none
    else
      let l := (s.sched p).queue.filter fun e => decide (s.sendClass p ns e = some 2) && s.noXoff p e
      (l.foldl (fun (a : Option EgressPkt) e => match a with
        | some b => if e.ctrlRank < b.ctrlRank then some e else a
        | none => some e) none).map fun e => (2, e)
  (fair 1).or (ctrl.or ((fair 3).or (fair 4)))

/-- PACKET_SEND_SELECT: no packet is in progress, `ns` into the current tick; the packet chosen leaves whole. With nothing to
send, or with the replay window full, the port sends an IDLE block (R328, R335). -/
def State.sendSelect (s : State) (p ns : Nat) : State :=
  if s.linkState p ≠ 4 ∨ s.portsStopped = true then s
  else
    let t := s.tick * s.periodNs + ns
    let s := (s.dropStale p).fillTokens p t
    match s.nextPacket p ns t with
    | some (k, e) =>
      if (s.link p).unacked.length + e.blocks ≤ 2048 then s.sendPacket p t k e
      else s.sendBlock p (s.mkBlock p 0 0 false (s.link p).txNext 0 [])
    | none => s.sendBlock p (s.mkBlock p 0 0 false (s.link p).txNext 0 [])

/-! ### Late results (R343) -/

/-- LATE_RESULT_DROP: at the end of the tick, the packets of requests whose PCT has come are removed from the queue of `p` and
the requests discarded with cause LATE (log 41). -/
def State.dropLate (s : State) (p : Nat) : State :=
  let queued := fun (s : State) (r : Req) => (s.sched p).queue.filter fun e => decide (e.rid = some r.rid)
  let late := s.adm.reqs.filter fun r => decide (r.egress = some p) && tle r.pct s.tick && !(queued s r).isEmpty
  late.foldl (fun s r =>
    let c := s.sched p
    let n := (queued s r).length
    let s := s.setSched p { c with queue := c.queue.filter fun e => decide (e.rid ≠ some r.rid) }
    let s := (s.bumpN .lnk p 0x188 n).raise .lnk p 6
    let v : StopEvent := { cause := 8, scope := 2, landed := true, x := r.pct, send := tadd r.pct 1, port := p }
    (s.recordStop v).discardReq v r) s

/-- LATE_RESULT_DROP (R343). -/
def execLateResultDrop (port : Fin 32) (s : State) : Host.Outcome State Fault Refusal := .next (s.dropLate port)

/-- PACKET_SEND_SELECT (R365). -/
def execPacketSendSelect (port : Fin 32) (ns : Nat) (s : State) : Host.Outcome State Fault Refusal := .next (s.sendSelect port ns)

end Sys2Proof.Machine
end

