-- ==== Sys2Proof/Machine/Switching.lean ====
section
/-! DEFINITION. Table switches and ticks of effect: bank switches and base writes (R32 to R35), Sluice lists (R357, R358, R360,
R361), invalidations (R36), POLICY_SET (R387), drains (R58), pins (R218, R238) and the rows of them. -/

namespace Sys2Proof.Machine

/-! ### Answers to register writes (R478, R479) -/

/-- An ERROR response to the host die, counted in ERR_RESP (R468, R477). -/
def State.hostErr (s : State) : State := (s.emit .hostError).bump .uci 0 0x140

/-- The response of a register write: the host die gets one, with an error when the write is refused. -/
def State.respond (s : State) (by' : Agent) (ok : Bool) : State :=
  match by' with
  | .hostDie => if ok then s.emit .hostDone else s.hostErr
  | _ => s

/-- Whether an agent may write a table's CTRL register: firmware every one, the host die those of the tables it fills, the
management controller none (R29, R479, R496). Log 106. -/
def mayCtrl (by' : Agent) (t : Table) : Bool := match by' with
  | .firmware => true
  | .hostDie => t.byDriver
  | .management => false

/-! ### Sluice lists (R357, R358, R360, R361) -/

/-- The 256 entries of a port's list in a bank. -/
def State.sltEntries (s : State) (bank : Bool) (p : Nat) : List (Word × Word) :=
  (List.range 256).map fun i =>
    let ws := s.entryMem .slt bank (256 * p + i)
    (ws.getD 0 0, ws.getD 1 0)

/-- Entries up to the first LAST; none without one. -/
def upToLast : List (Word × Word) → Option (List (Byte × Nat))
  | [] => none
  | (w, _) :: r =>
    let e := (BitVec.ofNat 8 (bits w 7 0), bits w 47 16)
    if bit w 8 then some [e] else (upToLast r).map fun l => e :: l

/-- A port's list as its SCH takes it, and whether it is valid but not well formed (R358). -/
def sluiceOf (es : List (Word × Word)) : SluiceList × Bool :=
  let w1 := (es.headD (0, 0)).2
  if bit w1 63 then
    let phase := bits w1 31 0
    match upToLast es with
    | some l =>
      let c := (l.map (·.2)).sum
      if l.all (fun e => decide (32 ≤ e.2)) && decide (1000 ≤ c ∧ c ≤ 100000000 ∧ phase < c) then
        ({ inForce := true, entries := l, phase := phase }, false)
      else ({}, true)
    | none => ({}, true)
  else ({}, false)

/-- The lists of the inactive bank are checked and loaded, and each port learns its Z for switch tick `S` (R360, R361). -/
def State.loadSluice (s : State) (S : Nat) : State :=
  let bank := !s.activeBank .slt
  (List.range 32).foldl (fun s p =>
    let r := sluiceOf (s.sltEntries bank p)
    let c := s.sched p
    let z := c.list.nextCycle (S * s.periodNs)
    let s := s.setSched p { c with next := some { r.1 with z := some z }, z := some z, sTick := S }
    if r.2 then s.raise .sch (p / 8) 0 else s) s

/-! ### CTRL and BASE writes (R32, R33, R35) -/

/-- A write of `value` to a table's CTRL register. DESIGN CHOICE, log 138: an ignored SWITCH_REQ leaves SWITCH_TICK unchanged. -/
def State.ctrlWrite (s : State) (t : Table) (value : Word) (cycle : Nat) : State :=
  let o := t.group + 0x18
  let s := if bit value 3 then s.setFld o 3 3 0 else s
  if bit value 1 then
    if s.switchPending t || !s.oldFree t then s.busyErr t o value cycle
    else
      let S := s.switchTick t (bits value 63 16)
      let s := s.setReg o (setBits (setBits (s.reg o) 63 16 S) 1 1 1)
      if t = .slt then s.loadSluice S else s
  else if s.switchPending t then s
  else s.setFld o 63 16 (bits value 63 16)

/-- A write of `value` to a bank's BASE register: ignored and captured for the active bank and for a held one. -/
def State.baseWrite (s : State) (t : Table) (bank : Bool) (value : Word) (cycle : Nat) : State :=
  let o := t.group + 8 * b2n bank
  if bank = s.activeBank t ∨ s.switchPending t = true ∨ s.oldFree t = false then s.busyErr t o value cycle
  else s.setReg o (place 51 12 (bits value 51 12))

/-! ### The switch and the end of the old bank (R32, R34) -/

/-- Domains of a DOMT switch take the state that waited for it (R282). -/
def State.applyForming (s : State) (S : Nat) : State :=
  let due := fun (d : Nat) => s.fw.journal.any fun j => decide (j.obj = .dom d ∧ j.wait = .sw .domt (some S))
  (s.coh.doms.filter fun e => due e.1).foldl (fun s e => match e.2.forming with
    | some st =>
      let d := domtOf (s.entryMem .domt (s.activeBank .domt) e.1)
      s.setDom e.1 { e.2 with st := st, forming := none, epoch := BitVec.ofNat 16 d.epoch }
    | none => s) s

/-- Cached copies of a table that were read from its active bank in an earlier use are gone: the bank has been written since (R32). DEDUCED,
log 137. -/
def State.dropBank (s : State) (t : Table) : State :=
  let b := s.activeBank t
  let a := s.bankBase t b
  let lines := fun (ln : Nat) => (List.range (cdiv (t.entries * t.size) 4096)).any fun i => match s.regionPhys (a + 4096 * i) with
    | some q => decide (ln / 16 = q / 4096)
    | none => false
  let s := { s with tier := { s.tier with
    pcache := s.tier.pcache.filter fun e => !(decide (t = Table.prgt ∧ e.1 / 1024 % 2 = b2n b))
    copies := s.tier.copies.filter fun c => !(lines c.line) } }
  { s with fab := { s.fab with routes := s.fab.routes.filter fun e => !(decide (t = Table.rtt ∧ e.1 / 2 ^ 20 % 2 = b2n b)) } }

/-- TABLE_SWITCH: at the boundary of S the other bank becomes active, and the completions that wait for it are posted. -/
def State.switchTable (s : State) (t : Table) : State :=
  let o := t.group + 0x18
  let S := s.fld o 63 16
  if s.switchPending t && tle S s.tick then
    let s := s.setReg o (setBits (setBits (setBits (s.reg o) 0 0 (b2n (!s.activeBank t))) 1 1 0) 2 2 0)
    let kept := s.tier.stale.filter fun e => !(decide (e.table = t) && later e.effect (tadd s.tick 2))
    let s := { s with tier := { s.tier with stale := kept } }.dropBank t
    let s := if t = .domt then s.applyForming S else s
    let s := s.finishAll (fun j => decide (j.wait = .sw t (some S))) stOk
    s.postEvent ⟨BitVec.ofNat 8 (Blk.code .ext), 0, 0x0003, BitVec.ofNat 64 t.num, BitVec.ofNat 64 S⟩
  else s

/-- Whether an admitted request still holds the inactive bank of a table (R34). -/
def State.bankHeld (s : State) (t : Table) : Bool :=
  if t = .slt then (List.range 32).any fun p => (s.sched p).next.isSome
  else s.adm.reqs.any fun r => decide (boundBank r.banks t ≠ s.activeBank t) && !later s.tick r.pct

/-- OLD_FREE_SET: OLD_FREE sets; changes that waited for it go into the next switch, and blocks of the old bank are freed. -/
def State.setOldFree (s : State) (t : Table) : State :=
  if s.oldFree t || s.bankHeld t then s
  else
    let s := s.setFld (t.group + 0x18) 2 2 1
    let s := s.postEvent ⟨BitVec.ofNat 8 (Blk.code .ext), 0, 0x0004, BitVec.ofNat 64 t.num, BitVec.ofNat 64 s.tick⟩
    let due := s.fw.frees.filter fun f => decide (f.table = some t)
    let s := { s with fw := { s.fw with frees := s.fw.frees.filter fun f => !(decide (f.table = some t)) } }
    let s := due.foldl (fun s f => s.freeBlock f.base) s
    s.runDeferred t

/-- SLUICE_PORT_SWITCH: a port whose Z lies in the present tick or before runs its new list (R361). -/
def State.switchPort (s : State) (p : Nat) : State :=
  let c := s.sched p
  match c.next, c.z with
  | some n, some z =>
    if !s.switchPending .slt && decide (z < (s.tick + 1) * s.periodNs) then
      (s.setSched p { c with list := n, next := none, z := none, prev := some (c.list, z) }).raise .sch (p / 8) 1
    else s
  | _, _ => s

/-! ### Invalidations and policies (R36, R387) -/

/-- Whether a physical line holds bytes of entries `i` to `i + n - 1` of a bank. -/
def State.entryLines (s : State) (t : Table) (bank : Bool) (i n ln : Nat) : Bool :=
  let a := s.entryAddr t bank i / 256
  (List.range ((s.entryAddr t bank i + n * t.size + 255) / 256 - a)).any fun k => match s.regionPhys ((a + k) * 256) with
    | some q => decide (ln = q / 256)
    | none => false

/-- INVALIDATE_EFFECT: cached copies of the entries named two ticks ago are gone; the completions of R36, R50 and R173 that wait
for it are posted, and the parcels freed with those entries may be used again (R49). -/
def State.invalidateEffect (s : State) : State :=
  let now := s.tick
  let gone := fun (t : Table) (k : Nat) => s.tier.invals.any fun e => tle e.effect now &&
    decide (e.table = t ∧ e.first ≤ k ∧ k < e.first + e.count)
  let lines := fun (ln : Nat) => s.tier.invals.any fun e => tle e.effect now && [false, true].any fun b => s.entryLines e.table b e.first e.count ln
  let s := { s with fab := { s.fab with routes := s.fab.routes.filter fun e => !(gone .rtt (e.1 % 2 ^ 20)) } }
  let t' := { s.tier with
    pcache := s.tier.pcache.filter fun e => !(gone .prgt (e.1 % 1024))
    copies := s.tier.copies.filter fun c => !(lines c.line)
    stale := (s.tier.stale.filter fun e => later e.effect now && (decide (e.table = .extt) || !(gone e.table e.index))).map fun e =>
      { e with dropped := e.dropped || gone e.table e.index }
    invals := s.tier.invals.filter fun e => later e.effect now
    parcels := s.tier.parcels.filter fun e => e.2.allocated || later e.2.index now }
  { s with tier := t' }.finishDue [0x21, 0x22, 0x23, 0x24, 0x25, 0x26, 0x40]

/-- POLICY_SET_EFFECT: the masked value is written into every named instance (R387). -/
def State.policyEffect (s : State) : State :=
  let due := s.fw.policies.filter fun j => tle j.effect s.tick
  let s := { s with fw := { s.fw with policies := s.fw.policies.filter fun j => later j.effect s.tick } }
  let s := due.foldl (fun s j => j.offsets.foldl (fun s o => s.setReg o ((s.reg o &&& ~~~j.mask) ||| (j.value &&& j.mask))) s) s
  s.finishDue [0x43]

/-! ### Drains (R58, R219) -/

/-- Free the parcels of an extent from index `n` on, and clear their parcel map entries. -/
def State.freeTail (s : State) (x n : Nat) : State :=
  let base := (s.exttNow x).pmap
  ((s.extParcels x).filter fun ip => decide (n ≤ ip.1)).foldl (fun s ip => (s.dropParcel ip.2).setPmap base ip.1 false 0 0) s

/-- Directory frames of a coherent extent whose 32 slots are all free go back to their pools (R278): those that no remaining
parcel's directory entry names. -/
def State.freeDirs (s : State) (x n : Nat) : State :=
  let e := s.exttNow x
  if !e.coherent then s
  else
    let base := bits e.upd5 51 12 * 4096
    let frame := fun i => leNat (s.readRegion (base + 4 * i) 4) % 2 ^ 20
    let all := (s.extParcels x).map fun ip => (ip.1, frame ip.1)
    let kept := (all.filter fun a => decide (a.1 < n)).map (·.2)
    let gone := ((all.filter fun a => decide (n ≤ a.1)).map (·.2)).dedup.filter fun f => !(kept.contains f)
    gone.foldl (fun s f =>
      let h := s.fhtOf f
      if h.dirFrame then
        let s := if h.assured then s.setFht h.mirrorFrame {} else s
        s.setFht f {}
      else s) s

/-- Pinned frames of an extent return to RESIDENT (R219). -/
def State.unpinFrames (s : State) (x : Nat) : State :=
  (s.extParcels x).foldl (fun s ip => match s.frameOf ip.2 with
    | some f => let h := s.fhtOf f; if h.st = .pinned then s.setFht f { h with st := .resident } else s
    | none => s) s

/-- EXTENT_DRAINED: at drain tick D the event is posted and what the drain held is freed; the frames of an extent that has been pinned
again stay pinned (log 49). -/
def State.extentDrained (s : State) (x : Nat) : State :=
  match s.drainOf x with
  | some j =>
    match j.due with
    | some d =>
      if tle d s.tick then
        let s := s.finishAll (fun k => decide (k.obj = .ext x) && (match k.wait with
          | .tick t => tle t s.tick
          | _ => false)) stOk
        let s := { s with tier := { s.tier with drains := s.tier.drains.erase j } }
        let s := match j.kind with
          | .revoke => { s with tier := { s.tier with revDrained := x :: s.tier.revDrained } }
          | .shrink => (s.freeDirs x j.newCount).freeTail x j.newCount
          | .unpin =>
            if (s.exttNow x).pinned || s.tier.pins.any (fun k => decide (k.ext = x)) then s else s.unpinFrames x
        s.postEvent ⟨BitVec.ofNat 8 (Blk.code .ext), 0, 0x0001, BitVec.ofNat 64 x, BitVec.ofNat 64 d⟩
      else s
    | none => s
  | none => s

/-! ### Pins (R218, R238) -/

/-- Home stacks of an extent's parcels, with the mirror stacks of an Assured one. -/
def State.pinStacks (s : State) (x : Nat) : List Nat :=
  let e := s.exttNow x
  let hs := ((s.extParcels x).map fun ip => (s.pmapAt e.pmap ip.1).2.2).dedup
  if e.assured then (hs ++ hs.map mirrorStack).dedup else hs

/-- Frames of a stack that no pinned parcel, its mirror, or a directory holds. -/
def State.unpinnedFrames (s : State) (st : Nat) : Nat :=
  s.stackFrames st - (s.tier.fht.filter fun e => decide (e.1 / 32768 = st) &&
    (decide (e.2.st = .pinned) || e.2.dirFrame ||
      (decide (e.2.st = .mirror) && (decide ((s.fhtOf e.2.mirrorFrame).st = .pinned) || (s.fhtOf e.2.mirrorFrame).dirFrame)))).length

/-- Step 1 of R218: the frames that count as free suffice. -/
def State.pinFits (s : State) (x : Nat) : Bool :=
  let e := s.exttNow x
  let ps := (s.extParcels x).filter fun ip => match s.frameOf ip.2 with
    | some f => decide ((s.fhtOf f).st ≠ .pinned)
    | none => true
  decide (ps.length * (if e.assured then 2 else 1) ≤ ((s.pinStacks x).map s.unpinnedFrames).sum)

/-- Steps 2 and 3 of R218, as far as free frames allow: frames are assigned and PINNED, and every ABSENT line is fetched. -/
def State.pinStep (s : State) (x : Nat) : State :=
  let e := s.exttNow x
  (s.extParcels x).foldl (fun s ip =>
    let s := match s.frameOf ip.2 with
      | some f => let h := s.fhtOf f; if h.st = .pinned then s else s.setFht f { h with st := .pinned }
      | none => (s.giveFrame ip.2 (s.pmapAt e.pmap ip.1).2.2 e.assured s.tick .pinned).getD s
    if s.hasFlash then
      (List.range 512).foldl (fun s g =>
        if (List.range 16).all (fun i => s.resident ip.2 (16 * g + i)) then s else s.startFetch ip.2 g) s
    else s) s

/-- Begin to pin an extent (R218). -/
def State.beginPin (s : State) (x : Nat) (create : Bool) : State :=
  { s with tier := { s.tier with pins := s.tier.pins ++ [({ ext := x, create := create } : PinJob)] } }.pinStep x

/-- No line of the extent is ABSENT. -/
def State.allResident (s : State) (x : Nat) : Bool :=
  (s.extParcels x).all fun ip => match s.frameOf ip.2 with
    | some f => !s.hasFlash || (List.range 8192).all fun l => decide (s.lsmOf (f * 8192 + l) ≠ .absent)
    | none => false

/-- The resident CLEAN lines of an Assured extent on a device with flash, as parcel and line (R254). -/
def State.cleanLines (s : State) (x : Nat) : List (Nat × Nat) :=
  if (s.exttNow x).assured && s.hasFlash then
    (s.extParcels x).flatMap fun ip => match s.frameOf ip.2 with
      | some f => ((List.range 8192).filter fun l => decide (s.lsmOf (f * 8192 + l) = .clean)).map fun l => (ip.2, l)
      | none => []
  else []

/-- Copy one CLEAN line to its mirror when the tick leaves the slots of its read and write unused; whether it is done (R217, R254). A line that
is CLEAN no more needs no copy. Log 86. -/
def State.copyToMirror (s : State) (p l : Nat) : Bool × State :=
  match s.lineAt p l with
  | none => (true, s)
  | some ln =>
    if s.lsmOf ln ≠ .clean then (true, s)
    else
      let mln := (s.fhtOf (ln / 8192)).mirrorFrame * 8192 + l
      if s.spareRoom [ln, mln] then
        let fmt := s.parcelFormat p
        let r := (s.useSpare [ln, mln]).readFor .dredge p l ln fmt
        (true, r.2.2.writeLine (mln * 256) r.1 r.2.1 false (BitVec.ofNat 4 fmt) true (some (poolTag p l)))
      else (false, s)

/-- Copy lines to their mirrors as far as the tick's slots go: the lines that are left. -/
def State.copyClean (s : State) (ls : List (Nat × Nat)) : List (Nat × Nat) × State :=
  ls.foldl (fun (a : List (Nat × Nat) × State) x =>
    let r := a.2.copyToMirror x.1 x.2
    (if r.1 then a.1 else a.1 ++ [x], r.2)) ([], s)

/-- Zero-fill one line of a parcel, and its mirror, when the tick leaves the slots of the writes unused; whether it is done (R254). -/
def State.zeroLine (s : State) (p l : Nat) : Bool × State :=
  match s.lineAt p l with
  | none => (true, s)
  | some ln =>
    let h := s.fhtOf (ln / 8192)
    let ms := if h.assured then [h.mirrorFrame * 8192 + l] else []
    if s.spareRoom (ln :: ms) then
      let fmt := BitVec.ofNat 4 (s.parcelFormat p)
      let put := fun (mirror : Bool) (s : State) (k : Nat) =>
        s.writeLine (k * 256) (List.replicate 256 0) false false fmt mirror (some (poolTag p l))
      (true, ms.foldl (put true) (put false (s.useSpare (ln :: ms)) ln))
    else (false, s)

/-- Every line of an extent's parcels, as parcel and line. -/
def State.extentLines (s : State) (x : Nat) : List (Nat × Nat) :=
  (s.extParcels x).flatMap fun ip => (List.range 8192).map fun l => (ip.2, l)

/-- Complete the commands that wait for a pin or a zero-fill of an extent, in effect from tick `t`. -/
def State.finishPin (s : State) (x t : Nat) : State :=
  (s.fw.journal.filter fun k => decide (k.wait = .pin x)).foldl (fun s k => s.finish k stOk (BitVec.ofNat 64 t)) s

/-- A step of the zero-fill of a new extent on a device without flash: once every line is written, firmware writes VALID and the
EXT_CREATE completes (R50, R254). -/
def State.zeroStep (s : State) (j : PinJob) (others : List PinJob) : State :=
  let o := (j.copy.getD []).foldl (fun (a : List (Nat × Nat) × State) x =>
    let r := a.2.zeroLine x.1 x.2
    (if r.1 then a.1 else a.1 ++ [x], r.2)) ([], s)
  let s := o.2
  if o.1.isEmpty then
    let s := { s with tier := { s.tier with pins := others } }
    (s.putBoth .extt j.ext { s.exttNow j.ext with valid := true }.words).finishPin j.ext s.tick
  else { s with tier := { s.tier with pins := others ++ [{ j with copy := some o.1 }] } }

/-- PIN_DONE: when no line is ABSENT and every CLEAN line of an Assured extent has its copy, firmware sets PINNED and invalidates the entry;
two ticks on, at P, the event bit is set, the command completes and the event follows (R218, R254, R393). Log 77. -/
def State.pinDone (s : State) (x : Nat) : State :=
  match s.tier.pins.find? (fun j => decide (j.ext = x)) with
  | none => s
  | some j =>
    let others := s.tier.pins.filter fun k => decide (k.ext ≠ x)
    if j.zero then s.zeroStep j others else
    match j.p with
    | none =>
      if s.allResident x then
        let o := s.copyClean (j.copy.getD (s.cleanLines x))
        let s := o.2
        if o.1.isEmpty then
          let s := s.changeExtt x { s.exttNow x with pinned := true }
          let order := s.tier.pinOrder.filter (· ≠ x) ++ [x]
          { s with tier := { s.tier with pins := others ++ [{ j with p := some s.effectTick, copy := some [] }], pinOrder := order } }
        else { s with tier := { s.tier with pins := others ++ [{ j with copy := some o.1 }] } }
      else s
    | some p =>
      if tle p s.tick then
        let s := { s with tier := { s.tier with pins := others } }
        let tiles := ((s.pinStacks x).map (· / 6)).dedup
        let s := tiles.foldl (fun s t => s.raise .tier t 1) s
        (s.finishPin x p).postEvent ⟨BitVec.ofNat 8 (Blk.code .tier), BitVec.ofNat 8 ((s.exttNow x).startStack / 6), 0x0002,
          BitVec.ofNat 64 x, BitVec.ofNat 64 p⟩
      else s

/-- REPIN: after admission opens, the restored pinned extents are pinned again in their order (R238); one whose frames do not
suffice yet waits with those behind it. -/
def State.repin : Nat → State → State
  | 0, s => s
  | n + 1, s =>
    if !s.opened || s.stopped then s
    else match s.tier.repins with
      | [] => s
      | x :: r => if s.pinFits x then State.repin n ({ s with tier := { s.tier with repins := r } }.beginPin x false) else s

/-! ### Rows -/

/-- TABLE_SWITCH_REQ (R32). -/
def execTableSwitchReq (by' : Agent) (t : Table) (value : Word) (cycle : BitVec 14) (s : State) : Host.Outcome State Fault Refusal :=
  .next (if mayCtrl by' t then (s.ctrlWrite t value cycle.toNat).respond by' true else s.respond by' false)

/-- TABLE_BASE_WRITE (R35): the base registers belong to firmware. -/
def execTableBaseWrite (by' : Agent) (t : Table) (bank : Bool) (value : Word) (cycle : BitVec 14) (s : State) :
    Host.Outcome State Fault Refusal :=
  .next (if by' = .firmware then s.baseWrite t bank value cycle.toNat else s.respond by' false)

/-- TABLE_SWITCH (R32). -/
def execTableSwitch (t : Table) (s : State) : Host.Outcome State Fault Refusal := .next (s.switchTable t)

/-- OLD_FREE_SET (R34). -/
def execOldFreeSet (t : Table) (s : State) : Host.Outcome State Fault Refusal := .next (s.setOldFree t)

/-- SLUICE_PORT_SWITCH (R361). -/
def execSluicePortSwitch (port : Fin 32) (s : State) : Host.Outcome State Fault Refusal := .next (s.switchPort port)

/-- INVALIDATE_EFFECT (R36). -/
def execInvalidateEffect (s : State) : Host.Outcome State Fault Refusal := .next s.invalidateEffect

/-- POLICY_SET_EFFECT (R387). -/
def execPolicySetEffect (s : State) : Host.Outcome State Fault Refusal := .next s.policyEffect

/-- EXTENT_DRAINED (R58). -/
def execExtentDrained (ext : BitVec 18) (s : State) : Host.Outcome State Fault Refusal := .next (s.extentDrained ext.toNat)

/-- PIN_DONE (R218). -/
def execPinDone (ext : BitVec 18) (s : State) : Host.Outcome State Fault Refusal := .next (s.pinDone ext.toNat)

/-- REPIN (R238). -/
def execRepin (s : State) : Host.Outcome State Fault Refusal := .next (State.repin s.tier.repins.length s)

end Sys2Proof.Machine
end

