-- ==== Sys2Proof/Machine/XltCmds.lean ====
section
/-! DEFINITION. What the driver asks of the translation unit (R206, R207, R209, R386): invalidation, resume and abort, as ring
commands and as writes of the XLT pages, and the effect of an invalidation. -/

namespace Sys2Proof.Machine

/-! ### Invalidation (R207) -/

/-- Request an invalidation; `pg` is the tile whose page was written. -/
def State.requestInv (s : State) (pg : Option Nat) (scope asid page : Nat) : State :=
  let o := rOff .xlt (pg.getD 0) 0x228
  let s := s.setReg o (setBits (setBits (s.reg o) 5 5 0) 4 4 1)
  { s with xlt := { s.xlt with inv := s.xlt.inv ++ [{ taken := s.tick, byPage := pg, scope := scope, asid := asid, page := page }] } }

/-- A write of XLT_INV_CTRL of a tile (R209). -/
def State.invCtrlWrite (s : State) (tile : Nat) (v : Word) : State :=
  let o := rOff .xlt tile 0x228
  let s := if bit v 6 then s.setFld o 6 6 0 else s
  let s := s.setReg o (setBits (setBits (s.reg o) 31 16 (bits v 31 16)) 1 0 (bits v 1 0))
  if bit v 4 then
    if s.xlt.inv ≠ [] ∨ bits v 1 0 = 3 then s.setFld o 6 6 1
    else s.requestInv (some tile) (bits v 1 0) (bits v 31 16) (s.fld (rOff .xlt tile 0x220) 56 12)
  else s

/-- The ring command, which completes in I + 3 whatever else is pending (R207, R386; log 43). -/
def State.invCommand (s : State) (e : Entry) : State :=
  let scope := bits e.w1 1 0
  let ok := e.rsvOk 0 (mask 31 16 ||| mask 1 0) (mask 56 12) 0 0 0 0 0 && decide (scope ≠ 3)
  s.command 0x45 e ok true .none false fun s =>
    (s.requestInv none scope (bits e.w1 31 16) (bits e.w2 56 12)).journalTick 0x45 e .none (tadd s.tick 3)

/-- Whether an invalidation reaches a cached PTE (R207): page scope takes every level on the page's path. -/
def XltInv.hits (i : XltInv) (p : PteEntry) : Bool :=
  if i.scope = 2 then true
  else if i.scope = 1 then decide (p.asid = i.asid)
  else decide (p.asid = i.asid) && decide (p.va % 2 ^ (45 - 9 * p.level) = i.page / 2 ^ (9 * p.level))

/-- At I + 2 the entries that an invalidation reaches are dropped, once. -/
def State.invDrop (s : State) : State :=
  let due := fun (i : XltInv) => tle (tadd i.taken 2) s.tick
  let hit := fun (p : PteEntry) => s.xlt.inv.any fun i => !i.dropped && due i && i.hits p
  { s with xlt := { s.xlt with
    cache := s.xlt.cache.filter fun p => !hit p
    leafs := s.xlt.leafs.filter fun p => !hit p.2
    inv := s.xlt.inv.map fun i => { i with dropped := i.dropped || due i } } }

/-- REQ, DONE and the event of an invalidation that has ended; REQ stays while another one of its page is pending. -/
def State.invEnd (s : State) (i : XltInv) : State :=
  let t := i.byPage.getD 0
  let o := rOff .xlt t 0x228
  let more := s.xlt.inv.any fun k => decide (k.byPage.getD 0 = t)
  let s := s.setReg o (setBits (setBits (s.reg o) 5 5 1) 4 4 (b2n more))
  (s.bump .xlt t 0x140).raise .xlt t 2

/-- XLT_INV_EFFECT: the entries go at the boundary of I + 2; DONE, the event and the completion follow at I + 3. -/
def State.invEffect (s : State) : State :=
  let s := s.invDrop
  let ended := s.xlt.inv.filter fun i => tle (tadd i.taken 3) s.tick
  let s := { s with xlt := { s.xlt with inv := s.xlt.inv.filter fun i => later (tadd i.taken 3) s.tick } }
  (ended.foldl State.invEnd s).finishDue [0x45]

/-! ### Resume and abort (R206) -/

/-- Act on a fault group: it closes at the next boundary; false when the group is not open, its GEN differs or an earlier
request in this tick holds it. -/
def State.actOnGroup (s : State) (tile group gen : Nat) (abort : Bool) : Bool × State :=
  match s.xlt.groups.find? (fun g => decide (g.tile = tile ∧ g.index = group)) with
  | some g =>
    if g.gen.toNat = gen ∧ g.closing = none then
      (true, { s with xlt := { s.xlt with groups := s.xlt.groups.map fun x => if x = g then { x with closing := some (abort, s.tick) } else x } })
    else (false, (s.setFld (rOff .xlt tile 0x230) 18 18 1).raise .xlt tile 3)
  | none => (false, (s.setFld (rOff .xlt tile 0x230) 18 18 1).raise .xlt tile 3)

/-- A write of XLT_RESUME of a tile (R209). -/
def State.resumeWrite (s : State) (tile : Nat) (v : Word) : State :=
  let o := rOff .xlt tile 0x230
  let s := if bit v 18 then s.setFld o 18 18 0 else s
  let s := s.setFld o 16 0 (bits v 16 0)
  if bit v 17 then (s.actOnGroup tile (bits v 11 0) (bits v 15 12) (bit v 16)).2 else s

/-- The ring command XLT_RESUME, ABORT as its operand says; the group's own rule R206 decides before R385 (log 44). -/
def State.resumeCommand (s : State) (e : Entry) : State :=
  let tile := bits e.w1 21 20
  let group := bits e.w1 11 0
  s.command 0x46 e (e.rsvOk 0 (mask 21 20 ||| mask 16 0) 0 0 0 0 0 0) true .none false fun s =>
    let r := s.actOnGroup tile group (bits e.w1 15 12) (bit e.w1 16)
    if r.1 then r.2.journalTick 0x46 e (.group tile group) (tadd s.tick 1) else r.2.refuse 0x46 e 0

/-- XLT_INVALIDATE (R207). -/
def execXltInvalidate (q : XltReq) (s : State) : Host.Outcome State Fault Refusal :=
  match q with
  | .ring e => .next (s.invCommand e)
  | .reg t v => .next (if s.blockReset .xlt then s.respond .hostDie false else (s.invCtrlWrite t v).respond .hostDie true)

/-- XLT_RESUME (R206): the request as its ABORT bit says. -/
def execXltResume (q : XltReq) (s : State) : Host.Outcome State Fault Refusal :=
  match q with
  | .ring e => .next (s.resumeCommand e)
  | .reg t v => .next (if s.blockReset .xlt then s.respond .hostDie false else (s.resumeWrite t v).respond .hostDie true)

/-- XLT_ABORT (R206): XLT_RESUME with ABORT set. -/
def execXltAbort (q : XltReq) (s : State) : Host.Outcome State Fault Refusal :=
  match q with
  | .ring e => .next (s.resumeCommand { e with w1 := setBits e.w1 16 16 1 })
  | .reg t v => .next (if s.blockReset .xlt then s.respond .hostDie false else (s.resumeWrite t (setBits v 16 16 1)).respond .hostDie true)

/-- XLT_INV_EFFECT (R207). -/
def execXltInvEffect (s : State) : Host.Outcome State Fault Refusal := .next s.invEffect

end Sys2Proof.Machine
end

