-- ==== Sys2Proof/Machine/RingRegs.lean ====
section
/-! DEFINITION. Firmware's rings beside the taking of commands (R376 to R381, R390, R393 to R396, R401), its epochs (R374) and
its watchdogs (R397, R399). -/

namespace Sys2Proof

/-- The ring whose CFG register it is, for its ERR and ENABLE. -/
def CfgId.off : CfgId → Nat
  | .pair i => 0x9208 + 0x40 * i | .evt => 0xA208 | .log => 0xA248 | .trc => 0xA288

/-- Register offset of a ring's BASE. -/
def BaseId.off : BaseId → Nat
  | .cmd i => 0x9200 + 0x40 * i | .cpl i => 0x9220 + 0x40 * i | .evt => 0xA200 | .log => 0xA240 | .trc => 0xA280

/-- CFG register of the ring. -/
def BaseId.cfg : BaseId → Nat
  | .cmd i => 0x9208 + 0x40 * i | .cpl i => 0x9208 + 0x40 * i | .evt => 0xA208 | .log => 0xA248 | .trc => 0xA288

/-- Bytes of an entry. -/
def BaseId.entry : BaseId → Nat
  | .cmd _ | .log => 64 | _ => 32

/-- The largest n of the ring. -/
def BaseId.maxLog : BaseId → Nat
  | .cmd _ | .cpl _ => 12 | _ => 16

namespace Machine

/-! ### Ring registers (R376, R380, R401) -/

/-- Disable a ring: ENABLE clears, ERR sets (R380). -/
def State.ringError (s : State) (cfg : Nat) : State :=
  let s := s.setReg cfg (setBits (setBits (s.reg cfg) 5 5 0) 6 6 1)
  (s.bump .fwc 0 0x158).raise .fwc 0 3

/-- Offset of a command HEAD and TAIL. -/
def cmdHead (i : Nat) : Nat := 0x9210 + 0x40 * i
/-- Command TAIL. -/
def cmdTail (i : Nat) : Nat := 0x9218 + 0x40 * i

/-- How far pointer `a` is ahead of `b` in a ring of `n` entries (R377). -/
def ringDist (n a b : Nat) : Nat := (a % (2 * n) + 2 * n - b % (2 * n)) % (2 * n)

/-- A write of a command HEAD: more than N ahead of TAIL disables the ring. Log 81. -/
def State.headWrite (s : State) (i : Nat) (v : Word) : State :=
  let h := bits v 16 0
  let s := s.setReg (cmdHead i) (place 16 0 h)
  let s := s.shadow (0x20 * i) h
  if s.ringOn (0x9208 + 0x40 * i) && decide (s.cmdN i < ringDist (s.cmdN i) h (s.fld (cmdTail i) 16 0)) then
    s.ringError (0x9208 + 0x40 * i)
  else s

/-- A write of the TAIL of a ring that firmware fills: beyond HEAD disables the ring. -/
def State.tailWrite (s : State) (r : RingId) (v : Word) : State :=
  let t := bits v 16 0
  let s := s.setReg r.tail (place 16 0 t)
  let s := s.shadow (r.shadow + 8) t
  if s.ringOn r.cfg && decide (s.ringN r < ringDist (s.ringN r) (s.fld r.head 16 0) t) then s.ringError r.cfg else s

/-- Both pointers of a ring become 0, and their copies. -/
def State.clearRing (s : State) (r : RingId) : State :=
  (((s.setReg r.head 0).setReg r.tail 0).shadow r.shadow 0).shadow (r.shadow + 8) 0

/-- A write of a CFG register; ENABLE going from 0 to 1 resets the ring's pointers (R380). -/
def State.cfgWrite (s : State) (c : CfgId) (v : Word) : State :=
  let o := c.off
  let old := s.reg o
  let err := bit old 6 && !(bit v 6)
  let s := s.setReg o (place 63 56 (bits v 63 56) ||| place 40 32 (bits v 40 32) ||| place 6 6 (b2n err) ||| place 5 5 (bits v 5 5) |||
    place 4 0 (bits v 4 0))
  if bit v 5 && !(bit old 5) then
    match c with
    | .pair i =>
      let s := (((s.setReg (cmdHead i) 0).setReg (cmdTail i) 0).shadow (0x20 * i) 0).shadow (0x20 * i + 8) 0
      s.clearRing (.cpl i)
    | .evt => s.clearRing .evt
    | .log => s.clearRing .log
    | .trc => s.clearRing .trc
  else s

/-- A write of a BASE register: ignored while the ring is enabled; ignored with ERR when the ring would leave the ring area,
overlap the shadow block or not be aligned to its size. -/
def State.ringBase (s : State) (b : BaseId) (v : Word) : State :=
  if s.ringOn b.cfg then s
  else
    let a := bits v 51 12 * 4096
    let size := ringSize (s.reg b.cfg) b.maxLog * b.entry
    let area := s.fld 0x8220 51 12 * 4096
    if area + 4096 ≤ a ∧ a + size ≤ area + 2 ^ 24 ∧ a % size = 0 then s.setReg b.off (place 51 12 (bits v 51 12))
    else s.setFld b.cfg 6 6 1

/-- RING_VECTOR_SIGNAL: the signal due at the end of a window (R381). -/
def State.signalDue (s : State) (r : RingId) : State :=
  let due := sget (fun _ => 0) s.fw.sigDue r.num
  if due ≠ 0 ∧ tle (due - 1) s.tick = true then
    let fw' := { s.fw with sigDue := sset (fun _ => 0) s.fw.sigDue r.num 0, sigLast := sset (fun _ => 0) s.fw.sigLast r.num (s.tick + 1) }
    { s with fw := fw' }.vecSignal (s.fld r.cfg 40 32)
  else s

/-! ### Events, log and trace (R392 to R396) -/

/-- HELD_EVENT_POST: held events in order, then EVT_LOST for those dropped. -/
def State.postHeldEvents : Nat → State → State
  | 0, s => s
  | n + 1, s =>
    if !(s.ringOn RingId.evt.cfg) || s.ringFull .evt || s.taskDown 7 then s
    else match s.fw.evtHeld with
      | e :: r =>
        State.postHeldEvents n (({ s with fw := { s.fw with evtHeld := r } }.ringPut .evt (e.1.words e.2)).bump .fwc 0 0x120)
      | [] =>
        if s.fw.evtLost = 0 then s
        else
          let e : EventRec := ⟨BitVec.ofNat 8 (Blk.code .fwc), 0, 0x0070, BitVec.ofNat 64 s.fw.evtLost, 0⟩
          ({ s with fw := { s.fw with evtLost := 0 } }.ringPut .evt (e.words s.tick)).bump .fwc 0 0x120

/-- LOG_RECORD: written when severe enough and the ring has room; a dropped one marks the next with LOST (R394, R395). -/
def State.logWrite (s : State) (r : LogRec) : State :=
  let sev := r.severity.toNat
  if sev < min 5 (s.fld 0x8228 2 0) ∨ 5 < sev then s
  else if s.ringOn RingId.log.cfg && !s.ringFull .log then
    let w0 := place 3 1 sev ||| place 15 8 r.block.toNat ||| place 23 16 r.inst'.toNat ||| place 39 24 r.code.toNat |||
      place 42 40 r.core ||| place 63 63 (b2n s.fw.logLost)
    let args := (List.range 5).map fun i => r.args.getD i 0
    let s := s.seeTime.ringPut .log ([w0, place 47 0 s.tick, BitVec.ofNat 64 s.instant] ++ args)
    { s with fw := { s.fw with logLost := false } }.bump .fwc 0 0x130
  else ({ s with fw := { s.fw with logLost := true } }.bump .fwc 0 0x138).raise .fwc 0 4

/-- TRACE_RECORD (R396). -/
def State.traceWrite (s : State) (tp core : Nat) (a0 : BitVec 48) (a1 a2 : Word) : State :=
  if !(bit (s.reg (0xA300 + tp / 64 * 8)) (tp % 64)) then s
  else if s.fw.trcUsed < 256 ∧ s.ringOn RingId.trc.cfg = true ∧ s.ringFull .trc = false then
    let w0 := place 10 1 tp ||| place 13 11 core ||| place 14 14 (b2n s.fw.trcLost) ||| place 63 16 a0.toNat
    let s := s.seeTime.ringPut .trc [w0, BitVec.ofNat 64 s.instant, a1, a2]
    { s with fw := { s.fw with trcLost := false, trcUsed := s.fw.trcUsed + 1 } }.bump .fwc 0 0x140
  else ({ s with fw := { s.fw with trcLost := true } }.bump .fwc 0 0x148).raise .fwc 0 5

/-! ### Cores and tasks (R373, R374, R397 to R399) -/

/-- Give task `t` to core `k`; SUPERVISOR follows task 0. -/
def State.giveTask (s : State) (t k : Nat) : State :=
  let s := match s.coreOfTask t with
    | some j => s.setFld (coreReg j) (48 + t) (48 + t) 0
    | none => s
  let s := s.setFld (coreReg k) (48 + t) (48 + t) 1
  if t = 0 then s.setFld 0x8208 26 24 k else s

/-- EPOCH_POLICY: the lease policy of the coming epoch is taken, and live cores get back the tasks of their number (log 46). Log 45. -/
def State.epoch (s : State) : State :=
  if s.tick % 1024 = 0 then
    let s := { s with fw := { s.fw with epochPolicy := (s.reg (rOff .hdg 0 0x210)).toNat } }
    s.liveCores.foldl (fun s k => if s.tasksOf k / 2 ^ k % 2 = 1 then s else s.giveTask k k) s
  else s

/-- With one live core left, or none, firmware clears ADMIT_EN (R399). -/
def State.lastCore (s : State) : State := if popCount (s.fld 0x8208 7 0) ≤ 1 then s.stopAdmission else s

/-- WATCHDOG_RESET: core `k` has missed WDT_TICKS boundaries; it restarts, or is FAILED after RESTART_LIMIT restarts within
1,000 ms (R397, R399). -/
def State.watchdog (s : State) (k : Nat) : State :=
  if !(bit (s.reg 0x8208) k) then s
  else
    let wdt := max 8 (s.fld 0x8210 15 0)
    let s := s.setFld (coreReg k) 47 0 (tsub s.tick wdt)
    let recent := s.fw.restarts.filter fun r => decide (r.1 = k) && decide (tsub s.tick r.2 * s.periodNs ≤ 10 ^ 9)
    let s := { s with fw := { s.fw with restarts := s.fw.restarts ++ [(k, s.tick)], moving := s.fw.moving ++ [(k, s.tick)] } }
    let s := (s.setFld 0x8208 k k 0).bump .fwc 0 0x150
    let s := s.raise .fwc 0 0
    let s := if max 1 (s.fld 0x8210 23 16) ≤ recent.length + 1 then
        let s := (s.setFld 0x8208 (16 + k) (16 + k) 1).setFld (coreReg k) 57 56 2
        let s := s.raise .fwc 0 1
        s.postEvent ⟨BitVec.ofNat 8 (Blk.code .fwc), 0, 0x0061, BitVec.ofNat 64 k, BitVec.ofNat 64 (s.fld 0x8208 7 0)⟩
      else (s.setFld 0x8208 (8 + k) (8 + k) 1).setFld (coreReg k) 57 56 1
    s.lastCore

/-- The live core that takes task `t`: for task 0 the lowest-numbered, otherwise the one with the fewest tasks. -/
def State.taskTarget (s : State) (t : Nat) : Option Nat :=
  if t = 0 then s.liveCores.head?
  else s.liveCores.foldl (fun (a : Option Nat) k => match a with
    | some b => if popCount (s.tasksOf k) < popCount (s.tasksOf b) then some k else a
    | none => some k) none

/-- The Iluong image in SRAM has the digest that was taken at boot (R397). -/
def State.sramOk (s : State) : Bool :=
  match s.fw.sramDigest with
  | some d => decide (Config.sha384 s.fw.sram = d)
  | none => true

/-- TASK_REASSIGN: from the boundary after its reset on, the tasks of a restarted core move to live cores and CORE_RESTART is posted; a core
that is not FAILED has reloaded Iluong, and rejoins without tasks when the image checks (R397; log 45). -/
def State.reassign (s : State) : State :=
  if s.liveCores.isEmpty then s
  else
    let cs := s.fw.moving.filter fun x => later s.tick x.2
    let s := { s with fw := { s.fw with moving := s.fw.moving.filter fun x => !later s.tick x.2 } }
    cs.foldl (fun s x =>
      let k := x.1
      let moved := s.tasksOf k
      let s := (List.range 8).foldl (fun s t =>
        if moved / 2 ^ t % 2 = 1 then (match s.taskTarget t with
          | some j => s.giveTask t j
          | none => s) else s) s
      let s := s.postEvent ⟨BitVec.ofNat 8 (Blk.code .fwc), 0, 0x0060, BitVec.ofNat 64 k, BitVec.ofNat 64 moved⟩
      if s.fld (coreReg k) 57 56 = 2 ∨ s.sramOk = false then s
      else ((s.setFld 0x8208 (8 + k) (8 + k) 0).setFld 0x8208 k k 1).setFld (coreReg k) 57 56 0) s

/-! ### Rows -/

/-- HELD_COMPLETION_POST (R390). -/
def execHeldCompletionPost (ring : Fin 4) (s : State) : Host.Outcome State Fault Refusal :=
  .next (State.postHeld ring s.fw.held.length s)

/-- EVENT_POST (R393). -/
def execEventPost (ev : EventRec) (s : State) : Host.Outcome State Fault Refusal := .next (s.postEvent ev)

/-- HELD_EVENT_POST (R393). -/
def execHeldEventPost (s : State) : Host.Outcome State Fault Refusal := .next (State.postHeldEvents (s.fw.evtHeld.length + 1) s)

/-- LOG_RECORD (R394). -/
def execLogRecord (r : LogRec) (s : State) : Host.Outcome State Fault Refusal := .next (s.logWrite r)

/-- TRACE_RECORD (R396). -/
def execTraceRecord (tp : BitVec 10) (core : Fin 8) (arg0 : BitVec 48) (arg1 arg2 : Word) (s : State) : Host.Outcome State Fault Refusal :=
  .next (s.traceWrite tp.toNat core arg0 arg1 arg2)

/-- RING_VECTOR_SIGNAL (R381). -/
def execRingVectorSignal (ring : RingId) (s : State) : Host.Outcome State Fault Refusal := .next (s.signalDue ring)

/-- CMD_HEAD_WRITE (R380). -/
def execCmdHeadWrite (ring : Fin 4) (value : Word) (s : State) : Host.Outcome State Fault Refusal :=
  .next ((s.headWrite ring value).respond .hostDie true)

/-- RING_TAIL_WRITE (R380). -/
def execRingTailWrite (ring : RingId) (value : Word) (s : State) : Host.Outcome State Fault Refusal :=
  .next ((s.tailWrite ring value).respond .hostDie true)

/-- RING_ENABLE (R380): a write of a ring's CFG register. -/
def execRingEnable (ring : CfgId) (value : Word) (s : State) : Host.Outcome State Fault Refusal :=
  .next ((s.cfgWrite ring value).respond .hostDie true)

/-- RING_BASE_WRITE (R376). -/
def execRingBaseWrite (ring : BaseId) (value : Word) (s : State) : Host.Outcome State Fault Refusal :=
  .next ((s.ringBase ring value).respond .hostDie true)

/-- EPOCH_POLICY (R374). -/
def execEpochPolicy (s : State) : Host.Outcome State Fault Refusal := .next s.epoch

/-- WATCHDOG_RESET (R397). -/
def execWatchdogReset (core : Fin 8) (s : State) : Host.Outcome State Fault Refusal := .next (s.watchdog core)

/-- TASK_REASSIGN (R397). -/
def execTaskReassign (s : State) : Host.Outcome State Fault Refusal := .next s.reassign

end Machine
end Sys2Proof
end

