-- ==== Sys2Proof/Machine/HostOps.lean ====
section
/-! DEFINITION. Holding and releasing the host die (R472, R473, R475, R476). -/

namespace Sys2Proof.Machine

/-- UCI_HOST_CTRL. -/
def uciCtrl : Nat := 0x6220
/-- UCI_HOST_STATUS. -/
def uciStatus : Nat := 0x6228
/-- UCI_HOST_ALIVE. -/
def uciAlive : Nat := 0x6230
/-- UCI_MOD_m. -/
def uciMod (m : Nat) : Nat := 0x6200 + 8 * m

/-- The host die is held in reset. -/
def State.hostHeld (s : State) : Bool := bit (s.reg uciCtrl) 0

/-- STATE of a module: 0 DOWN, 1 TRAIN, 2 UP, 3 RETRAIN. -/
def State.modState (s : State) (m : Nat) : Nat := s.fld (uciMod m) 1 0

/-- Clear ENABLE on every ring (R476 step 2). -/
def State.ringsOff (s : State) : State :=
  [0x9208, 0x9248, 0x9288, 0x92C8, 0xA208, 0xA248, 0xA288].foldl (fun s o => s.setFld o 5 5 0) s

/-- Hold the host die in reset (R475): its accesses end with it. -/
def State.holdHost (s : State) : State :=
  { (s.setFld uciCtrl 0 0 1).setFld uciStatus 1 0 0 with hostWait := [] }

/-- The firmware slot that runs. -/
def State.slotUsed' (s : State) : Option SlotImage := s.boot.slots.getD (s.fld 0x8200 0 0) none

/-- Words 0 to 7 of the boot block (R473). -/
def State.bootWords (s : State) : List Word :=
  let len := (s.slotUsed'.map (·.hostLen)).getD 0
  [place 31 0 0x484F5354 ||| place 39 32 1,
   place 31 0 (bits (s.reg 0x7300) 31 0),
   0x1000000000,
   place 51 12 (s.fld 0x8220 51 12),
   place 19 0 s.devEid.toNat ||| place 29 24 s.tim.periodQ,
   place 31 0 len ||| place 32 32 (s.fld 0x8200 0 0) ||| place 42 40 (s.fld 0x5200 2 0),
   place 31 0 (s.fld 0x5200 63 32),
   place 47 0 s.tick]

/-- The boot block as firmware writes it, with its CRC. -/
def State.bootBlock (s : State) : List Word :=
  s.bootWords ++ [place 31 0 (crc32c (wordsBytes s.bootWords)).toNat]

/-- Release the host die (R472): the image and the boot block are written, HOLD clears, STATE reads BOOTING. It needs all four
modules up and an image whose digest checks. Log 100. -/
def State.releaseHost (s : State) : State :=
  match s.slotUsed' with
  | some img =>
    if img.hostOk && (List.range 4).all (fun m => decide (s.modState m = 2)) then
      let s := s.writeRegion 0x80200000 (img.part 3) false
      let s := s.writeWords 0x80000000 s.bootBlock
      let s := s.setFld uciCtrl 0 0 0
      let s := s.setReg uciStatus (place 51 4 s.tick ||| place 1 0 1)
      s.setReg uciAlive 0
    else s
  | none => s

/-- Every HOST_BULK descriptor, admitted or parked, ends DISCARDED (R476 step 1, R435). Log 97. -/
def State.endHostBulks (s : State) : State :=
  let v : StopEvent := { cause := 0, scope := 0, landed := false, x := s.tick, send := s.tick }
  let s := s.discardWhere v fun r => match r.work with
    | .hostBulk .. => true
    | _ => false
  s.discardParked fun _ => true

/-- The steps of R476 that fall on this boundary: at I + 1 the descriptors end, the rings and the host die stop; from I + 2 the
release runs, unless a module is down. -/
def State.hostResetDue (s : State) : State :=
  match s.hostReset with
  | none => s
  | some (i, again) =>
    let s := if tle (tadd i 1) s.tick && !s.hostHeld then s.endHostBulks.ringsOff.holdHost else s
    if tle (tadd i 2) s.tick then
      let s := { s with hostReset := none }
      if again then s.releaseHost else s
    else s

/-- Begin a restart of the host die in this tick (R476); a restart already under way goes on. -/
def State.beginHostReset (s : State) (again : Bool) : State :=
  match s.hostReset with
  | some (i, a) => { s with hostReset := some (i, a && again) }
  | none => { s with hostReset := some (s.tick, again) }

/-! ### The tenant record (R448) -/

/-- The tenant record in use at power-up: the valid copy with the higher SEQ (R448). -/
def State.tenantRecord (s : State) : TenantRec :=
  let a := s.island.records.getD 0 {}
  let b := s.island.records.getD 1 {}
  if a.valid && (!b.valid || decide (b.seq ≤ a.seq)) then a else if b.valid then b else {}

/-- Show a tenant record in MGT_TENANT and MGT_KEY. -/
def State.showTenant (s : State) (r : TenantRec) (fmcGen : Nat) (key : Bool) : State :=
  (s.setReg 0x5200 (place 63 32 r.epoch.toNat ||| place 5 5 (b2n key) ||| place 4 3 r.defaultKind.toNat ||| place 2 0 r.state.toNat)).setReg
    0x5208 (place 31 16 fmcGen ||| place 15 0 r.keyGen.toNat)

/-- Write the tenant record into the copy not in use, with SEQ one higher. -/
def State.putTenant (s : State) (f : TenantRec → TenantRec) : State :=
  let a := s.island.records.getD 0 {}
  let b := s.island.records.getD 1 {}
  let useA := a.valid && (!b.valid || decide (b.seq ≤ a.seq))
  let r := s.tenantRecord
  let r' := { f r with valid := true, seq := r.seq + 1 }
  { s with island := { s.island with records := s.island.records.set (if useA then 1 else 0) r' } }

/-- Tenant state as MGT_TENANT shows it (R444). -/
def State.tenantState (s : State) : Nat := s.fld 0x5200 2 0

/-- Whether the FMCs hold a key. -/
def State.keyHeld (s : State) : Bool := s.island.key.isSome

/-- Show the tenant record in use, with the FMCs' generation. -/
def State.showRecord (s : State) (fmcGen : Nat) : State := s.showTenant s.tenantRecord fmcGen s.keyHeld

/-- Note a transition of the tenant state in this tick (R445). -/
def State.noteTransition (s : State) : State :=
  { s with island := { s.island with lastTransition := s.tick } }.raise .mgt 0 0

/-- The operation on the tenant state whose response is outstanding ends with OK (R460). -/
def State.endBusy (s : State) : State :=
  match s.island.busy with
  | none => s
  | some (op, id) => { s with island := { s.island with busy := none } }.mgtAnswer op id 0 []

/-- CLEAR takes effect at R + 2: UNASSIGNED, and the host die is released (R445, R472). -/
def State.clearDue (s : State) : State :=
  match s.island.clearAt with
  | none => s
  | some t =>
    if later t s.tick then s
    else
      let s := { s with island := { s.island with clearAt := none } }
      let s := (s.putTenant fun r => { r with state := 0 }).showRecord (s.fld 0x5208 31 16)
      s.noteTransition.endBusy.releaseHost

/-- Ticks that the zero-fill of a purge takes: 4,194,239 lines of a pseudo-channel in its admitted slots (R83, R455, R456). -/
def State.purgeTicks (s : State) : Nat := cdiv 4194239 (s.share 160)

/-- PURGE_PCT while a purge runs. -/
def State.showPurge (s : State) : State :=
  match s.island.release with
  | some x => if s.island.purging then
      s.setFld 0x5210 63 56 (min 99 (100 * tsub s.tick (tadd x 2) / s.purgeTicks)) else s
  | none => s

/-- The features in force since firmware last read the store (R423): a change shows in the tick after it is written. -/
def State.showFeatures (s : State) : State :=
  if s.fld 0x200 15 8 < 3 then s else s.setFld 0x1200 9 8 (s.licFeatures.toNat % 4)

end Sys2Proof.Machine
end

