-- ==== Sys2Proof/Machine/Ticks.lean ====
section
/-! DEFINITION. The tick (R67): what a boundary does (R95, R98, R215, R225 to R231, R321, R366, R441 and the effects that wait for a
boundary), demand reports and shares (R96, R97), the Ebb's bookings (R223) and a change of the period (R68 to R70). -/

namespace Sys2Proof.Machine

/-! ### Shares (R96 to R98, R374) -/

/-- Demand that tile `b` last reported to owner `o` for class `c`. -/
def State.reported (s : State) (o c b : Nat) : Nat := sget (fun _ => 0) s.adm.report ((o * 8 + c) * 4 + b)

/-- Shares that owner `o` sends for class `c`: firmware's fixed ones of the epoch, or those of demand. -/
def State.sharesOf (s : State) (o c : Nat) : List Nat :=
  if s.fw.epochPolicy / 2 ^ 8 % 2 = 1 then fixedShares o (s.fw.epochPolicy / 16 % 16)
  else splitShares o (s.fld (rOff .hdg o 0x210) 3 0) ((List.range 4).map fun b => s.reported o c b)

/-- DEMAND_REPORT: every Headgate sends its reports (R96). -/
def State.sendDemand (s : State) : State := { s with adm := { s.adm with report := s.adm.demand, demand := [] } }

/-- SHARE_MESSAGE: every owner sends new shares; `lost` names the (owner, borrower) pairs whose messages do not arrive (R97,
R98). -/
def State.sendShares (s : State) (lost : List (Nat × Nat)) : State :=
  let m : SMap (List Nat) := (List.range 4).flatMap fun o => (List.range 8).map fun c => (o * 8 + c, s.sharesOf o c)
  { s with adm := { s.adm with nextShares := m, noGrant := lost.filter fun (l : Nat × Nat) => decide (l.1 ≠ l.2) } }

/-- Whether a borrower holds no grant of an owner at this boundary. Log 76. -/
def State.missed (s : State) (o b : Nat) : Bool :=
  decide (o ≠ b) && (s.adm.nextShares.isEmpty || s.adm.noGrant.contains (o, b))

/-- The shares of owner `o` and class `c` that hold from this boundary: 0 for a borrower without a grant, the rest to the owner. Log 101. -/
def State.heldShares (s : State) (o c : Nat) : List Nat :=
  let sh := sget (fun _ => ([16, 16, 16, 16] : List Nat)) s.adm.nextShares (o * 8 + c)
  let out := (List.range 4).map fun b => if b = o ∨ s.missed o b = true then 0 else sh.getD b 0
  out.set o (64 - out.sum)

/-- What tile `t` lends of one instance in tick `u` and the borrowers have not claimed (R95). -/
def State.unclaimed (s : State) (t u : Nat) (r : Res) : Nat :=
  (((List.range 4).filter (· ≠ t)).map fun h => s.left h r u none).sum

/-- The sense frames of tile `t` for tick `u` that are lent and unclaimed (R97). -/
def State.unclaimedFrames (s : State) (t u : Nat) : Nat :=
  let b := (splitTick s.tick u).1
  let l := s.frameList t u b
  let sh := s.sharesAt b t 1
  let lent := (((List.range 4).filter (· ≠ t)).map fun h => l.length * sh.getD h 0 / 64).sum
  ((l.take lent).filter fun d => decide (s.claimed false (.sense d) u (fun _ _ => true) = 0)).length

/-- The divided instances of tile `t` in tick `u`, the pseudo-channels of a stack together in the far horizon (R95). -/
def State.instances (s : State) (t u : Nat) : List Res :=
  let pcs := if (splitTick s.tick u).2 then 1 else 64
  ((List.range (6 * pcs)).map fun i => Res.hbm (6 * t + i / pcs) (i % pcs)) ++ ((List.range 16).map fun i => Res.chan (16 * t + i)) ++
    ((List.range 32).flatMap fun i => [Res.engine (32 * t + i), .thread (32 * t + i), .confCore (32 * t + i)]) ++
    [.confTile t, .confColl t, .mergeTile t, .mergeColl t, .walk t] ++ (((List.range 4).filter (· ≠ t)).map fun x => Res.link t x) ++
    ((List.range 8).flatMap fun i => (List.range (s.segs (8 * t + i) u).length).map fun j => Res.seg (8 * t + i) j)

/-- What the splits that end at the coming boundary return unclaimed to their owners, counted in LEASE_RETURNED: the near parts of T + 1
to T + 3, the standing parts of T + 4 and the far parts of T + 49 (R95, R103). Log 136. -/
def State.returnLeases (s : State) : State :=
  if !s.opened then s
  else
    (List.range 4).foldl (fun a t => a.bumpN .hdg t 0x198
      ((([1, 2, 3, 4, 49].map (tadd s.tick)).map fun u =>
        s.unclaimedFrames t u + ((s.instances t u).map (s.unclaimed t u)).sum).sum)) s

/-- Take the shares at a boundary: the log of shares that splits refer to grows and is pruned (R95). Before admission first
opens the Headgates hold equal shares. -/
def State.takeShares (s : State) : State :=
  let old := s.adm.shareLog.filter fun e => !later s.tick (tadd (e.1 / 32) 4097)
  let log := if s.opened then
      (List.range 32).foldl (fun l i => sset (fun _ => ([16, 16, 16, 16] : List Nat)) l (s.tick * 32 + i) (s.heldShares (i / 8) (i % 8))) old
    else old
  let miss := if s.opened then (List.range 4).filter fun b => (List.range 4).any fun o => s.missed o b else []
  let s := { s with adm := { s.adm with shareLog := log } }
  miss.foldl (fun s b => s.raise .hdg b 0) s

/-! ### The Reservoir and the Freeboard (R225 to R231) -/

/-- E_usable in units of 0.5 pJ: η × C × (V² − V_cut²) with η per mille, C in mF and V in mV (R226). -/
def usableEnergy (eff capMf v vcut : Nat) : Nat := eff * capMf * (v * v - vcut * vcut)

/-- The sense sample of the tick that ends (R225): V, its checks and E_usable, and the charge of a running capacitance test (R227). -/
def State.senseSample (s : State) (env : TickEnv) : State :=
  let ok := decide (env.vsenseMv ≤ 60000)
  let was := s.fld 0x4248 2 2
  let s := (s.setFld 0x4200 15 0 env.vsenseMv).setFld 0x4200 47 32 (ofInt 16 env.isense10mA)
  let s := (s.setFld 0x4248 2 2 (b2n ok)).setFld 0x4248 5 5 (b2n (decide (0 < env.isense10mA)))
  let s := if !ok && decide (was = 1) then s.raise .rsv 0 2 else s
  let vp := s.rsv.vpmb
  let v0 := env.vsenseMv
  let mis := match vp with
    | some p => decide (2 * v0 < 100 * (max p v0 - min p v0)) && decide (s.fld 0x4248 1 1 = 1)
    | none => false
  let v := if !ok then 0 else if mis then min v0 (vp.getD v0) else v0
  let s := if mis && decide (s.fld 0x4248 3 3 = 0) then s.raise .rsv 0 3 else s
  let s := s.setFld 0x4248 3 3 (b2n mis)
  let e := usableEnergy (s.fld 0x4208 49 40) (s.fld 0x4208 23 0) v (s.fld 0x4208 39 24)
  let s := s.setFld 0x4210 31 0 (e / (2 * 10 ^ 12))
  let q := if s.rsv.capTestStartMv.isSome then (-env.isense10mA).toNat * s.periodNs else 0
  { s with rsv := { s.rsv with energy := e, v := v, testCharge := s.rsv.testCharge + q } }

/-- D_max in lines (R229). -/
def State.dMax (s : State) : Nat :=
  let fixed := s.fld 0x4218 47 32 * (2 * 10 ^ 12)
  (s.rsv.energy - fixed) * min 1000 (s.fld 0x4218 11 0) / (5120000 * s.fld 0x4218 31 16)

/-- Groups that hold a DIRTY or CLEANING line on tile `t`, as physical line numbers over 16. -/
def State.dirtyGroupsOn (s : State) (t : Nat) : List Nat :=
  ((s.tier.lsm.filter fun e => e.2.unclean && decide (stackOf e.1 / 6 = t)).map fun e => e.1 / 16).dedup

/-- L_t: 16 lines for each such group (R229). -/
def State.drainLines (s : State) (t : Nat) : Nat := 16 * (s.dirtyGroupsOn t).length

/-- C̄: mean drain lines per tick that confirmations removed over the last 64 ticks (R223). -/
def State.cleanRate (s : State) : Nat := s.tier.cleaned.sum / 64

/-- Shares of the grant from the demand of the tick that ends (R230). Log 55. -/
def grantShares (d : List Nat) : List Nat :=
  let tot := d.sum
  if tot = 0 then [16, 16, 16, 16]
  else
    let raw := d.map fun x => max 1 (64 * x / tot)
    let excess := raw.sum - 64
    let who := raw.findIdx (· = raw.foldl max 0)
    raw.zipIdx.map fun x => if x.2 = who then x.1 - excess else x.1

/-- Drain lines that tile `t` charged in the tick that ends, plus those it refused with DIRTY (R230). -/
def State.grantDemand (s : State) (ending t : Nat) : Nat :=
  ((s.adm.claims.filter fun c => decide (c.res = .dirty t ∧ c.use' = ending)).map (·.units)).sum + sget (fun _ => 0) s.adm.dirtyRefused t

/-- A compute reset grants nothing from C until admission resumes (R239). -/
def State.noGrant (s : State) : Bool :=
  s.rsv.noGrant || (match s.creset with
    | some r => tle r.c s.tick
    | none => false)

/-- FREEBOARD_UPDATE and DIRTY_GRANT_ISSUE (R229 to R231); a device without flash runs neither (R220). -/
def State.freeboard (s : State) (ending : Nat) : State :=
  if !s.hasFlash then s
  else
    let dmax := s.dMax
    let ls := (List.range 4).map s.drainLines
    let D := 4 * (ls.foldl max 0 + s.rsv.grantPrev)
    let F : Int := (dmax : Int) - (D : Nat)
    let h := max 64 (s.fld 0x4220 15 0)
    let cbar := s.cleanRate
    let G := if F < 4 ∨ s.noGrant = true then 0 else min (F.toNat / 4) (max cbar (F.toNat / h))
    let sh := grantShares ((List.range 4).map (s.grantDemand ending))
    let s := (List.range 4).foldl (fun s t =>
      let g := if t ≠ 0 ∧ s.missed 0 t = true then 0 else G * sh.getD t 0 / 64
      (s.setFld (rOff .tier t 0x220) 39 0 (ls.getD t 0)).setFld (rOff .hdg t 0x240) 31 0 g) s
    let s := ((s.setFld 0x4228 39 0 dmax).setFld 0x4230 39 0 D).setReg 0x4238 (place 63 32 cbar ||| place 31 0 G)
    let s := if F < 0 then (s.bump .rsv 0 0x110) else s
    let s := if F < 0 ∧ s.fld 0x4248 4 4 = 0 then s.raise .rsv 0 0 else s
    let s := s.setFld 0x4248 4 4 (b2n (decide (F < 0)))
    { s with rsv := { s.rsv with grantPrev := G } }

/-! ### Eviction (R215) -/

/-- FREE_TARGET of a stack in frames. -/
def State.freeTarget (s : State) (st : Nat) : Nat := s.stackFrames st * min 500 (s.fld (rOff .tier (st / 6) 0x228) 9 0) / 1000

/-- One stack's hand over the frames given, in order: clears REF, evicts, or sends a dirty frame to the head of the Ebb order. -/
def State.handPass (st target : Nat) : List Nat → Nat → Nat → State → State
  | [], _, _, s => s
  | f :: r, free, done, s =>
    if 64 ≤ done ∨ target ≤ free then s
    else
      let h := s.fhtOf f
      let s := { s with tier := { s.tier with hands := sset (fun _ => 0) s.tier.hands st ((f + 1) % 32768) } }
      if h.st ≠ .resident then State.handPass st target r free done s
      else if h.ref then State.handPass st target r free done (s.setFht f { h with ref := false })
      else if h.dirtyLines ≠ 0 then
        let q := if s.tier.ebbHead.contains f then s.tier.ebbHead else s.tier.ebbHead ++ [f]
        State.handPass st target r free done { s with tier := { s.tier with ebbHead := q } }
      else if later s.tick h.holdUntil then
        State.handPass st target r (free + 1) (done + 1) ((s.freeFrame h.parcel).bump .tier (st / 6) 0x118)
      else State.handPass st target r free done s

/-- The boundary's pass over one stack, from where its hand stands. -/
def State.evictStack (s : State) (st : Nat) : State :=
  let target := s.freeTarget st
  let free := s.freeFrames st
  let t := s.tier
  if target ≤ free then { s with tier := { t with lowSince := sset (fun _ => 0) t.lowSince st 0 } }
  else
    let since := sget (fun _ => 0) t.lowSince st
    let s := if since = 0 then { s with tier := { t with lowSince := sset (fun _ => 0) t.lowSince st (s.tick + 1) } } else s
    let s := if since ≠ 0 ∧ 64 ≤ tsub s.tick (since - 1) then s.raise .tier (st / 6) 0 else s
    let hand := sget (fun _ => 0) t.hands st
    let fs := (t.fht.filter fun e => decide (e.1 / 32768 = st)).map (·.1)
    let order := (fs.filter fun f => decide (hand ≤ f % 32768)) ++ fs.filter fun f => decide (f % 32768 < hand)
    State.handPass st target order free 0 s

/-! ### Counters and telemetry at a boundary -/

/-- COUNTER_CLEAR: pages whose CNT_CTRL holds CLEAR (R441). -/
def State.clearCounters (s : State) : State :=
  let ps := (s.regs.filter fun e => decide (e.1 % 4096 = 0x80) && bit e.2 1).map fun e => e.1 / 4096
  ps.foldl (fun s p =>
    let s := { s with regs := s.regs.filter fun e => !(decide (e.1 / 4096 = p ∧ 0x100 ≤ e.1 % 4096 ∧ e.1 % 4096 < 0x200)) }
    s.setFld (p * 4096 + 0x80) 1 1 0) s

/-- Bin of a depth (R321). -/
def histBin (d : Nat) : Nat := if d = 0 then 0 else min 15 (Nat.log2 d + 1)

/-- HIST and STALL_CYCLES of a port and link VC: the depth at the boundary; a VC with blocks queued and held by XOFF or by a closed
gate stalls for a free number of the tick's cycles (R321; log 47). -/
def State.countDepth (s : State) (p vc : Nat) : State :=
  let d := s.qDepth p vc
  let t := s.tel p vc
  let b := histBin d
  let hist := t.hist ++ List.replicate (16 - t.hist.length) 0
  let shut := (s.sched p).queue.any fun e => decide (e.linkVc = vc) &&
    !(s.sched p).openFor e.service (s.tim.netTime - s.periodNs) s.periodNs
  let stalled := decide (0 < d) && (decide (s.fld (rOff .lnk p 0x220) 63 56 / 2 ^ vc % 2 = 1) || shut)
  let (n, s) := if stalled then s.drawNat else (0, s)
  s.setTel p vc { t with hist := hist.set b (hist.getD b 0 + 1), stall := t.stall + BitVec.ofNat 64 (n % (400 * s.tim.periodQ + 1)) }

/-- The depths of every link VC of the ports that have any. Log 80. -/
def State.countDepths (s : State) : State :=
  (List.range 32).foldl (fun s p =>
    if s.fld (rOff .lnk p 0x210) 15 14 = 0 then s else (List.range (s.portVcs p)).foldl (fun s v => s.countDepth p v) s) s

/-- A snoop that has waited longer than a tick raises CTRL_BACKLOG (R366). -/
def State.backlog (s : State) : State :=
  (List.range 32).foldl (fun s p =>
    if (s.sched p).queue.any (fun e => decide (e.cls = .snoop) && later s.tick (tadd e.entered 1)) then s.raise .sch (p / 8) 2 else s) s

/-- Logs of floors and throttle level: an entry when the value differs from the last one (R372, R514). -/
def State.logChange (l : SMap Nat) (tick item v : Nat) : SMap Nat :=
  if (l.any fun e => decide (e.1 % 64 = item)) && decide (logAt l item tick v = v) then l else sset (fun _ => tickMod) l (tick * 64 + item) v

/-- Bring both logs up to the present tick. -/
def State.noteRates (s : State) : State :=
  let fl := (List.range 32).foldl (fun l p => State.logChange l s.tick p (s.floorNow p)) s.adm.floors
  let th := State.logChange s.adm.throttle s.tick 0 (s.fld 0x3240 2 0)
  { s with adm := { s.adm with floors := fl, throttle := th } }

/-! ### The boundary -/

/-- What was counted within the tick that ends goes back to zero, and claims of ended ticks are forgotten. -/
def State.resetTick (s : State) : State :=
  let now := s.tick
  let adm' := { s.adm with
    dirtyUsed := []
    dirtyRefused := []
    dirtyGroups := []
    noGrant := []
    nextShares := []
    repairUsed := []
    heads := []
    claims := s.adm.claims.filter fun c => !later now c.use' }
  let fab' := { s.fab with
    crossed := []
    scheds := s.fab.scheds.map fun e => (e.1, { e.2 with replies := 0, filterReplies := 0 })
    links := s.fab.links.map fun e => (e.1, { e.2 with replayUsed := 0 }) }
  let tier' := { s.tier with
    ebbSpent := []
    ebbBook := s.tier.ebbBook.filter fun e => !later now (e.1 % tickMod)
    ebbLevel := s.tier.ebbLevel.filter fun e => !later now (e.1 % tickMod) }
  { s with adm := adm', fab := fab', tier := tier', coh := { s.coh with snoopUsed := [] }, fw := { s.fw with trcUsed := 0, cmdUsed := 0, slots := [] },
           hostUse := [], signalled := [] }

/-- The drain lines that the tick's confirmations removed join the 64 that C̄ is the mean of (R223). -/
def State.shiftCleaned (s : State) : State :=
  { s with tier := { s.tier with cleaned := (s.tier.cleanedNow :: s.tier.cleaned).take 64, cleanedNow := 0 } }

/-- The bits that a list of upset bytes flips in byte `i` of a line. -/
def flipAt (l : List (Fin 256 × Byte)) (i : Nat) : Byte :=
  l.foldl (fun (a : Byte) x => if x.1 = i then a ^^^ x.2 else a) 0

/-- Whether a line lies in the control region. -/
def State.inControl (s : State) (ln : Nat) : Bool :=
  let hu := unitsOn s.hostUnits (stackOf ln)
  decide (hu ≤ ln % 2 ^ 28 / 16 ∧ ln % 2 ^ 28 / 16 < hu + unitsOn ctlUnits (stackOf ln))

/-- One upset line: its data and metadata bits flip, and its CRC then differs by the CRC of the flips, which is linear (R250,
R251). What the writer of a table in the control region knows of it stays as it was (log 155). -/
def State.upsetLine (s : State) (u : Upset) : State :=
  let m := s.meta' u.line
  let s := if s.inControl u.line && !(s.fw.masters.any fun x => decide (x.1 = u.line)) then
      { s with fw := { s.fw with masters := s.fw.masters ++ [(u.line, s.rdBs (u.line * 256) 256)] } }
    else s
  let s := { s with tier := { s.tier with copies := s.tier.copies.filter fun c => decide (c.line ≠ u.line) } }
  let flips := (List.range 256).map (flipAt u.data)
  let s := u.data.foldl (fun (s : State) x => s.wrB (u.line * 256 + x.1) (s.rdB (u.line * 256 + x.1) ^^^ x.2)) s
  s.setMeta u.line {
    crcDelta := m.crcDelta ^^^ u.crc ^^^ flips.foldl crc32cByte 0
    poison := m.poison != u.poison
    format := m.format ^^^ u.format
    mirror := m.mirror != u.mirror
    tag := m.tag
    rsv := m.rsv ^^^ u.rsv }

/-- Bit upsets of stored lines that the surroundings cause. -/
def State.upset (s : State) (us : List Upset) : State := us.foldl State.upsetLine s

/-- Whether a line holds part of a table that the driver writes (R29). -/
def State.driverLine (s : State) (ln : Nat) : Bool :=
  let a := s.lineHpa ln
  ([Table.rtt, .prgt, .tft, .slt] : List Table).any fun t => [false, true].any fun b =>
    decide (s.bankBase t b ≤ a ∧ a < s.bankBase t b + t.entries * t.size)

/-- Firmware and the tier managers rewrite the lines of their tables whose read has failed its check; the driver sees TABLE_CRC and
rewrites its own (R29, R210, R255; log 155). -/
def State.rewriteTables (s : State) : State :=
  let ls := s.fw.rewrites.filter fun ln => !s.driverLine ln
  let s := { s with fw := { s.fw with rewrites := [] } }
  ls.foldl (fun s ln => match s.fw.masters.find? fun x => decide (x.1 = ln) with
    | some x =>
      let s := s.writeLine (ln * 256) x.2 false false 0 false none
      { s with fw := { s.fw with masters := s.fw.masters.filter fun y => decide (y.1 ≠ ln) } }
    | none => s) s

/-- The HMC pages whose CRC_FAIL a merging write has set signal (R440; log 151). -/
def State.signalOwed (s : State) : State :=
  let l := s.hmc.owed.dedup
  l.foldl (fun s st => s.signalPage .hmc st) { s with hmc := { s.hmc with owed := [] } }

/-- What the surroundings do to the tick that begins: parity errors of cached entries (R426) and cores that will run past their reserved
engine-cycles (R115; log 148), with what the ports have sent in INIT and received in the tick that ends (R324, R347). -/
def State.takeEnv (s : State) (env : TickEnv) : State :=
  let s := s.countSymbols (env.symbols.map fun x => (x.1.val, x.2.1.val, x.2.2)) (env.codewords.map fun x => (x.1.val, x.2))
  let s := env.parity.foldl State.markParity s.repeatLinkIds
  { s with adm := { s.adm with overran := env.overruns.map (·.val) } }

/-- Blocks of the control region whose tick has come are given back. -/
def State.freeDue (s : State) : State :=
  let due := s.fw.frees.filter fun f => decide (f.table = none) && tle f.tick s.tick
  let s := { s with fw := { s.fw with frees := s.fw.frees.filter fun f => !(decide (f.table = none) && tle f.tick s.tick) } }
  due.foldl (fun s f => s.freeBlock f.base) s

/-- Requests that still wait for admission in a compute reset, or while a purge holds the Headgates, are answered as the RTR slices answer new
ones, as far as the ports' replies go; the others wait for the next tick (R310, R319, R446). Log 103. -/
def State.refuseWaiting (s : State) : State :=
  if !(s.creset.any (fun r => r.asserted && !r.restarted) || s.island.purging) then s
  else
    let a := if s.island.purging then (stTenant, 0, 0) else (stRefused, tadd s.tick 512, 0xE)
    let qs := s.adm.intake.map (fun q => (none, q)) ++ s.adm.homeQ.map fun x => (some x.1, x.2)
    qs.foldl (fun s x =>
      if s.replyRoom x.2.port then s.answerArrival x.2.port x.2.pkt a
      else match x.1 with
        | none => { s with adm := { s.adm with intake := s.adm.intake ++ [x.2] } }
        | some t => { s with adm := { s.adm with homeQ := s.adm.homeQ ++ [(t, x.2)] } })
      { s with adm := { s.adm with intake := [], homeQ := [], asm := [] } }

/-- ADMIT_RESUME in effect: ADMIT_EN is set at the boundary of I + 1 and the command completes (R386). -/
def State.resumeDue (s : State) : State :=
  if s.fw.journal.any (fun j => decide (j.opcode = 0x61) && (match j.wait with
      | .tick t => tle t s.tick
      | _ => false)) then
    ({ s with rsv := { s.rsv with flushed := false } }.openDevice).finishDue [0x61]
  else s

/-- TABLES runs again after its core stopped: changes that it has left and that no switch holds up go into a switch from this tick (R398). -/
def State.resumeTables (s : State) : State :=
  ([Table.ctxt, .extt, .pkt, .domt].filter fun t => s.oldFree t && !s.switchPending t).foldl (fun s t => s.runDeferred t) s

/-- The kernel of every live core kicks its watchdog (R397). -/
def State.kick (s : State) : State := s.liveCores.foldl (fun s k => s.setFld (coreReg k) 47 0 s.tick) s

/-- EXT_FRAMES and EXT_PARCELS show the free counts of the boundary (R66). -/
def State.showFree (s : State) : State :=
  (s.setFld 0x7308 63 32 ((List.range 24).map s.freeFrames).sum).setFld 0x7310 63 32 s.parcelsFree

/-- HMC_REPAIRQ shows the queued repairs of the boundary (R271). -/
def State.showRepairs (s : State) : State :=
  (List.range 24).foldl (fun s st =>
    s.setFld (rOff .hmc st 0x218) 10 0 (s.hmc.repairs.filter fun r => decide (r.stack = st)).length) s

/-- TICK_BOUNDARY: tick n + 1 begins at network time (n + 1) × P (R67); while the main rails are off nothing of it runs (R15). Log 54. -/
def State.boundary (s : State) (env : TickEnv) : State :=
  if !s.pins.mainPg then s else
  let ending := s.tick
  let s := s.returnLeases
  let n := s.tim.netTime / s.periodNs + 1
  let s := { s with tim := { s.tim with netTime := n * s.periodNs, tick := n % tickMod }, out := [] }
  let s := ((s.upset env.upsets).takeEnv env).senseSample env
  let s := (s.shiftCleaned.freeboard ending).takeShares
  let s := (s.flashTurn ending).backlog.countDepths.resetTick.returnFreed.clearCounters
  let s := (List.range 4).foldl State.showStored s.rewriteTables.signalOwed
  let s := if s.blockReset .tier then s else
    let s := (List.range 24).foldl State.evictStack s
    (s.tier.pins.filter fun j => decide (j.p = none ∧ j.zero = false)).foldl (fun s j => s.pinStep j.ext) s
  let s := s.setDrainTicks.freeDue.resumeDue.hostResetDue.noteRates
  let s := s.clearDue.showPurge.showFeatures
  let s : State := match s.tim.period with
    | some j => if tle j.stopAt s.tick && !s.stopped then s.stopAdmission else s
    | none => s
  let s := if s.fld 0x3240 2 0 ≠ 0 then s.bump .thm 0 0x110 else s
  s.chooseSource.resumeTables.kick.showFree.showRepairs.retryIngress.refuseWaiting.retryRecalls.releaseResponses

/-! ### The Ebb's bookings (R223) -/

/-- f of R223 as a fraction: numerator and denominator, from r = D / D_max. -/
def State.ebbFraction (s : State) : Nat × Nat :=
  let d := s.fld 0x4230 39 0
  let m := s.fld 0x4228 39 0
  let start := s.fld 0x4220 23 16
  let full := max (start + 1) (s.fld 0x4220 31 24)
  let least := min 100 (s.fld 0x4220 39 32)
  if m = 0 ∨ full * m ≤ 100 * d then (1, 1)
  else if 100 * d < start * m then (least, 100)
  else (least * ((full - start) * m) + (100 - least) * (100 * d - start * m), 100 * ((full - start) * m))

/-- A die of tile `t` whose frame starts in tick `u` and is unclaimed: which of them is the flash controller's choice (R85, R263;
log 4). -/
def State.ebbDie (s : State) (t u : Nat) : Option Nat :=
  let l := ((List.range 128).map (128 * t + ·)).filter fun d => s.frameOpen d u
  l[Config.flashPlace (u * 4 + t) % max 1 l.length]?

/-- EBB_BOOK: at the boundary of u − 49 tile `t` books f × B_full bytes for tick u, and the die frames that the programs occupy:
one in each tick in which the bytes booked at that rate complete a 16 KiB page (R223; log 78); and what the patrol needs (R85, R269). -/
def State.bookEbb (s : State) (t : Nat) : State :=
  if !s.hasFlash || s.blockReset .tier then s
  else
    let u := tadd s.tick 49
    let f := s.ebbFraction
    let n := f.1 * s.bFull / f.2
    let s := { s with tier := { s.tier with ebbLevel := sset (fun _ => 0) s.tier.ebbLevel (t * tickMod + u) n } }
    let s := s.setReg (rOff .tier t 0x230) (place 31 24 (100 * f.1 / f.2) ||| place 23 0 n)
    let s := (List.range ((u + 1) * n / 16384 - u * n / 16384)).foldl (fun s _ => match s.ebbDie t u with
      | some d => { s with tier := { s.tier with ebbBook := sset (fun _ => 0) s.tier.ebbBook (d * tickMod + u) 1 } }
      | none => s) s
    s.bookPatrol t u

/-! ### A change of the period (R68 to R70) -/

/-- A stored tick in the numbering of the new period (R69). -/
def rescale (old new t : Nat) : Nat := cdiv (t * old) new % tickMod

/-- Both banks' REVOKE_TICK and RESIZE_TICK of an extent. -/
def State.rescaleExtt (s : State) (f : Nat → Nat) (x : Nat) : State :=
  [false, true].foldl (fun s b =>
    let ws := s.entryMem .extt b x
    let w := fun (i : Nat) => setBits (ws.getD i 0) 47 0 (f (bits (ws.getD i 0) 47 0))
    s.putEntry .extt b x ((ws.set 3 (w 3)).set 4 (w 4))) s

/-- The tick field [hi:lo] of a register. -/
def State.rescaleFld (s : State) (f : Nat → Nat) (o hi lo : Nat) : State := s.setFld o hi lo (f (s.fld o hi lo))

/-- TICK_VALUE_REWRITE (R69), with the ticks that the model itself keeps for effects still to come. -/
def State.rescaleAll (s : State) (f : Nat → Nat) : State :=
  let s := s.liveExtents.foldl (fun s x => s.rescaleExtt f x) s
  let g := fun (n : Nat) => if n = 0 then 0 else f (n - 1) + 1
  let tier' := { s.tier with
    fht := s.tier.fht.map fun e => (e.1, { e.2 with holdUntil := f e.2.holdUntil, firstDirty := f e.2.firstDirty })
    drains := s.tier.drains.map fun j => { j with b := f j.b, due := j.due.map f }
    pins := s.tier.pins.map fun j => { j with p := j.p.map f }
    stale := s.tier.stale.map fun e => { e with effect := f e.effect }
    invals := s.tier.invals.map fun e => { e with effect := f e.effect }
    parcels := s.tier.parcels.map fun e => (e.1, if e.2.allocated then e.2 else { e.2 with index := f e.2.index })
    lowSince := s.tier.lowSince.map fun e => (e.1, g e.2)
    fetches := s.tier.fetches.map fun j => { j with started := f j.started, sensed := j.sensed.map f }
    rebuilds := s.tier.rebuilds.map fun j => { j with ready := f j.ready }
    ebbBook := []
    ebbLevel := [] }
  let fw' := { s.fw with
    journal := s.fw.journal.map fun j => match j.wait with
      | .tick t => { j with wait := .tick (f t), result1 := BitVec.ofNat 64 (f t) }
      | _ => j
    policies := s.fw.policies.map fun j => { j with effect := f j.effect }
    frees := s.fw.frees.map fun j => { j with tick := f j.tick }
    sigDue := s.fw.sigDue.map fun e => (e.1, g e.2)
    sigLast := s.fw.sigLast.map fun e => (e.1, g e.2)
    restarts := s.fw.restarts.map fun r => (r.1, f r.2)
    moving := s.fw.moving.map fun r => (r.1, f r.2)
    gather := [] }
  let coh' := { s.coh with
    doms := s.coh.doms.map fun e => (e.1, { e.2 with downTick := f e.2.downTick, goingDown := e.2.goingDown.map fun d => (f d.1, d.2) })
    recalls := s.coh.recalls.map fun r => { r with expires := f r.expires, snoops := r.snoops.map fun n => { n with sent := n.sent.map f } } }
  let xlt' := { s.xlt with
    parked := s.xlt.parked.map fun p => { p with retry := p.retry.map f }
    groups := s.xlt.groups.map fun q => { q with closing := q.closing.map fun c => (c.1, f c.2) }
    inv := s.xlt.inv.map fun (i : XltInv) => { i with taken := f i.taken } }
  let adm' := { s.adm with
    claims := []
    shareLog := []
    floors := []
    throttle := []
    notices := s.adm.notices.map fun n => { n with sendTick := f n.sendTick }
    intake := s.adm.intake.map fun q => { q with arrived := f q.arrived }
    homeQ := s.adm.homeQ.map fun q => (q.1, { q.2 with arrived := f q.2.arrived })
    asm := s.adm.asm.map fun a => (a.1, { a.2 with opened := f a.2.opened }) }
  let fab' := { s.fab with
    transit := s.fab.transit.map fun x => { x with arrived := f x.arrived }
    links := s.fab.links.map fun e => (e.1, { e.2 with probEnd := e.2.probEnd.map f, upSince := g e.2.upSince })
    scheds := s.fab.scheds.map fun e => (e.1, { e.2 with tokenFrac := 0, queue := e.2.queue.map fun q => { q with use' := f q.use', entered := f q.entered } }) }
  let island' := { s.island with release := s.island.release.map f, clearAt := s.island.clearAt.map f, assignAt := s.island.assignAt.map f }
  let s := { s with tier := tier', fw := fw', coh := coh', xlt := xlt', adm := adm', fab := fab', tileFaults := s.tileFaults.map f }
  let hmc' := { s.hmc with
    lapStart := s.hmc.lapStart.map fun (e : Nat × Nat) => (e.1, f e.2)
    calTick := s.hmc.calTick.map fun (e : Nat × Nat) => (e.1, g e.2)
    patrolBytes := []
    patrolSense := [] }
  let s := { s with island := island', hostReset := s.hostReset.map (fun (x : Nat × Bool) => (f x.1, x.2)), hmc := hmc',
                    creset := s.creset.map (fun (c : CReset) => { c with c := f c.c }),
                    rsv := { s.rsv with drain := s.rsv.drain.map fun (d : Drain) => { d with f0 := f d.f0 } } }
  let s := (List.range 4).foldl (fun s t => s.rescaleFld f (rOff .hdg t 0x220) 47 0) s
  (((s.rescaleFld f 0x218 63 16).rescaleFld f 0x220 63 16).rescaleFld f 0x228 63 16).rescaleFld f 0x5210 47 0

/-- TICK_PERIOD_APPLY: every PCT has passed; the period changes at the next whole multiple of the new one, the offset that TIM
holds is stepped when the period stays, ticks are rewritten and admission resumes (R68 to R70). Log 28. -/
def State.applyPeriod (s : State) : State :=
  match s.tim.period with
  | none => s
  | some j =>
    let passed := match s.latestPct with
      | some m => later s.tick m
      | none => true
    if !(tle j.stopAt s.tick && s.stopped && passed) then s
    else
      let old := s.periodNs
      let new := j.q * 250
      let s := if j.q = s.tim.periodQ ∧ s.tim.held ≠ 0 then
          let s := s.stepTime s.tim.held
          { s.setFld 0x2218 11 11 0 with tim := { s.tim with held := 0 } }
        else s
      let n := cdiv s.tim.netTime new
      let s := if old = new then s else s.rescaleAll (rescale old new)
      let s := { s with tim := { s.tim with netTime := n * new, tick := n % tickMod, periodQ := j.q, period := none } }
      let tim' := match s.tim.periodNext with
        | [] => s.tim
        | q :: r => { s.tim with period := some ⟨q, tadd s.tick 1⟩, periodNext := r }
      let s := { s with tim := tim' }
      let s := s.noteRates
      let s := if s.opened then s.openAdmission else s
      match s.fw.journal.find? fun k => decide (k.wait = .tickSet) with
      | some k => s.finish k stOk (BitVec.ofNat 64 s.tick)
      | none => s

/-! ### Rows -/

/-- TICK_PERIOD_APPLY (R68). -/
def execTickPeriodApply (s : State) : Host.Outcome State Fault Refusal := .next s.applyPeriod

/-- TICK_BOUNDARY (R67). -/
def execTickBoundary (env : TickEnv) (s : State) : Host.Outcome State Fault Refusal := .next (s.boundary env)

/-- DEMAND_REPORT (R96). -/
def execDemandReport (s : State) : Host.Outcome State Fault Refusal := .next s.sendDemand

/-- SHARE_MESSAGE (R97). -/
def execShareMessage (lost : List (Fin 4 × Fin 4)) (s : State) : Host.Outcome State Fault Refusal :=
  .next (s.sendShares (lost.map fun l => (l.1.val, l.2.val)))

/-- EBB_BOOK (R223). -/
def execEbbBook (tile : Fin 4) (s : State) : Host.Outcome State Fault Refusal := .next (s.bookEbb tile)

end Sys2Proof.Machine
end

