-- ==== Sys2Proof/Machine/Tiering.lean ====
section
/-! DEFINITION. The engines of the flash tier and of the line check: background fetches (R217), the Ebb (R221 to R223), programs,
failures, rebuilds and relocation (R263 to R267), repair rewrites (R257), the Dredge and its patrol (R268 to R270), calibration
(R249) and refresh (R243). -/

namespace Sys2Proof.Machine

/-- The drain has taken the tier: background fetches, the Ebb and the Dredge stand still (R233). -/
def State.tierStopped (s : State) : Bool := s.rsv.drain.isSome

/-- The tier managers give no work to the flash controllers: in a drain, and while a compute reset holds them (R233, R239, R417). -/
def State.ebbStopped (s : State) : Bool := s.tierStopped || s.blockReset .tier

/-! ### Background fetches (R217, R257) -/

/-- A frame for a parcel that has none; none while its pools are empty. -/
def State.needFrame (s : State) (p : Nat) : Option State :=
  if (s.frameOf p).isSome then some s
  else
    let o := sget (fun _ => ({} : ParcelOwner)) s.tier.parcels p
    s.giveFrame p (s.homeStackOf p) (s.exttNow o.ext).assured 0 .resident

/-- A slot for a background fetch write: of the Ebb share after the Ebb's reads, then of any reserved share, the repair share only where no
queued rewrite needs it (R217, R257). -/
def State.fillSlot (s : State) (st pc : Nat) : Bool × State :=
  if s.slotUsed 1 st pc < s.share 2 then (true, s.useSlot 1 st pc)
  else if s.rewriteWaits st pc then
    let used := s.slotUsed 1 st pc + s.slotUsed 2 st pc + s.slotUsed 3 st pc + s.hostUsed st pc
    if used < s.share 2 + s.share 8 + s.share 6 then (true, s.useSlot 3 st pc) else s.drawBool
  else s.spareSlot st pc

/-- Whether a fetch still writes line `l` of parcel `p`: a plain one while the line is ABSENT (R216), a refetch while it is CLEAN (R257). -/
def State.fetchWants (s : State) (refetch : Bool) (p l : Nat) : Bool :=
  if refetch then (match s.lineAt p l with
    | some ln => decide (s.lsmOf ln = .clean)
    | none => false)
  else !s.resident p l

/-- Write one line that a fetch has brought, when its pseudo-channel and that of the mirror it takes have a slot (R217, R254); a lost
group's line stays poisoned (R265). -/
def State.fetchWrite (s : State) (refetch : Bool) (p l : Nat) : Bool × State :=
  if !s.fetchWants refetch p l then (true, s)
  else match s.lineAt p l with
    | none => (true, s)
    | some ln =>
      let h := s.fhtOf (ln / 8192)
      let put := fun (s : State) =>
        let s := s.fillBoth refetch p l (s.parcelFormat p) (s.flashLine p l) (s.flashPoison p l)
        if refetch then s else s.bump .tier (stackOf ln / 6) 0x110
      match s.fillSlot (stackOf ln) (s.pcOf ln) with
      | (false, s) => (false, s)
      | (true, s) =>
        if s.fetchMirrors refetch (ln / 8192) then
          let ml := h.mirrorFrame * 8192 + l
          match s.fillSlot (stackOf ml) (s.pcOf ml) with
          | (false, s) => (false, s)
          | (true, s) => (true, put s)
        else (true, put s)

/-- Write the lines of a fetch as far as slots go; what is left of them waits, and a fetch with none left ends. -/
def State.fetchLines (s : State) (f : Fetch) (ls : List Nat) : State :=
  let o := ls.foldl (fun (a : List Nat × State) l =>
    let r := a.2.fetchWrite f.refetch f.parcel l
    (if r.1 then a.1 else a.1 ++ [l], r.2)) ([], s)
  let s := o.2
  if o.1.isEmpty then { s with tier := { s.tier with fetches := s.tier.fetches.erase f } }
  else { s with tier := { s.tier with fetches := s.tier.fetches.map fun x => if x = f then { f with todo := some o.1 } else x } }

/-- A fetch whose sector has arrived: dropped when its key generation is not the current one (R450), kept for another sense when its
sector fails its CRC (R265), else written. -/
def State.fetchDone (s : State) (f : Fetch) : State :=
  match f.todo with
  | some ls => s.fetchLines f ls
  | none =>
    let r := s.fgroup f.parcel f.group
    match s.needFrame f.parcel with
    | none => s
    | some s =>
      let s := if r.stored then s.bump .fmc (fmcOf r.die) 0x100 else s
      if s.staleGen (s.copyOf f.parcel f.group) then ({ s with tier := { s.tier with fetches := s.tier.fetches.erase f } }).bump .mgt 0 0x140
      else
        let (s, bad) := s.fillFails f.parcel f.group (s.copyOf f.parcel f.group)
        if bad then
          { s with tier := { s.tier with fetches := s.tier.fetches.map fun x => if x = f then { f with sensed := none, left := 4096 } else x } }
        else s.fetchLines f (if f.refetch then f.lines else (List.range 16).map (16 * f.group + ·))

/-- BACKGROUND_FETCH_FILL: the fetches of a group whose sector has crossed its channel (R217). -/
def State.backgroundFill (s : State) (p g : Nat) : State :=
  if s.tierStopped || !s.hasFlash then s
  else
    (s.tier.fetches.filter fun f => decide (f.parcel = p ∧ f.group = g ∧ f.left = 0)).foldl (fun s f => s.fetchDone f) s

/-! ### Groups on their way to flash (R159, R160, R221, R258) -/

/-- Read a group as the Ebb or the drain does: resident lines from HBM, DIRTY ones becoming CLEANING, the others from its sector, with poison
where that cannot be read. Answers the bytes, the poison of each line and the lines that became CLEANING. -/
def State.takeGroup (s : State) (who : Reader) (p g : Nat) : List Byte × BitVec 16 × List Nat × State :=
  let c := s.copyOf p g
  let noCopy := s.copyBad c || s.staleGen c
  (List.range 16).foldl (fun (a : List Byte × BitVec 16 × List Nat × State) i =>
    let s := a.2.2.2
    let l := 16 * g + i
    let add := fun (bs : List Byte) (psn : Bool) (ls : List Nat) (s : State) =>
      (a.1 ++ bs, a.2.1 ||| BitVec.ofNat 16 (b2n psn * 2 ^ i), a.2.2.1 ++ ls, s)
    match s.lineAt p l with
    | some ln =>
      if s.lsmOf ln = .absent then add (s.flashLine p l) (s.flashPoison p l || noCopy) [] s
      else
        let r := s.readFor who p l ln (s.parcelFormat p)
        if s.lsmOf ln = .dirty then add r.1 r.2.1 [l] (r.2.2.moveLine ln .cleaning) else add r.1 r.2.1 [] r.2.2
    | none => add (s.flashLine p l) (s.flashPoison p l || noCopy) [] s) ([], 0, [], s)

/-- Whether a group has a line that is not in HBM. -/
def State.groupAbsent (s : State) (p g : Nat) : Bool := (List.range 16).any fun i => !s.resident p (16 * g + i)

/-- The read of a group's sector for its ABSENT lines: counted, with a CRC failure and a key generation of the past (R221, R265, R450). -/
def State.noteMerge (s : State) (t p g : Nat) : State :=
  match s.copyOf p g with
  | none => s
  | some k =>
    if !s.groupAbsent p g then s
    else
      let s := (s.bump .tier t 0x128).bump .fmc (fmcOf (s.fgroup p g).die) 0x100
      if s.staleGen (some k) then s.bump .mgt 0 0x140
      else if (s.sectorAt k).bad && !(s.fgroup p g).lost then s.sectorFail k
      else s

/-- What groups of one sector have in common: parcel, channel, key generation, and whether they are only moved. -/
def Program.same (a b : Program) : Bool :=
  decide (a.parcel = b.parcel ∧ a.chan = b.chan ∧ a.gen = b.gen ∧ a.moved = b.moved)

/-- Programs packed into sectors: those of one parcel and channel in the order of their groups, greedily while the encoded bytes fit (R160). -/
def sectorsOf (rs : List Program) : List (List Program) :=
  (rs.pwFilter fun a b => !a.same b).flatMap fun r =>
    let mine := (rs.filter r.same).mergeSort fun a b => decide (a.group ≤ b.group)
    (packGroups (mine.zipIdx.map fun x => (x.2, groupEncoded x.1.data)) 0 0 []).reverse.map fun ids => ids.filterMap fun i => mine[i]?

/-- Program a sector on a channel; groups for which flash has no page stay with the Ebb. -/
def State.stage (s : State) (c : Nat) (rs : List Program) : State :=
  (s.stageSector c rs).getD { s with tier := { s.tier with programs := s.tier.programs ++ rs } }

/-- Program sectors, each on its channel. -/
def State.programAll (s : State) (xs : List (List Program)) : State :=
  xs.foldl (fun s rs => s.stage ((rs.map (·.chan)).headD 0) rs) s

/-! ### The Ebb (R221 to R223) -/

/-- Programs under way move bytes in their order as far as the bookings go: first what they read of an old sector, on its channel, then what
they program (R221, R223, R267). -/
def State.ebbAdvance (s : State) (t : Nat) : State :=
  let o := s.tier.programs.foldl (fun (a : List Program × State) r =>
    if r.tile = t then
      let m := min r.read (a.2.ebbLeft r.readChan a.2.tick)
      let s := a.2.ebbSpend r.readChan m
      let n := if m < r.read then 0 else min r.bytes (s.ebbLeft r.chan s.tick)
      (a.1 ++ [{ r with read := r.read - m, bytes := r.bytes - n }], s.ebbSpend r.chan n)
    else (a.1 ++ [r], a.2)) ([], s)
  { o.2 with tier := { o.2.tier with programs := o.1 } }

/-- The channel on which the Ebb of tile `t` has a group programmed: the FMC's choice where bytes are left, else the first that has any
(R263; log 4). -/
def State.ebbChannel (s : State) (t : Nat) : Option Nat :=
  let c := 16 * t + Config.flashPlace s.fresh % 16
  if 0 < s.ebbLeft c s.tick then some c else ((List.range 16).map (16 * t + ·)).find? fun c => decide (0 < s.ebbLeft c s.tick)

/-- Frames of tile `t` in the Ebb order (R222): the head of the order, then by FIRST_DIRTY, lower numbers first. -/
def State.ebbFrames (s : State) (t : Nat) : List Nat :=
  let fs := ((s.tier.fht.filter fun e => decide (e.1 / 32768 / 6 = t ∧ e.2.dirtyLines ≠ 0)).map (·.1))
  let head := s.tier.ebbHead.filter fs.contains
  let rest := fs.filter fun f => !head.contains f
  head ++ rest.mergeSort fun a b =>
    let x := (s.fhtOf a).firstDirty
    let y := (s.fhtOf b).firstDirty
    later y x || (decide (x = y) && decide (a ≤ b))

/-- Groups of a frame that hold DIRTY lines, ascending. -/
def State.dirtyGroups (s : State) (f : Nat) : List Nat :=
  (((s.tier.lsm.filter fun e => decide (e.1 / 8192 = f ∧ e.2 = .dirty)).map fun e => e.1 % 8192 / 16).dedup).mergeSort

/-- The Ebb can take a group now: it is not on its way to flash, its sector can be read where it must be, and each resident line's
pseudo-channel has a slot of the Ebb share. -/
def State.ebbCan (s : State) (p g : Nat) : Bool :=
  let r := s.fgroup p g
  !s.underWay p g && !(s.groupAbsent p g && ((s.copyBad (s.copyOf p g) && !r.lost) || s.staleGen (s.copyOf p g))) &&
    (List.range 16).all fun i => match s.lineAt p (16 * g + i) with
      | some ln => decide (s.lsmOf ln = .absent) || decide (s.slotUsed 1 (stackOf ln) (s.pcOf ln) < s.share 2)
      | none => true

/-- The channel of a sector under way that a group still fits in (R160). -/
def State.joinChannel (s : State) (r : Program) : Option Nat :=
  let fits := fun (q : Program) =>
    let mine := s.tier.programs.filter q.same
    decide ((sectorsOf (mine ++ [{ r with chan := q.chan }])).length = (sectorsOf mine).length)
  (s.tier.programs.find? fun q => decide (q.tile = r.tile) && q.same { r with chan := q.chan } && fits q).map (·.chan)

/-- The Ebb takes a group: reads it, a sector of flash for its ABSENT lines among it on that sector's channel, encodes it and hands it to the
flash controller, which moves it in booked bytes on the channel of a sector of the parcel that it fits in, else on channel `c` (R160, R221,
R223). -/
def State.ebbTake (s : State) (t c p g : Nat) : State :=
  let die := (s.fgroup p g).die
  let merge := s.groupAbsent p g && (s.copyOf p g).isSome
  let s := s.noteMerge t p g
  let s := (List.range 16).foldl (fun s i => match s.lineAt p (16 * g + i) with
    | some ln => if s.lsmOf ln = .absent then s else s.useSlot 1 (stackOf ln) (s.pcOf ln)
    | none => s) s
  let o := s.takeGroup .ebb p g
  let s := o.2.2.2
  let r : Program := {
    tile := t, parcel := p, group := g, lines := o.2.2.1, data := o.1, poison := o.2.1, gen := BitVec.ofNat 16 (s.fld 0x5208 31 16),
    bytes := groupEncoded o.1, read := if merge then 4096 else 0, readChan := die / 8, chan := c }
  let r := { r with chan := (s.joinChannel r).getD c }
  { s with fresh := s.fresh + 1, tier := { s.tier with programs := s.tier.programs ++ [r] } }.ebbAdvance t

/-- EBB_CLEAN: programs under way move on, and the first group of the Ebb order that can be taken is taken. -/
def State.ebbClean (s : State) (t : Nat) : State :=
  if s.ebbStopped || !s.hasFlash then s
  else
    let s := s.ebbAdvance t
    let s := { s with tier := { s.tier with ebbHead := s.tier.ebbHead.filter fun f => decide ((s.fhtOf f).dirtyLines ≠ 0) } }
    match s.ebbChannel t with
    | none => s
    | some c =>
      let cands := (s.ebbFrames t).flatMap fun f => (s.dirtyGroups f).map fun g => ((s.fhtOf f).parcel, g)
      match cands.find? fun c => s.ebbCan c.1 c.2 with
      | some x => s.ebbTake t c x.1 x.2
      | none => s

/-- PROGRAM_CONFIRM: sectors whose bytes are all in are programmed, and each stripe whose parity page is in confirms its groups; those of an
earlier key generation are dropped (R223, R263, R450). EBB_BYTES counts what the Ebb's programs hold. -/
def State.programConfirm (s : State) (t : Nat) : State :=
  let ready := (sectorsOf (s.tier.programs.filter fun r => decide (r.tile = t))).filter fun x => x.all fun r => decide (r.bytes = 0 ∧ r.read = 0)
  let s := { s with tier := { s.tier with programs := s.tier.programs.filter fun r => !ready.any fun x => x.contains r } }
  let now := fun (x : List Program) => x.all fun r => decide (r.gen.toNat = s.fld 0x5208 31 16)
  let s := (ready.filter fun x => !now x).foldl (fun s _ => s.bump .mgt 0 0x140) s
  let s := ((ready.filter now).flatten.filter fun r => !r.moved).foldl (fun s r => s.bumpN .tier t 0x130 (groupEncoded r.data)) s
  s.programAll (ready.filter now)

/-! ### Flash failures (R265 to R267) -/

/-- PROGRAM_FAIL: the block is retired as grown bad; what open stripes had programmed on its pages is programmed again elsewhere from the
write buffer (R266). Without an open stripe on the die the block is the FMC's (log 154). -/
def State.programFail (s : State) (d : Nat) (erase : Bool) : State :=
  if !s.hasFlash || s.dieFailed d then s
  else
    let s := s.error .fmc (fmcOf d) { evtBit := 2, code := if erase then 0x128 else 0x120, d3 := BitVec.ofNat 64 d }
    let open' := (s.tier.stripes.filter fun x => !x.closed && !erase).flatMap (·.sites)
    match open'.find? fun y => decide (y.1 = d) with
    | none => ({ s with fresh := s.fresh + 1 }).retireBlock d (Config.flashPlace s.fresh)
    | some y => s.retireBlock d (blockOf y.2)

/-- SECTOR_REBUILD: the sector of a group fails its CRC and its page waits for its rebuild, or that rebuild goes on (R265). -/
def State.sectorRebuild (s : State) (p g : Nat) (secondFails : Bool) : State :=
  let r := s.fgroup p g
  match s.copyOf p g with
  | none => s
  | some k =>
    if !s.hasFlash || s.tierStopped || r.lost then s
    else if s.staleGen (some k) then s.bump .mgt 0 0x140
    else match s.tier.rebuilds.find? fun j => decide (j.die = r.die ∧ j.page = r.page) with
      | none => (if (s.sectorAt k).bad then s else (s.sectorFail k).markBad k).queueRebuild r.die r.page false
      | some j => s.advanceRebuild j secondFails

/-- The valid groups of a sector as programs that move it to channel `c`, each with its part of the sector's read. -/
def State.moveSector (s : State) (p g c : Nat) : List Program :=
  let r := s.fgroup p g
  let gs := s.sectorGroups p g
  gs.zipIdx.map fun i => {
    tile := c / 16, parcel := p, group := i.1, lines := [], data := s.flashGroup p i.1, poison := (s.sectorAt r.key).poisonOf i.1,
    gen := (s.sectorAt r.key).gen, bytes := groupEncoded (s.flashGroup p i.1),
    read := 4096 * (i.2 + 1) / gs.length - 4096 * i.2 / gs.length, readChan := r.die / 8, chan := c, moved := true }

/-- RELOCATE: the sector of a group is read and handed over to move to a new place, in bytes booked for the Ebb (R267). Log 85. -/
def State.relocate (s : State) (p g : Nat) : State :=
  let r := s.fgroup p g
  let t := r.die / 128
  if !s.hasFlash || s.ebbStopped || !r.stored || r.lost || s.copyBad (s.copyOf p g) || (s.sectorGroups p g).any (s.underWay p) then s
  else if s.staleGen (s.copyOf p g) then s.bump .mgt 0 0x140
  else match s.ebbChannel t with
    | none => s
    | some c =>
      let ps := s.moveSector p g c
      let s := s.bump .fmc (fmcOf r.die) 0x100
      ({ s with fresh := s.fresh + 1, tier := { s.tier with programs := s.tier.programs ++ ps } }).ebbAdvance t

/-! ### Repair rewrites (R257) -/

/-- FORMAT that a line's frame requires: its extent's; 0 in directory frames and in the regions (R141, R250, R277). -/
def State.frameFormat (s : State) (h : Fht) : Nat := if h.dirFrame || decide (h.st = .free) then 0 else s.parcelFormat h.parcel

/-- Perform a queued rewrite: the data and the poison that were queued, or the line as it is with POISON 1. What firmware keeps of a table
line is no part of it. -/
def State.rewrite (s : State) (r : Repair) : State :=
  let h := s.fhtOf (r.line / 8192)
  let v := r.data.getD (s.rdBs (r.line * 256) 256, true)
  let tag := if h.dirFrame || decide (h.st = .free) then none else some (poolTag h.parcel (r.line % 8192))
  let s' := s.writeLine (r.line * 256) v.1 v.2 false (BitVec.ofNat 4 (s.frameFormat h)) (decide (h.st = .mirror)) tag
  { s' with fw := { s'.fw with masters := s.fw.masters } }

/-- REPAIR_REWRITE: the oldest queued rewrite of a pseudo-channel runs in a free slot; one whose frame is gone is dropped. -/
def State.repairRewrite (s : State) (st pc : Nat) : State :=
  match s.hmc.repairs.find? fun r => decide (r.stack = st ∧ r.pc = pc) with
  | none => s
  | some r =>
    let (ok, s') := s.spareSlot st pc
    if !ok then s'
    else
      let s := { s' with hmc := { s'.hmc with repairs := s'.hmc.repairs.erase r } }
      let inFrame := decide (s.firstFrame st ≤ r.line / 8192 % 32768)
      if inFrame && decide ((s.fhtOf (r.line / 8192)).st = .free) then s else s.rewrite r

/-! ### The Dredge (R268 to R270) -/

/-- First line at offset `o` or beyond of a region that starts at offset `base` and has `n` lines, on a pseudo-channel. -/
def regionNext (base n pc o : Nat) : Option Nat :=
  let k := max o base - base
  let c := k + (pc + 64 - k % 64) % 64
  if c < n then some (base + c) else none

/-- Whether the Dredge reads a line of a frame in use: one whose LSM state is not ABSENT; mirrors follow their primary. -/
def State.dredgeable (s : State) (f l : Nat) : Bool :=
  let h := s.fhtOf f
  let g := if h.st = .mirror then h.mirrorFrame else f
  decide (h.st ≠ .free) && (!s.hasFlash || h.dirFrame || decide (s.lsmOf (g * 8192 + l) ≠ .absent))

/-- The next line in use of a pseudo-channel at offset `o` or beyond in its stack (R268). -/
def State.dredgeNext (s : State) (st pc o : Nat) : Option Nat :=
  let hu := 16 * unitsOn s.hostUnits st
  let cu := 16 * unitsOn ctlUnits st
  let region := match regionNext 0 hu pc o with
    | some x => some x
    | none => regionNext hu cu pc o
  match region with
  | some x => some x
  | none =>
    let fs := (s.tier.fht.filter fun e => decide (e.1 / 32768 = st ∧ o ≤ e.1 % 32768 * 8192 + 8191)).map (·.1)
    fs.findSome? fun f =>
      ((List.range 128).map fun i => 64 * i + pc).findSome? fun l =>
        let x := f % 32768 * 8192 + l
        if o ≤ x ∧ s.dredgeable f l = true then some x else none

/-- Keys of the parts of a tile's lap: its pseudo-channels, or its channels from 1,536 on. -/
def lapKeys (t : Nat) (flash : Bool) : List Nat :=
  if flash then (List.range 16).map (1536 + 16 * t + ·) else (List.range 384).map (384 * t + ·)

/-- How far a tile's lap in progress has come, in percent: by the lines of each stack already passed, or by pages read (R273). -/
def State.lapPercent (s : State) (t : Nat) (flash : Bool) : Nat :=
  let wrapped := fun (k : Nat) => sget (fun _ => false) s.hmc.wrapped k
  if flash then
    let total := ((lapKeys t true).map fun k => (s.patrolPages (k - 1536)).length).sum
    min 99 (100 * ((lapKeys t true).map fun k => sget (fun _ => 0) s.hmc.patrolDone (k - 1536)).sum / max 1 total)
  else
    min 99 (100 * ((lapKeys t false).map fun k => if wrapped k then 2 ^ 28 else min (2 ^ 28) (sget (fun _ => 0) s.hmc.dredgePos k)).sum / (384 * 2 ^ 28))

/-- A lap ends when every pseudo-channel, or channel, of the tile has wrapped: its length, the lap count and the event (R270); until then
DRG_POS shows how far it has come. `flash` picks the lap. -/
def State.endLap (s : State) (t : Nat) (flash : Bool) : State :=
  let keys := lapKeys t flash
  let o := rOff .drg t (if flash then 0x210 else 0x208)
  let lk := if flash then 4 + t else t
  let pct := fun (s : State) (n : Nat) => if flash then s.setFld (rOff .drg t 0x220) 15 8 n else s.setFld (rOff .drg t 0x220) 7 0 n
  if keys.all fun k => sget (fun _ => false) s.hmc.wrapped k then
    let len := tsub s.tick (sget (fun _ => 0) s.hmc.lapStart lk)
    let s := s.setReg o (place 63 48 (s.fld o 63 48 + 1) ||| place 47 0 len)
    let h' := { s.hmc with
      wrapped := s.hmc.wrapped.filter fun e => !keys.contains e.1
      patrolDone := if flash then s.hmc.patrolDone.filter fun e => !keys.contains (1536 + e.1) else s.hmc.patrolDone
      lapStart := sset (fun _ => 0) s.hmc.lapStart lk s.tick
      slowMarked := sset (fun _ => false) s.hmc.slowMarked lk false }
    pct ({ s with hmc := h' }.raise .drg t (b2n flash)) 0
  else pct s (s.lapPercent t flash)

/-- Mark a part wrapped and look for the end of the lap. -/
def State.wrap (s : State) (t k : Nat) (flash : Bool) : State :=
  ({ s with hmc := { s.hmc with wrapped := sset (fun _ => false) s.hmc.wrapped k true } }).endLap t flash

/-- Count a failure that a Dredge read found, and by what it left in the repair queue or with the background fetches how it ends; one
whose rewrite found no room ends otherwise at a later visit (R257, R273). -/
def State.dredgeFound (s : State) (t ln : Nat) : State :=
  let h := s.fhtOf (ln / 8192)
  let refetched := s.tier.fetches.any fun f => f.refetch && decide (f.parcel = h.parcel) && f.lines.contains (ln % 8192)
  let s := (s.bump .drg t 0x108).raise .drg t 3
  match s.hmc.repairs.find? fun r => decide (r.line = ln) with
  | some r => s.bump .drg t (if r.data.isSome then 0x110 else 0x118)
  | none => if refetched then s.bump .drg t 0x110 else s

/-- A mirror line that fails its check is rewritten from its primary, when that passes: the Dredge reads it in a slot of its own (R268). -/
def State.dredgeMirror (s : State) (t : Nat) (h : Fht) (ln : Nat) : State :=
  let l := ln % 8192
  let pl := h.mirrorFrame * 8192 + l
  let s := s.bump .hmc (stackOf ln) 0x100
  let bad := fun (s : State) (ln : Nat) (mir : Bool) =>
    if h.dirFrame then s.dirLineBad ln mir else s.lineBad ln h.parcel l (s.frameFormat h) mir
  if bad s ln true then
    let s := if h.dirFrame then s.noteDirFail ln else s.noteCrcFail h.parcel l ln
    match (if s.rewriteWaits (stackOf pl) (s.pcOf pl) || s.cohWaits (stackOf pl) (s.pcOf pl) then (false, s) else s.spareSlot (stackOf pl) (s.pcOf pl)) with
    | (false, s) => s.dredgeFound t ln
    | (true, s) =>
      let s := s.bump .hmc (stackOf pl) 0x100
      (if bad s pl false then s else s.queueRepair ln (some (s.rdBs (pl * 256) 256, (s.meta' pl).poison))).dredgeFound t ln
  else s

/-- The coherent domain whose directory a directory frame holds: the extent that names the frame, and its domain (R274, R277). -/
def State.dirDomain (s : State) (f : Nat) : Option Nat :=
  (s.liveExtents.find? fun x =>
    let e := s.exttNow x
    e.coherent && (List.range e.parcels).any fun i => decide (s.dirAddr e (8192 * i) / 2 ^ 21 = f)).map fun x => (s.exttNow x).domain

/-- A directory line (R277) that fails its check: from its mirror, or poisoned, its domain then going DOWN with DIR_CRC (R255, R256,
R292). -/
def State.dredgeDir (s : State) (t : Nat) (h : Fht) (ln : Nat) : State :=
  let ml := h.mirrorFrame * 8192 + ln % 8192
  let s := s.bump .hmc (stackOf ln) 0x100
  if s.dirLineBad ln false then
    let s := s.noteDirFail ln
    let down := fun (s : State) => match s.dirDomain (ln / 8192) with
      | some d => s.detectDown d 3 0 t
      | none => s
    let lost := fun (s : State) => down ((s.queueRepair ln none).dredgeFound t ln)
    if h.assured then
      match s.tryMirror .dredge ln ml (s.dirLineBad ml true) (fun s => s.noteDirFail ml) with
      | (.serves _ psn, s) => let s := s.dredgeFound t ln; if psn then down s else s
      | (.fails, s) => lost s
      | (.noSlot, s) => s.dredgeFound t ln
    else lost s
  else s

/-- Read and check one line for the Dredge. -/
def State.dredgeLine (s : State) (t ln : Nat) : State :=
  let s := s.bump .drg t 0x100
  let h := s.fhtOf (ln / 8192)
  if ln / 8192 % 32768 < s.firstFrame (stackOf ln) then
    let bad := s.regionLineBad ln
    let s := (s.readRegionFor .dredge ln).2.2
    if bad then s.dredgeFound t ln else s
  else if h.st = .mirror then s.dredgeMirror t h ln
  else if h.dirFrame then s.dredgeDir t h ln
  else
    let fmt := s.parcelFormat h.parcel
    let bad := s.lineBad ln h.parcel (ln % 8192) fmt false
    let s := (s.readFor .dredge h.parcel (ln % 8192) ln fmt).2.2
    if bad then s.dredgeFound t ln else s

/-- DREDGE_READ: the next line in use of a pseudo-channel, in a slot left unused after its repair queue. Log 79. -/
def State.dredgeRead (s : State) (st pc : Nat) : State :=
  let t := st / 6
  if s.tierStopped || decide (s.fld (rOff .drg t 0x200) 0 0 = 0) || s.rewriteWaits st pc || s.cohWaits st pc then s
  else
    let (ok, s) := s.spareSlot st pc
    if !ok then s
    else
      let k := st * 64 + pc
      let seek := fun (s : State) (x : Nat) =>
        let s := { s with hmc := { s.hmc with dredgePos := sset (fun _ => 0) s.hmc.dredgePos k (x + 1) } }
        (s.dredgeLine t (st * 2 ^ 28 + x)).setFld (rOff .drg t 0x220) 7 0 (s.lapPercent t false)
      match s.dredgeNext st pc (sget (fun _ => 0) s.hmc.dredgePos k) with
      | some x => seek s x
      | none =>
        let s := s.wrap t k false
        match s.dredgeNext st pc 0 with
        | some x => seek s x
        | none => s

/-- A patrolled sector fails its CRC: its page is to be rebuilt, but for a sector whose groups are lost already (R265, R269). -/
def State.patrolFail (s : State) (t d page i : Nat) : State :=
  let k := siteKey d page i
  let s := (s.bump .drg t 0x128).raise .drg t 3
  if (s.pageGroups d page fun x => decide (x = k)).any fun g => (s.fgroup g.1 g.2).lost then s
  else ((s.sectorFail k).markBad k).queueRebuild d page true

/-- The page at the head of a channel's patrol has been dealt with. -/
def State.patrolShift (s : State) (c : Nat) : State :=
  { s with hmc := { s.hmc with
    patrolBytes := sset (fun _ => 0) s.hmc.patrolBytes c (sget (fun _ => 0) s.hmc.patrolBytes c - 16384)
    patrolSense := sset (fun _ => []) s.hmc.patrolSense c (sget (fun _ => []) s.hmc.patrolSense c).tail } }

/-- PATROL_READ: the patrol of a channel reads the programmed page that it has sensed once the bytes booked for it have moved; `bad` names
the sectors that fail their CRC (R269). A channel without a programmed page wraps at once; a page that has been erased meanwhile is passed
over. Log 83. -/
def State.patrolRead (s : State) (c : Nat) (bad : List Nat) : State :=
  let t := c / 16
  let key := 1536 + c
  if !s.patrolOn t then s
  else match s.patrolNext c, s.patrolHead c with
    | none, _ => s.wrap t key true
    | some _, none => s
    | some _, some (k, _) =>
      if sget (fun _ => 0) s.hmc.patrolBytes c < 16384 then s
      else
        let last := s.patrolPos c
        let live := (s.patrolPages c).contains k
        let s := s.patrolShift c
        if !live then s
        else
          let h' := { s.hmc with
            dredgePos := sset (fun _ => 0) s.hmc.dredgePos key (k + 1)
            patrolDone := sset (fun _ => 0) s.hmc.patrolDone c (sget (fun _ => 0) s.hmc.patrolDone c + 1) }
          let s := { s with hmc := h' }
          let s := if k < last then s.wrap t key true else s.setFld (rOff .drg t 0x220) 15 8 (s.lapPercent t true)
          let s := (s.bump .drg t 0x120).bumpN .fmc (c / 4) 0x100 4
          bad.dedup.foldl (fun s i => s.patrolFail t (k / 2 ^ 24) (k % 2 ^ 24) i) s

/-- One lap's limit: LAP_SLOW once per lap (R270). -/
def State.slowLap (s : State) (t lk limitNs : Nat) : State :=
  let len := tsub s.tick (sget (fun _ => 0) s.hmc.lapStart lk)
  if limitNs < len * s.periodNs ∧ sget (fun _ => false) s.hmc.slowMarked lk = false then
    { s with hmc := { s.hmc with slowMarked := sset (fun _ => false) s.hmc.slowMarked lk true } }.raise .drg t 2
  else s

/-- LAP_SLOW for both laps of a tile. -/
def State.lapSlow (s : State) (t : Nat) : State :=
  let s := s.slowLap t t (s.fld (rOff .drg t 0x218) 15 0 * 10 ^ 9)
  if s.hasFlash then s.slowLap t (4 + t) (s.fld (rOff .drg t 0x218) 31 16 * 3600 * 10 ^ 9) else s

/-! ### Calibration and refresh -/

/-- CAL_PROBE: the next byte lane and direction of a pseudo-channel is probed, one pair in a tick; its centre moves away from the one side
that fails (R249). -/
def State.calProbe (s : State) (st pc : Nat) (minusOk plusOk : Bool) : State :=
  let k := st * 64 + pc
  if s.fld (rOff .hmc st 0x210) 0 0 = 0 ∨ sget (fun _ => 0) s.hmc.calTick k = s.tick + 1 then s
  else
    let i := sget (fun _ => 0) s.hmc.calPos k
    let lane := (st * 256 + pc * 4 + i / 2) * 2 + i % 2
    let tr := sget (fun _ => ({} : LaneTrain)) s.hmc.trained lane
    let h' := { s.hmc with
      calPos := sset (fun _ => 0) s.hmc.calPos k ((i + 1) % 8)
      calTick := sset (fun _ => 0) s.hmc.calTick k (s.tick + 1) }
    let s := { s with hmc := h' }
    let move := fun (d : Nat) =>
      ({ s with hmc := { s.hmc with trained := sset (fun _ => ({} : LaneTrain)) s.hmc.trained lane { tr with delay := d } } }).bump .hmc st 0x170
    if minusOk && plusOk then s
    else if plusOk then move (min 127 (tr.delay + 1))
    else if minusOk then move (tr.delay - 1)
    else s.raise .hmc st 3

/-! ### Rows -/

/-- BACKGROUND_FETCH_FILL (R217). -/
def execBackgroundFetchFill (parcel : Nat) (group : Fin 512) (s : State) : Host.Outcome State Fault Refusal :=
  .next (s.backgroundFill parcel group)

/-- EBB_CLEAN (R221). -/
def execEbbClean (tile : Fin 4) (s : State) : Host.Outcome State Fault Refusal := .next (s.ebbClean tile)

/-- PROGRAM_CONFIRM (R263). -/
def execProgramConfirm (tile : Fin 4) (s : State) : Host.Outcome State Fault Refusal := .next (s.programConfirm tile)

/-- PROGRAM_FAIL (R266). -/
def execProgramFail (die : Fin 512) (erase : Bool) (s : State) : Host.Outcome State Fault Refusal := .next (s.programFail die erase)

/-- SECTOR_REBUILD (R265). -/
def execSectorRebuild (parcel : Nat) (group : Fin 512) (secondFails : Bool) (s : State) : Host.Outcome State Fault Refusal :=
  .next (s.sectorRebuild parcel group secondFails)

/-- RELOCATE (R267). -/
def execRelocate (parcel : Nat) (group : Fin 512) (s : State) : Host.Outcome State Fault Refusal := .next (s.relocate parcel group)

/-- REPAIR_REWRITE (R257). -/
def execRepairRewrite (stack : Fin 24) (pc : Fin 64) (s : State) : Host.Outcome State Fault Refusal := .next (s.repairRewrite stack pc)

/-- DREDGE_READ (R268). -/
def execDredgeRead (stack : Fin 24) (pc : Fin 64) (s : State) : Host.Outcome State Fault Refusal := .next (s.dredgeRead stack pc)

/-- PATROL_READ (R269): one channel of a flash stack of a tile, and the sectors that fail. -/
def execPatrolRead (tile fmc channel : Fin 4) (bad : List (Fin 4)) (s : State) : Host.Outcome State Fault Refusal :=
  .next (s.patrolRead (16 * tile.val + 4 * fmc.val + channel.val) (bad.map (·.val)))

/-- LAP_SLOW (R270). -/
def execLapSlow (tile : Fin 4) (s : State) : Host.Outcome State Fault Refusal := .next (s.lapSlow tile)

/-- CAL_PROBE (R249). -/
def execCalProbe (stack : Fin 24) (pc : Fin 64) (minusOk plusOk : Bool) (s : State) : Host.Outcome State Fault Refusal :=
  .next (s.calProbe stack pc minusOk plusOk)

/-- REFRESH (R243): data and registers keep their values; the model counts the refreshes. -/
def execRefresh (_stack : Fin 24) (s : State) : Host.Outcome State Fault Refusal :=
  .next { s with hmc := { s.hmc with refreshes := s.hmc.refreshes + 1 } }

end Sys2Proof.Machine
end

