-- ==== Sys2Proof/Machine/Power.lean ====
section
/-! DEFINITION. Power and the drain: the Reservoir's polls and capacitance test (R224 to R228), power failure (R233, R500), notices
(R433, R434), the drain and its end (R233 to R237, R519), and the reset inputs (R500 to R504). -/

namespace Sys2Proof.Machine

/-! ### The Reservoir (R224 to R228) -/

/-- Both charger writes of R228. -/
def State.writeCharger (s : State) : State :=
  (s.emit (.pmbus 0xD0 (s.fld 0x4240 15 0))).emit (.pmbus 0xD1 (s.fld 0x4240 16 16))

/-- PMBUS_POLL: status, voltage, current and temperature. After three failed polls in a row PMBUS_OK clears; after a recovery, and
while the bank is below its float level and no test runs, the charger is written (R225, R227, R228; the float level is a free value,
log 48). Nothing polls while the main rails are off (R15). Log 89. -/
def State.pmbusPoll (s : State) (p : PmbusSample) : State :=
  if !s.pins.mainPg then s
  else if p.ok then
    let recovered := decide (s.fld 0x4248 1 1 = 0)
    let s := s.setReg 0x4200 (setBits (setBits (s.reg 0x4200) 31 16 p.vinMv) 55 48 (ofInt 8 p.tempC))
    let s := { s with rsv := { s.rsv with fails := 0, vpmb := some p.vinMv } }.setFld 0x4248 1 1 1
    let low := decide (s.rsv.v < Config.floatMv 0)
    if recovered || (low && s.rsv.capTestStartMv.isNone) then s.writeCharger else s
  else
    let n := s.rsv.fails + 1
    let s := { s with rsv := { s.rsv with fails := n } }.bumpN .rsv 0 0x108 (max 1 p.failed)
    if n = 3 then
      let was := s.fld 0x4248 1 1
      let s := { s with rsv := { s.rsv with vpmb := none } }.setFld 0x4248 1 1 0
      if was = 1 then s.raise .rsv 0 1 else s
    else s

/-- CAP_TEST_START: the first test of a start, or CAP_TEST_H hours after the last (0: none): the charger stops and the test load
connects. -/
def State.capTestStart (s : State) : State :=
  let h := s.fld 0x4218 55 48
  let due := decide (s.rsv.lastTest = 0) || (decide (h ≠ 0) && decide (s.rsv.lastTest + h * 3600 * 10 ^ 9 ≤ s.tim.netTime + 1))
  if s.rsv.capTestStartMv.isSome || decide (s.fld 0x4248 0 0 = 0) || !due || s.rsv.drain.isSome then s
  else
    let s := { s with rsv := { s.rsv with capTestStartMv := some s.rsv.v, testCharge := 0 } }.setFld 0x4248 6 6 1
    (s.emit (.pmbus 0xD1 0)).emit (.pmbus 0xD3 1)

/-- CAP_TEST_DONE: once V has fallen 1.0 V, C = ∫I dt / 1.0 V: the charge in mC is C in mF. `last` is the charge of the tick in which the test
ends (R227; log 21). -/
def State.capTestDone (s : State) (last : Nat) : State :=
  let mc := s.rsv.testCharge / 10 ^ 8 + last
  match s.rsv.capTestStartMv with
  | some v0 =>
    if s.rsv.v + 1000 ≤ v0 then
      let s := { s with rsv := { s.rsv with capTestStartMv := none, lastTest := s.tim.netTime + 1 } }.setFld 0x4248 6 6 0
      let s := (s.setFld 0x4208 23 0 mc).bump .rsv 0 0x100
      let s := ((s.emit (.pmbus 0xD3 0)).emit (.pmbus 0xD1 (s.fld 0x4240 16 16))).raise .rsv 0 4
      let aged := match s.rsv.ratedMf with
        | some r => decide (mc * 100 < s.fld 0x4218 62 56 * r)
        | none => false
      if aged then s.raise .rsv 0 5 else s
    else s
  | none => s

/-! ### Power failure and flush (R233, R239, R294, R500) -/

/-- Begin a drain in this tick: work that does not land is discarded, ACTIVE domains go DOWN, background fetches stop. `quiet`: the
work has been discarded already by another event (R418, R456). -/
def State.beginDrain (s : State) (why : DrainFor) (cause : Nat) (noDrain quiet : Bool) : State :=
  let s := if quiet then s.stopAdmission
    else (s.discardAll { cause := cause, scope := 0, landed := true, x := s.tick, send := tadd s.tick 1 }).allDomainsDown
  let s := s.setFld 0x4248 7 7 (b2n (!noDrain))
  { s with rsv := { s.rsv with drain := some { why := why, f0 := s.tick, noDrain := noDrain } },
           tier := { s.tier with fetches := [], rebuilds := s.tier.rebuilds.map fun (j : Rebuild) => { j with left := 16384 } } }

/-- The device is in a start that has not yet opened admission (R500). -/
def State.starting (s : State) : Bool := !s.opened

/-- A qualified PWR_FAIL_N, or a thermal trip that acts as one (R233, R5, R453, R456, R500, R515). Log 58. Log 133. -/
def State.powerStop (s : State) : State :=
  if !s.pins.coldRstN || s.rsv.dead then s
  else match s.rsv.drain with
    | some d =>
      match d.why with
      | .power => s
      | _ => { s with rsv := { s.rsv with drain := some { d with why := .power } } }
    | none =>
      if s.starting then s.beginDrain .power 1 true true
      else if s.fld 0x5200 2 0 = 3 then
        -- a release: its own discard covers the work at or after X
        s.beginDrain .power 1 true (tle (s.fld 0x5210 47 0) s.tick)
      else s.beginDrain .power 1 (!s.hasFlash) false

/-- PWR_FAIL: the assertion is qualified in this tick, F0; with the main rails off it stops nothing (R15). -/
def State.powerFail (s : State) : State :=
  let s := { s with pins := { s.pins with pwrFailN := false } }
  if s.pins.mainPg then (if s.pins.coldRstN then s.raise .rsv 0 6 else s).powerStop else s

/-! ### DISCARD notices (R433, R434) -/

/-- The notice packet. -/
def State.noticePkt (s : State) (n : Notice) : Packet :=
  mkPacket n.dst s.devEid n.ctx 0x23 s.rspVc true 0 (respField stDiscarded n.x 0 true)
    (wordsBytes [place 47 0 n.first ||| place 51 48 n.cause.toNat ||| place 53 52 n.scope.toNat ||| place 54 54 (b2n n.landed),
      place 47 0 n.last, place 47 0 n.x,
      (if n.scope = 1 then place 11 0 n.domain ||| place 31 16 n.domEpoch.toNat else 0) ||| (if n.scope = 2 then place 36 32 n.port else 0)]) []

/-- DISCARD_NOTICE_SEND: the notices whose tick has come enter the control service in ascending CTXID, each on the first usable
port of its owner's route; without one it is lost. -/
def State.sendNotices (s : State) : State :=
  let due := (s.adm.notices.filter fun n => tle n.sendTick s.tick).mergeSort fun a b => decide (a.ctx.toNat ≤ b.ctx.toNat)
  let s := { s with adm := { s.adm with notices := s.adm.notices.filter fun n => !tle n.sendTick s.tick } }
  due.foldl (fun s n => match s.firstUsable n.dst with
    | some p => s.sendCtrl p (s.noticePkt n) .notice
    | none => s.bump .rtr 0 0x198) s

/-- The ports stop at F0 + 2: notices that have not begun to leave are lost (R434). R346 has no cause of its own for it: DRIVER (log 178). -/
def State.stopPorts (s : State) : State :=
  let s := (List.range 32).foldl (fun s p =>
    let c := s.sched p
    let n := (c.queue.filter fun e => decide (e.cls = .notice)).length
    (s.setSched p { c with queue := [] }).bumpN .rtr (p / 8) 0x198 n) s
  (List.range 32).foldl (fun s p => if s.linkState p = 0 then s else ((s.setCause p 6).setLinkState p 1).setFld (rOff .lnk p 0x210) 15 3 0) s

/-! ### The drain (R233 to R237) -/

/-- Groups that hold a line in E or M of a coherent extent, which the drain's sweep of the directories finds (R294). -/
def State.ownedGroups (s : State) : List (Nat × Nat) :=
  let ds := (s.coh.doms.filter fun e => decide (e.2.st = .down)).map (·.1)
  let ls := ds.flatMap fun d => (List.range 4).flatMap fun t => s.dirLines d t
  (ls.flatMap fun l =>
    let e := s.exttNow l.1
    (List.range 32).filterMap fun i =>
      let w := (s.readDir e (l.2 + i)).1.getD (dirOne 3 0)
      if dOwned w then some ((s.parcelOf e ((l.2 + i) * 256)).1, (l.2 + i) % 8192 / 16) else none).dedup

/-- Forget what is on its way to flash of a group that is written anew. -/
def State.dropWay (s : State) (p g : Nat) : State :=
  let other := fun (r : Program) => !decide (r.parcel = p ∧ r.group = g)
  { s with tier := { s.tier with
    programs := s.tier.programs.filter other
    stripes := s.tier.stripes.map fun (x : Stripe) => { x with waiting := x.waiting.map fun w => (w.1, w.2.filter other) } } }

/-- Write a group whole, from HBM and its old sector, as the Ebb would (R221, R233). -/
def State.drainGroup (s : State) (t p g : Nat) : Program × State :=
  let o := ((s.dropWay p g).noteMerge t p g).takeGroup .drain p g
  ({ tile := t, parcel := p, group := g, lines := (List.range 16).map (16 * g + ·), data := o.1, poison := o.2.1,
     gen := BitVec.ofNat 16 (s.fld 0x5208 31 16), bytes := 0 }, o.2.2.2)

/-- Groups of tile `t` that hold DIRTY or CLEANING lines, in the Ebb order (R222, R233), but for those without a DIRTY line that are on
their way. -/
def State.drainOrder (s : State) (t : Nat) : List (Nat × Nat) :=
  (s.ebbFrames t).flatMap fun f =>
    let gs := (((s.tier.lsm.filter fun e => decide (e.1 / 8192 = f) && e.2.unclean).map fun e => e.1 % 8192 / 16).dedup).mergeSort
    let p := (s.fhtOf f).parcel
    (gs.filter fun g => !s.underWay p g || (s.dirtyGroups f).contains g).map fun g => (p, g)

/-- Groups that the running drain cannot read (R427). -/
def State.unreadable (s : State) : List (Nat × Nat) := (s.rsv.drain.map (·.unread)).getD []

/-- Groups that the drain of a tile still takes. -/
def State.drainLeft (s : State) (t : Nat) : List (Nat × Nat) := (s.drainOrder t).filter fun x => !s.unreadable.contains x

/-- Read groups in order while their encoded bytes fit in what is left. -/
def State.drainTake (t : Nat) : List (Nat × Nat) → Option Nat → List Program → State → List Program × State
  | [], _, acc, s => (acc.reverse, s)
  | c :: r, left, acc, s =>
    let o := s.drainGroup t c.1 c.2
    let n := groupEncoded o.1.data
    match left with
    | some b => if n ≤ b then State.drainTake t r (some (b - n)) (o.1 :: acc) o.2 else (acc.reverse, s)
    | none => State.drainTake t r none (o.1 :: acc) o.2

/-- Drain tile `t` as far as `left` bytes go (none: to the end): what is read is packed into sectors, each on a channel of the FMC's choice
(R160; log 4). -/
def State.drainTile (s : State) (t : Nat) (left : Option Nat) : State :=
  let o := State.drainTake t (s.drainLeft t) left [] s
  (sectorsOf o.1).foldl (fun s x =>
    ({ s with fresh := s.fresh + 1 }).stage (16 * t + Config.flashPlace s.fresh % 16) x) o.2

/-- Bytes that a tile has programmed since the drain began, at the full program rate of its 16 channels (R223, R233). -/
def State.drainBytes (s : State) (d : Drain) : Nat := (tsub s.tick (tadd d.f0 2) + 1) * s.bFull

/-- Encoded bytes that a tile still has to program. -/
def State.drainNeed (s : State) (t : Nat) : Nat :=
  (State.drainTake t (s.drainLeft t) none [] s).1.foldl (fun a r => a + groupEncoded r.data) 0

/-- DRAIN_DONE rises and the device stays stopped (R235, R502). A COLD_RST_N that fell during the drain takes effect then (R503). -/
def State.drainDone (s : State) : State :=
  { s with pins := { s.pins with drainDone := true }, rsv := { s.rsv with dead := true, drain := none } }.setFld 0x4248 7 7 0 |>.endReset 6

/-- DRAIN_BEGIN at F0 + 2: on a power failure the ports, engines, cores and UCIe modules stop; where no drain runs DRAIN_DONE rises
at once (R519). Ebb programs already handed over complete. Log 87. -/
def State.drainBegin (s : State) : State :=
  match s.rsv.drain with
  | none => s
  | some d =>
    if d.begun || later (tadd d.f0 2) s.tick then s
    else
      let power := decide (d.why = .power)
      let s := if power then
          let s := s.stopPorts
          (List.range 4).foldl (fun s m => s.setFld (rOff .uci 0 (0x200 + 8 * m)) 1 0 0) s
        else s
      if d.noDrain then s.drainDone
      else
        let s := { s with rsv := { s.rsv with drain := some { d with begun := true } } }
        (List.range 4).foldl (fun s t =>
          let rs := s.tier.programs.filter fun r => decide (r.tile = t)
          let s := { s with tier := { s.tier with programs := s.tier.programs.filter fun r => decide (r.tile ≠ t) } }
          s.programAll (sectorsOf (rs.filter fun r => decide (r.gen.toNat = s.fld 0x5208 31 16)))) s

/-- DRAIN_ENERGY_STOP: E_usable has fallen to E_fixed / 2; the tiles have written what their time allowed (R234). Log 88. -/
def State.energyStop (s : State) : State :=
  match s.rsv.drain with
  | none => s
  | some d =>
    if !d.begun || d.energyStop || decide (d.why ≠ .power) || decide (s.fld 0x4218 47 32 * 10 ^ 12 < s.rsv.energy) then s
    else
      let s := (List.range 4).foldl (fun s t => s.drainTile t (some (s.drainBytes d))) s
      { s with rsv := { s.rsv with drain := some { d with energyStop := true } } }

/-! ### Checkpoints (R237) -/

/-- Entries of the active EXTT bank that are not all zero. -/
def State.exttEntries (s : State) : List (Nat × List Word) :=
  let base := s.bankBase .extt (s.activeBank .extt)
  let xs := ((s.hbm.map fun c => s.lineHpa (c.1 / 256) + c.1 % 256).filter fun a => decide (base ≤ a ∧ a < base + 262144 * 64)).map fun a => (a - base) / 64
  (xs.dedup.mergeSort).map fun x => (x, s.entryMem .extt (s.activeBank .extt) x)

/-- A checkpoint of the pool as it stands. Log 93. -/
def State.makeCheckpoint (s : State) (closed : Bool) (seq : Nat) (lost : List (Nat × Nat)) : Checkpoint :=
  let xs := (s.liveExtents.filter fun x => (s.exttNow x).valid).mergeSort
  { valid := true
    closed := closed
    seq := seq
    tick := s.tick
    epoch := BitVec.ofNat 32 (s.fld 0x5200 63 32)
    keyGen := BitVec.ofNat 16 (s.fld 0x5208 31 16)
    bank := s.exttEntries
    exts := xs.map fun x =>
      let ws := s.entryMem .extt (s.activeBank .extt) x
      let e := exttOf ws
      (x, ws, (List.range e.parcels).map (fun i => BitVec.ofNat 64 (leNat (s.readRegion (e.pmap + 4 * i) 4))),
        (List.range e.parcels).map fun i => (s.entryMem .pkt (s.activeBank .pkt) (s.pmapAt e.pmap i).2.1).headD 0)
    pinned := s.tier.pinOrder.filter fun x => (s.exttNow x).pinned && xs.contains x
    lost := lost }

/-- Fill bytes up to a multiple of `n`. -/
def padTo (n : Nat) (bs : List Byte) : List Byte := bs ++ List.replicate (cdiv bs.length n * n - bs.length) 0

/-- The body of a checkpoint before encryption: the EXTT bank, the parcel maps, their PKT entries, the pinned list and the lost list, each
from an 8-byte boundary on, in whole 4 KiB units (R237). -/
def Checkpoint.body (c : Checkpoint) : List Byte :=
  let entry := fun (x : Nat) => ((c.bank.find? fun e => decide (e.1 = x)).map (·.2)).getD (List.replicate 8 0)
  let four := fun (ws : List Word) => ws.flatMap fun w => leBytes 4 w.toNat
  padTo 4096 ((List.range 262144).flatMap (fun x => wordsBytes (entry x)) ++
    padTo 8 (c.exts.flatMap fun x => four x.2.2.1) ++ padTo 8 (c.exts.flatMap fun x => four x.2.2.2) ++
    padTo 8 (c.pinned.flatMap fun x => leBytes 4 x) ++ c.lost.flatMap fun g => leBytes 8 (g.1 + g.2 * 2 ^ 32))

/-- Tweak of data unit `u` of a slot (R237). -/
def unitTweak (slotB : Bool) (u : Nat) : Nat := 2 ^ 63 + b2n slotB * 2 ^ 32 + u

/-- The body as a slot holds it (R237). -/
def Checkpoint.stored (c : Checkpoint) (key : BitVec 512) (slotB : Bool) : List Byte :=
  let b := c.body
  (List.range (b.length / 4096)).flatMap fun u => Config.cipher key (unitTweak slotB u) ((b.drop (4096 * u)).take 4096)

/-- The header of a checkpoint: words 0 to 5 (R237). The CRC is taken over the body as stored (log 93). -/
def Checkpoint.header (c : Checkpoint) (key : BitVec 512) (slotB : Bool) : List Word :=
  let ws := [place 31 0 0x434B5054 ||| place 33 32 (if c.closed then 1 else 2), BitVec.ofNat 64 c.seq, place 47 0 c.tick,
    place 31 0 c.epoch.toNat ||| place 47 32 c.keyGen.toNat, place 31 0 c.lost.length ||| place 63 32 (c.body.length / 4096)]
  let crc := crc32c (wordsBytes ws ++ leBytes 4 c.pinned.length ++ c.stored key slotB)
  ws ++ [place 31 0 crc.toNat ||| place 63 32 c.pinned.length]

/-- The valid checkpoint with the higher SEQ, and whether it is slot B. -/
def State.newestCheckpoint (s : State) : Option (Checkpoint × Bool) :=
  let a := s.tier.slotA
  let b := s.tier.slotB
  if a.valid && (!b.valid || decide (b.seq ≤ a.seq)) then some (a, false) else if b.valid then some (b, true) else none

/-- Write a checkpoint into the slot that does not hold the newest valid header. -/
def State.putCheckpoint (s : State) (closed : Bool) (lost : List (Nat × Nat)) : State :=
  let new := s.newestCheckpoint
  let c := s.makeCheckpoint closed (((new.map (·.1.seq)).getD 0) + 1) lost
  match new with
  | some (_, false) => { s with tier := { s.tier with slotB := c } }
  | _ => { s with tier := { s.tier with slotA := c } }

/-- Groups still dirty: what the drain did not write (R234, R236). -/
def State.unwritten (s : State) : List (Nat × Nat) := (List.range 4).flatMap s.drainOrder

/-- The data of a drain has ended: an energy stop, or every group had time to be written. -/
def State.dataEnded (s : State) (d : Drain) : Bool :=
  d.energyStop || (List.range 4).all fun t => decide (s.drainNeed t ≤ s.drainBytes d)

/-- The length of a drain in ms, from its F0 on (R241). -/
def State.drainMs (s : State) (d : Drain) : Nat := tsub s.tick d.f0 * s.periodNs / 10 ^ 6

/-- The end of a drain's data: the last groups are written, the open stripes are closed, and the last-drain record and the CLOSED
checkpoint follow (R234, R237, R241, R263). `measured` is the energy per GB that the drain has taken (R232; log 21). -/
def State.closeDrain (s : State) (d : Drain) (measured : Nat) : State :=
  let owned := s.ownedGroups
  let s := if d.energyStop then s else (List.range 4).foldl (fun s t => s.drainTile t none) s
  let s := (List.range 4).foldl State.fillStripes s
  let left := s.unwritten
  let lost := (s.tier.lost ++ left ++ owned).dedup
  let ms := s.drainMs d
  let s := s.putCheckpoint true lost
  let s := { s with boot := s.boot.putDrain (ms, left.isEmpty, measured, false) }
  (s.setReg 0x4250 (place 32 32 (b2n left.isEmpty) ||| place 31 0 ms)).bump .rsv 0 0x118

/-! ### Resets of the main domain (R416, R419, R500, R503) -/

/-- Registers that a reset of the main domain keeps: the MGT page; in a warm reset the GLB values that last until a cold start
(R419, R490) and the seeds that firmware has written for this start (R177, R186). Log 94. -/
def keptReg (warm : Bool) (o : Nat) : Bool :=
  decide (o / 4096 = 5) ||
    (warm && (decide (o = 0x220 ∨ o = 0x230 ∨ o = 0x100) || (List.range 4).any fun t => decide (o = rOff .hdg t 0x248)))

/-- The main domain in reset: the island, boot flash, the flash tier with its maps, and the pins stay; all else is at its reset value
(R419). What open stripes held without their parity page is lost with the FMCs' write buffers (R263). -/
def State.mainReset (s : State) (warm : Bool) : State :=
  { State.reset with
    regs := s.regs.filter fun e => keptReg warm e.1
    tier := { State.reset.tier with
      flash := s.tier.flash
      fgroups := s.tier.fgroups
      sectors := s.tier.sectors
      spares := s.tier.spares
      stripes := s.tier.stripes.map fun (x : Stripe) => { x with closed := true, waiting := [] }
      stripeNext := s.tier.stripeNext
      badBlocks := s.tier.badBlocks
      retiring := s.tier.retiring
      slotA := s.tier.slotA
      slotB := s.tier.slotB }
    boot := s.boot
    island := s.island
    pins := s.pins
    tileFaults := if warm then s.tileFaults else []
    out := s.out
    fresh := s.fresh
    pending := s.pending }

/-- DRAIN_DONE, and a cold reset that was held back takes effect. -/
def State.endPowerDrain (s : State) : State :=
  let s := s.drainDone
  if s.pins.coldRstN then s else s.mainReset false

/-- PWR_FAIL_DEASSERT: only the level changes (R235, R500). -/
def State.powerDeassert (s : State) : State := { s with pins := { s.pins with pwrFailN := true } }

/-- MAIN_PG_FALL: the main domain enters reset at once, without a drain (R500). -/
def State.mainPgFall (s : State) : State := { s with pins := { s.pins with mainPg := false } }.mainReset false

/-- COLD_RST_N: low resets the main domain, after a running drain; its rising edge lowers DRAIN_DONE and begins a start, with the
rails up (R502, R503, R509). Log 90. Log 91. -/
def State.coldRst (s : State) (level : Bool) : State :=
  if level then
    if s.pins.coldRstN then s
    else { s with pins := { s.pins with coldRstN := true, mainPg := true, drainDone := false, thermTripN := true } }
  else
    let draining : Bool := match s.rsv.drain with
      | some d => decide (d.why = .power) && !d.noDrain
      | none => false
    let s := { s with pins := { s.pins with coldRstN := false } }
    if draining then s else s.mainReset false

/-- AUX_RST_N, ignored while MAIN_PG is high: low resets the island; its rise samples the straps and reads the tenant record (R448,
R503, R504). -/
def State.auxRst (s : State) (level strapTest strapAuxclk : Bool) : State :=
  if s.pins.mainPg then s
  else if !level then
    let isl : Island := { s.island with key := none, sessions := 0, busy := none, release := none, purging := false, clearAt := none,
                                        assignAt := none, failed := false, staged := none, resetPending := none, warmEnv := none }
    let s := { s with pins := { s.pins with auxRstN := false }, island := isl }
    { s with regs := s.regs.filter fun e => decide (e.1 / 4096 ≠ 5) }
  else if s.pins.auxRstN then s
  else
    let s := { s with pins := { s.pins with auxRstN := true, strapTest := strapTest, strapAuxclk := strapAuxclk } }
    let s := { s with island := { s.island with failed := strapTest } }
    let r := s.tenantRecord
    let s := s.showTenant r r.keyGen.toNat false
    if s.island.records.all (·.valid) then s else s.raise .mgt 0 4

/-! ### The debug port (R506) -/

/-- What the debug port can be asked for: its identity, a bit through its bypass register, or the boundary scan. -/
inductive Tap where
  | idcode | bypass (bit : Bool) | scan
deriving DecidableEq, Repr

/-- The boundary scan of the main-domain pins and of the fabric lanes, a port's lanes by its link state (log 156). -/
def State.scanCells (s : State) : List Bool :=
  [s.pins.drainDone, s.pins.mainPg, s.pins.pwrFailN, s.pins.thermAlertN, s.pins.thermTripN] ++
    (List.range 256).map fun l => decide (s.linkState (l / 8) ≠ 0)

/-- What the debug port answers: only while COLD_RST_N is low; it reaches no block, memory or key. -/
def State.debugPort (s : State) (t : Tap) : Option (List Bool) :=
  if s.pins.coldRstN then none
  else match t with
    | .idcode => some ((List.range 32).map fun i => (0x16840AB7 : BitVec 32).getLsbD i)
    | .bypass b => some [b]
    | .scan => some s.scanCells

/-! ### Rows -/

/-- PMBUS_POLL (R224). -/
def execPmbusPoll (p : PmbusSample) (s : State) : Host.Outcome State Fault Refusal := .next (s.pmbusPoll p)

/-- PMB_ALERT: the device reads STATUS_WORD, outside its polls (R499), while the main rails are up (R15). -/
def execPmbAlert (status : BitVec 16) (s : State) : Host.Outcome State Fault Refusal := .next (if s.pins.mainPg then s.emit (.pmbus 0x79 status.toNat) else s)

/-- CAP_TEST_START (R227). -/
def execCapTestStart (s : State) : Host.Outcome State Fault Refusal := .next s.capTestStart

/-- CAP_TEST_DONE (R227). -/
def execCapTestDone (chargeMilliCoulomb : Nat) (s : State) : Host.Outcome State Fault Refusal := .next (s.capTestDone chargeMilliCoulomb)

/-- PWR_FAIL (R233). -/
def execPwrFail (s : State) : Host.Outcome State Fault Refusal := .next s.powerFail

/-- DISCARD_NOTICE_SEND (R434). -/
def execDiscardNoticeSend (s : State) : Host.Outcome State Fault Refusal := .next s.sendNotices

/-- DRAIN_BEGIN (R233). -/
def execDrainBegin (s : State) : Host.Outcome State Fault Refusal := .next s.drainBegin

/-- DRAIN_ENERGY_STOP (R234). -/
def execDrainEnergyStop (s : State) : Host.Outcome State Fault Refusal := .next s.energyStop

/-- PWR_FAIL_DEASSERT (R235). -/
def execPwrFailDeassert (s : State) : Host.Outcome State Fault Refusal := .next s.powerDeassert

/-- MAIN_PG_FALL (R500). -/
def execMainPgFall (s : State) : Host.Outcome State Fault Refusal := .next s.mainPgFall

/-- COLD_RST_N (R503). -/
def execColdRstN (level : Bool) (s : State) : Host.Outcome State Fault Refusal := .next (s.coldRst level)

/-- AUX_RST_N (R503). -/
def execAuxRstN (level strapTest strapAuxclk : Bool) (s : State) : Host.Outcome State Fault Refusal :=
  .next (s.auxRst level strapTest strapAuxclk)

end Sys2Proof.Machine
end

