-- ==== Sys2Proof/Machine/HostAttach.lean ====
section
/-! DEFINITION. The host die's side (R38, R41, R43, R464 to R477): its memory accesses, its modules, its start and restart, and its
vectors. -/

namespace Sys2Proof.Machine

/-! ### Where an access goes (R466) -/

/-- The module that carries an access to a host physical address. -/
def State.hostModule (s : State) (a : Nat) : Nat :=
  match s.win a with
  | .host o => o / 4096 % 24 / 6
  | .ctl o => o / 4096 % 24 / 6
  | .reg o => if 0x400000 ≤ o ∧ o < 0xC00000 then (o - 0x400000) / 0x200000 else 0
  | .pool o => o / 2 ^ 21 % 4
  | .hole => 0

/-- Address and bytes of an access. -/
def HostOp.addr : HostOp → Nat
  | .read a _ => a
  | .write a _ _ => a

/-- Bytes of an access. -/
def HostOp.size : HostOp → Nat
  | .read _ n => n
  | .write _ d _ => d.length

/-- HBM slots of an access (R467). -/
def HostOp.slots : HostOp → Nat
  | .read _ _ => 1
  | .write _ d _ => if d.length = 256 then 1 else 2

/-! ### The tier tables as the control region shows them (R210 to R212) -/

/-- STATE of an FHT entry. -/
def FrameSt.code : FrameSt → Nat
  | .free => 0 | .resident => 1 | .pinned => 2 | .mirror => 3

/-- A line state's code. -/
def LineSt.code : LineSt → Nat
  | .absent => 0 | .clean => 1 | .dirty => 2 | .cleaning => 3

/-- The four words of an FHT entry. -/
def Fht.words (h : Fht) : List Word :=
  [place 2 0 h.st.code ||| place 3 3 (b2n h.ref) ||| place 4 4 (b2n h.assured) ||| place 32 8 h.parcel ||| place 61 48 h.dirtyLines,
   place 47 0 h.holdUntil, place 47 0 h.firstDirty, place 19 0 h.mirrorFrame]

/-- A PFT entry. -/
def Pft.word (e : Pft) : Nat := if e.has then e.frame % 2 ^ 20 + 2 ^ 31 else 0

/-- Byte `k` of a number. -/
def byteOf (v k : Nat) : Byte := BitVec.ofNat 8 (v / 256 ^ k)

/-- A byte of a tier table at host physical address `a`, none elsewhere. -/
def State.tierByte (s : State) (a : Nat) : Option Byte :=
  let pb := s.fld (rOff .tier 0 0x200) 51 12 * 4096
  let fb := s.fld (rOff .tier 0 0x208) 51 12 * 4096
  let lb := s.fld (rOff .tier 0 0x210) 51 12 * 4096
  if pb ≠ 0 ∧ pb ≤ a ∧ a < pb + 2 ^ 27 then
    let o := a - pb
    some (byteOf (s.pftOf (o / 4)).word (o % 4))
  else if fb ≠ 0 ∧ fb ≤ a ∧ a < fb + 24 * 2 ^ 20 then
    let o := a - fb
    some (byteOf (((s.fhtOf (o / 32)).words.getD (o % 32 / 8) 0).toNat) (o % 8))
  else if lb ≠ 0 ∧ lb ≤ a ∧ a < lb + 24 * 2 ^ 26 then
    let o := a - lb
    let first := o / 2048 * 8192 + o % 2048 * 4
    some (BitVec.ofNat 8 ((List.range 4).foldl (fun v i => v + (s.lsmOf (first + i)).code * 4 ^ i) 0))
  else none

/-- Bytes of the block of firmware's task journals (log 157). -/
def journalBytes : Nat := 2 ^ 20

/-- A byte of firmware's task journals at host physical address `a`, none elsewhere: firmware's own encoding of them is not given (R41,
R398): a free value (log 157). -/
def State.journalByte (s : State) (a : Nat) : Option Byte :=
  let b := s.fw.journalBase
  if b ≠ 0 ∧ b ≤ a ∧ a < b + journalBytes then some (BitVec.ofNat 8 (Config.freeNat (s.fresh * 2 ^ 52 + a))) else none

/-- A byte of the control region that memory does not hold as it is read: of a tier table or of the journals. -/
def State.ctlByte (s : State) (a : Nat) : Option Byte := (s.tierByte a).orElse fun _ => s.journalByte a

/-! ### Accesses -/

/-- A read response, with POISON counted (R468). -/
def State.hostData (s : State) (data : List Byte) (poison : Bool) : State :=
  let s := s.emit (.hostData data poison)
  if poison then s.bump .uci 0 0x148 else s

/-- Whether a host-die write of `n` bytes may go to this place of the control region: banks of RTT, PRGT, TFT and SLT, and the ring
area (R41). -/
def State.ctlWritable (s : State) (a n : Nat) : Bool :=
  let ring := s.fld 0x8220 51 12 * 4096
  (decide (ring ≠ 0) && decide (ring ≤ a ∧ a + n ≤ ring + 2 ^ 24)) ||
    [Table.rtt, .prgt, .tft, .slt].any fun t => [false, true].any fun b =>
      let base := s.bankBase t b
      decide (base ≠ 0) && decide (base ≤ a ∧ a + n ≤ base + t.entries * t.size)

/-- An access to the host region or the control region whose slots are there. -/
def State.serveRegion (s : State) (op : HostOp) (ctl : Bool) (p : Nat) : State :=
  match op with
  | .read a _ =>
    let r := s.readRegionLine (p / 256)
    let base := a / 256 * 256
    let bytes := if ctl then r.1.zipIdx.map fun b => (r.2.2.ctlByte (base + b.2)).getD b.1 else r.1
    r.2.2.hostData ((bytes.drop (a % 256)).take op.size) r.2.1
  | .write a d poison =>
    if ctl && !(s.ctlWritable a d.length) then s.hostErr
    else (if ctl then s.writeTables a d poison else s.writeRegion a d poison).emit .hostDone

/-- An access through the pool window to a resident line, under the keys of context 0 (R43, R57). -/
def State.servePool (s : State) (op : HostOp) (p l ln : Nat) : State :=
  let k := s.pkt s.banks p
  let c := s.ctxt s.banks 0
  let fmt := s.parcelFormat p
  let write := match op with
    | .read _ _ => false
    | .write _ _ _ => true
  if !(k.1 && c.keyOk k.2 write) then
    (s.keyFail ln 0 (BitVec.ofNat 64 op.addr)).hostErr
  else match op with
    | .read a _ =>
      let r := s.readLine p l ln fmt
      r.2.2.hostData ((r.1.drop (a % 256)).take op.size) r.2.1
    | .write a d poison => (s.writePool p l (a % 256) fmt d poison).emit .hostDone

/-- The extent of a parcel is coherent and its domain is not QUIET. -/
def State.cohClosed (s : State) (p : Nat) : Bool :=
  let e := s.exttNow (sget (fun _ => ({} : ParcelOwner)) s.tier.parcels p).ext
  e.coherent && decide ((s.dom e.domain).st ≠ .quiet)

/-- Take the slots of an access on the pseudo-channel of line `ln`: none when the share is used up (R467). -/
def State.hostSlots (s : State) (op : HostOp) (ln : Nat) : Option State :=
  let st := stackOf ln
  let pc := s.pcOf ln
  if s.hostUsed st pc + op.slots ≤ s.share 6 then some ((List.range op.slots).foldl (fun s _ => s.useHost st pc) s) else none

/-- An access of a size that the memory windows know, aligned to it (R467). -/
def HostOp.memory (op : HostOp) : Bool := (decide (op.size = 64) || decide (op.size = 256)) && decide (op.addr % op.size = 0)

/-- Serve an access; none when it has to wait for a later tick. In the register window only 8 aligned bytes are read, and any narrower,
wider or unaligned access ends with an error response (R6). -/
def State.hostServe (s : State) (op : HostOp) : Option State :=
  let a := op.addr
  match s.win a with
  | .hole => some s.hostErr
  | .reg o => match op with
    | .read _ 8 => match pageOf (o / 4096) with
      | some pg =>
        if o % 8 = 0 ∧ s.blockReset pg.blk = false then
          some ((if o = 0x2200 then s.seeTime else s).hostData (leBytes 8 (s.regView .hostDie o).toNat) false)
        else some s.hostErr
      | none => some s.hostErr
    | _ => some s.hostErr
  | .host o =>
    if !op.memory then some s.hostErr
    else (s.hostSlots op (hostPhys o / 256)).map fun s => s.serveRegion op false (hostPhys o)
  | .ctl o =>
    if !op.memory then some s.hostErr
    else (s.hostSlots op (s.ctlPhys o / 256)).map fun s => s.serveRegion op true (s.ctlPhys o)
  | .pool o =>
    let p := o / 2 ^ 21
    let l := o % 2 ^ 21 / 256
    if op.memory = false ∨ s.cohClosed p = true then some s.hostErr
    else match s.lineAt p l with
      | some ln => if s.resident p l then (s.hostSlots op ln).map fun s => s.servePool op p l ln else some s.hostErr
      | none => some s.hostErr

/-- Queue an access behind those of its module that wait. -/
def State.queueHost (s : State) (m : Nat) (op : HostOp) : State := { s with hostWait := s.hostWait ++ [(m, op)] }

/-- A host-die memory access: served, or waiting for its module or for its pseudo-channel's share. None comes from a host die in reset
or over a module that is not up. Log 98. -/
def State.hostAccess (s : State) (op : HostOp) : State :=
  let m := s.hostModule op.addr
  if s.hostHeld then s
  else if s.modState m = 3 then s.queueHost m op
  else if s.modState m ≠ 2 then s
  else if s.hostWait.any (fun w => decide (w.1 = m)) then
    (if (s.hostServe op).isNone then s.bump .uci 0 0x158 else s).queueHost m op
  else match s.hostServe op with
    | some s => s
    | none => (s.bump .uci 0 0x158).queueHost m op

/-- HOST_ACCESS_DEFERRED: the first waiting access of module `m`. -/
def State.hostDeferred (s : State) (m : Nat) : State :=
  if s.hostHeld || decide (s.modState m ≠ 2) then s
  else match s.hostWait.find? (fun w => decide (w.1 = m)) with
    | none => s
    | some w => match s.hostServe w.2 with
      | some s => { s with hostWait := s.hostWait.erase w }
      | none => s

/-! ### Modules (R465, R476) -/

/-- MODULE_RETRAIN: the module retrains, and takes further redundant lanes within the four of each direction. -/
def State.moduleRetrain (s : State) (m lanes : Nat) : State :=
  if s.modState m ≠ 2 then s
  else
    let w := s.reg (uciMod m)
    let tx := min 4 (bits w 7 5 + lanes % 8)
    let rx := min 4 (bits w 10 8 + lanes / 8 % 8)
    let s := s.setReg (uciMod m) (setBits (setBits (setBits w 1 0 3) 7 5 tx) 10 8 rx)
    let s := (s.bump .uci 0 (0x100 + 8 * m)).raise .uci 0 0
    if bits w 7 5 < tx ∨ bits w 10 8 < rx then s.raise .uci 0 2 else s

/-- MODULE_RETRAIN_DONE: the module is up, and the accesses that waited for it proceed in order. -/
def State.moduleBack (s : State) (m : Nat) : State :=
  if s.modState m ≠ 3 then s
  else (List.range s.hostWait.length).foldl (fun s _ => s.hostDeferred m) (s.setFld (uciMod m) 1 0 2)

/-- MODULE_DOWN: the module has not come back within 10 ms; the host die is stopped for good. -/
def State.moduleDown (s : State) (m : Nat) : State :=
  if s.modState m ≠ 3 then s
  else ((s.setFld (uciMod m) 1 0 0).raise .uci 0 1).beginHostReset false

/-! ### Start, restart and vectors (R470, R472, R474, R476) -/

/-- A write of UCI_HOST_ALIVE. -/
def State.aliveWrite (s : State) (v : Word) : State :=
  let s := s.setReg uciAlive v
  if v = 0 ∨ s.hostHeld = true then s else (s.setFld uciStatus 1 0 2).raise .uci 0 3

/-- HOST_BOOT_TIMEOUT. -/
def State.bootTimeout (s : State) (waitedMs : Nat) : State :=
  let t := s.fld uciCtrl 31 16
  if s.fld uciStatus 1 0 = 1 ∧ (if t = 0 then 5000 else t) ≤ waitedMs then (s.setFld uciStatus 1 0 3).raise .uci 0 4 else s

/-- HOST_RESET_REQ. -/
def State.hostResetReq (s : State) : State :=
  if s.hostHeld then s else (s.raise .uci 0 5).beginHostReset true

/-- UCI_VEC_MASK of the word that holds vector `v`. -/
def vecMask (v : Nat) : Nat := 0x6240 + v / 64 * 8
/-- UCI_VEC_PEND. -/
def vecPend (v : Nat) : Nat := 0x6280 + v / 64 * 8

/-- Clear the mask bit of vector `v`: a pending signal goes out as one message. -/
def State.unmask (s : State) (v : Nat) : State :=
  let s := s.setFld (vecMask v) (v % 64) (v % 64) 0
  if bit (s.reg (vecPend v)) (v % 64) then ((s.setFld (vecPend v) (v % 64) (v % 64) 0).emit (.msi v)).bump .uci 0 0x150 else s

/-- A write of UCI_VEC_MASK_j. -/
def State.vecMaskWrite (s : State) (j : Nat) (w : Word) : State :=
  let old := s.reg (vecMask (64 * j))
  let s := s.setReg (vecMask (64 * j)) w
  ((List.range 64).filter fun b => bit old b && !(bit w b)).foldl (fun s b => s.unmask (64 * j + b)) s

/-! ### Rows -/

/-- HOST_ALIVE (R472). -/
def execHostAlive (value : Word) (s : State) : Host.Outcome State Fault Refusal :=
  .next (if s.hostHeld then s else (s.aliveWrite value).respond .hostDie true)

/-- HOST_BOOT_TIMEOUT (R474). -/
def execHostBootTimeout (waitedMs : Nat) (s : State) : Host.Outcome State Fault Refusal := .next (s.bootTimeout waitedMs)

/-- HOST_RESET_REQ (R476). -/
def execHostResetReq (s : State) : Host.Outcome State Fault Refusal := .next s.hostResetReq

/-- MODULE_RETRAIN (R465). -/
def execModuleRetrain (m : Fin 4) (lanes : Nat) (s : State) : Host.Outcome State Fault Refusal := .next (s.moduleRetrain m lanes)

/-- MODULE_RETRAIN_DONE (R465). -/
def execModuleRetrainDone (m : Fin 4) (s : State) : Host.Outcome State Fault Refusal := .next (s.moduleBack m)

/-- MODULE_DOWN (R476). -/
def execModuleDown (m : Fin 4) (s : State) : Host.Outcome State Fault Refusal := .next (s.moduleDown m)

/-- HOST_READ (R467); in the register window 8 bytes are the read of one register (REG_READ). -/
def execHostRead (addr : BitVec 52) (size : Nat) (s : State) : Host.Outcome State Fault Refusal :=
  .next (s.hostAccess (.read addr.toNat size))

/-- WRITE256 (R467): the wire carries exactly 256 bytes. -/
def execWrite256 (addr : BitVec 52) (data : List Byte) (poison : Bool) (s : State) : Host.Outcome State Fault Refusal :=
  if data.length = 256 then .next (s.hostAccess (.write addr.toNat data poison)) else .fault .illFormed

/-- WRITE64 (R467): the wire carries exactly 64 bytes. -/
def execWrite64 (addr : BitVec 52) (data : List Byte) (poison : Bool) (s : State) : Host.Outcome State Fault Refusal :=
  if data.length = 64 then .next (s.hostAccess (.write addr.toNat data poison)) else .fault .illFormed

/-- HOST_ACCESS_DEFERRED (R467). -/
def execHostAccessDeferred (m : Fin 4) (s : State) : Host.Outcome State Fault Refusal := .next (s.hostDeferred m)

/-- VEC_UNMASK (R470). -/
def execVecUnmask (v : Fin 512) (s : State) : Host.Outcome State Fault Refusal :=
  .next (if s.hostHeld then s else (s.unmask v).respond .hostDie true)

end Sys2Proof.Machine
end

