-- ==== Sys2Proof/Machine/Links.lean ====
section
/-! DEFINITION. What a port receives and how it trains (R324 to R350): blocks taken, packets put together, link messages, and the
events of its state machine. -/

namespace Sys2Proof.Machine

/-! ### Blocks that arrive (R327 to R333) -/

/-- The port takes blocks: in INIT, in UP, and while it announces a retrain (R344, R349). -/
def State.receives (s : State) (p : Nat) : Bool :=
  decide (s.linkState p = 3 ∨ s.linkState p = 4) || (decide (s.linkState p = 5) && (s.link p).announcing)

/-- The CMSG of a CTRL block. -/
def cmsg (b : Block) : Nat := bits (b.word 0) 7 0

/-- A block that the port takes and whose CRC passes counts, and runs `k`; a failing one is dropped (R329). -/
def State.takeBlock (s : State) (p : Nat) (b : Block) (k : State → State) : State :=
  if !s.receives p then s
  else if !b.crcOk then s.bump .lnk p 0x138
  else k (s.bump .lnk p 0x108)

/-- ACK and XOFF of a good block that is not DATA, and a NAK for what its SEQ shows to be missing (R333, R335). -/
def State.takeHeader (s : State) (p : Nat) (b : Block) (ns : Nat) : State :=
  if s.linkState p ≠ 4 then s
  else
    let s := s.takeAck p b
    if b.seq ≠ (s.link p).expect then s.sendNak p (some b.seq) ns else s

/-- The packet that the blocks of one VC have brought whole, with its poison map and end CRC (R300, R302). -/
def wholePacket (x : RxPartial) : Packet :=
  let k := partialPacket x
  let n := k.length.toNat
  let segOf := fun (b : Nat × BitVec 2) =>
    let first := (248 * b.1 - 16) / 256
    let last := min (248 * b.1 + 231) (n - 1) / 256
    if n ≤ 248 * b.1 - 16 then 0
    else b2n (b.2.getLsbD 0) * 2 ^ first + (if first < last then b2n (b.2.getLsbD 1) * 2 ^ (first + 1) else 0)
  let map := x.poison.zipIdx.foldl (fun (m : BitVec 32) b => m ||| BitVec.ofNat 32 (segOf (b.2, b.1))) 0
  { k with segPoison := map, endCrc := BitVec.ofNat 32 (leNat ((x.bytes.drop (16 + n)).take 4)) }

/-- Blocks of the packet that a reception has begun, by its LENGTH. -/
def RxPartial.total (x : RxPartial) : Nat := blocksOf (bits (wordAt x.bytes 1) 13 0)

/-- Drop the incomplete packet of a VC. -/
def State.dropPartial (s : State) (p vc : Nat) : State :=
  let l := s.link p
  s.setLink p { l with partials := l.partials.filter fun x => decide (x.vc ≠ vc) }

/-- One DATA block in sequence joins the packet of its VC (R330); a packet whose last block this is arrives. -/
def State.feedBlock (s : State) (p ns : Nat) (b : Block) : State :=
  let v := b.vc.toNat
  let open' := (s.link p).partials.find? fun x => decide (x.vc = v)
  let s := if b.sop && open'.isSome then (s.bump .lnk p 0x150).dropPartial p v else s
  if !b.sop && open'.isNone then s.bump .lnk p 0x150
  else
    let old : RxPartial := if b.sop then ⟨v, [], []⟩ else open'.getD ⟨v, [], []⟩
    let x : RxPartial := { old with bytes := old.bytes ++ b.body, poison := old.poison ++ [b.poison] }
    let s := s.dropPartial p v
    if x.total ≤ x.poison.length then s.arrive p v (wholePacket x) ns
    else
      let l := s.link p
      s.setLink p { l with partials := l.partials ++ [x] }

/-- Take the held blocks that E has reached (R332). -/
def State.feedHeld (p ns : Nat) : Nat → State → State
  | 0, s => s
  | n + 1, s =>
    let l := s.link p
    match l.held.find? (fun b => decide (b.seq = l.expect)) with
    | none => s
    | some b =>
      let s := s.setLink p { l with held := l.held.erase b, expect := l.expect + 1 }
      State.feedHeld p ns n (s.feedBlock p ns b)

/-- A NAK sent for a block that E has passed is forgotten. -/
def State.forgetNaks (s : State) (p : Nat) : State :=
  let l := s.link p
  s.setLink p { l with nakSent := l.nakSent.filter fun n => decide ((n.1 - l.expect).toNat < 2048) }

/-- DATA_BLOCK: accepted, held with a NAK for the gap, or dropped as a duplicate (R332). Log 66. -/
def State.dataBlock (s : State) (p : Nat) (b : Block) (ns : Nat) : State :=
  if s.linkState p ≠ 4 then s
  else
    let s := s.takeAck p b
    let l := s.link p
    let d := (b.seq - l.expect).toNat
    let s :=
      if d = 0 then
        let s := (s.setLink p { l with expect := l.expect + 1 }).feedBlock p ns b
        (State.feedHeld p ns 2048 s).forgetNaks p
      else if d < 2048 then
        let s := if l.held.any (fun h => decide (h.seq = b.seq)) then s else s.setLink p { l with held := l.held ++ [b] }
        s.sendNak p none ns
      else s.bump .lnk p 0x140
    s.updateXoff p

/-- NAK: the flagged blocks that are still unacknowledged are resent in ascending order (R333, R334). -/
def State.nakBlock (s : State) (p : Nat) (b : Block) (ns : Nat) : State :=
  if s.linkState p ≠ 4 then s
  else
    let s := (s.takeHeader p b ns).bump .lnk p 0x130
    let base := BitVec.ofNat 12 (bits (b.word 0) 11 0)
    let flagged := fun (q : BitVec 12) =>
      let i := (q - base).toNat
      decide (i < 256) && bit (b.word (1 + i / 64)) (i % 64)
    State.replayAll p ns false ((s.link p).unacked.filter fun u => flagged u.blk.seq) s

/-- REPLAY_TIMEOUT: the oldest unacknowledged block, REPLAY_TMO_NS after it was last sent (R334). -/
def State.replayTimeout (s : State) (p ns : Nat) : State :=
  if s.linkState p ≠ 4 then s
  else match (s.link p).unacked with
    | [] => s
    | u :: _ => if u.sentNs + s.replayTmo p ≤ ns then State.replayAll p ns true [u] s else s

/-! ### INIT (R338 to R340, R345, R347) -/

/-- Set the figures of R340 and send INIT_DONE once 16 round trips and the peer's LINK_ID are there. Log 64. -/
def State.measure (s : State) (p : Nat) : State :=
  let l := s.link p
  if l.rtt.length < 16 ∨ l.peerIdSeen = false ∨ l.myDone.isSome then s
  else
    let rtt := l.rtt.foldl max 0
    let n := match l.vcCount with
      | 1 => 2 | 3 => 8 | _ => 4
    let b := 2048 / n
    let h := cdiv (rtt * 100) 128 + 34
    let ok := decide (h + 68 ≤ b)
    let s := s.setReg (rOff .lnk p 0x218) (place 47 32 (rtt + 256) ||| place 31 16 h ||| place 15 0 rtt)
    let o := rOff .lnk p 0x220
    let s := s.setReg o (place 63 56 (s.fld o 63 56) ||| place 43 32 (b - h - 34) ||| place 27 16 (b - h) ||| place 11 0 b)
    let s := s.setLink p { l with myDone := some ok }
    (s.sendCtl p 0x04 l.myLanes ok 0).checkInit p

/-- LINK_ID: the peer's EID, lanes and VC count; one EID at both ends, or another version, ends INIT. The 16 probes go out. -/
def State.linkId (s : State) (p : Nat) (b : Block) : State :=
  if s.linkState p ≠ 3 then s
  else
    let w := b.word 0
    let eid := bits w 27 8
    let o := rOff .lnk p 0x210
    let s := (s.setFld o 39 20 eid).setFld o 16 16 (b2n (decide (eid < s.devEid.toNat)))
    if eid = s.devEid.toNat then (s.enterDown p 0xA).raise .lnk p 5
    else if bits w 55 48 ≠ 1 then s.enterDown p 8
    else
      let s := s.repeatLinkId p (s.portBlocks p / 16)
      let l := s.link p
      let first := !l.peerIdSeen
      let vc := min (s.vcCode p) (let c := bits w 29 28; if c = 0 then 2 else c)
      let s := s.setLink p { l with
        peerIdSeen := true
        peerVcs := BitVec.ofNat 2 (bits w 29 28)
        peerLanes := BitVec.ofNat 8 (bits w 37 30)
        vcCount := vc }
      let s := if first then (List.range 16).foldl (fun s _ =>
          ({ s with fresh := s.fresh + 1 }).sendCtl p 0x02 (s.link p).myLanes false (BitVec.ofNat 64 s.someTime)) s else s
      s.measure p

/-- RTT_PROBE: the stamp goes back at once. -/
def State.rttProbe (s : State) (p : Nat) (b : Block) : State :=
  if s.linkState p = 3 ∨ s.linkState p = 4 then s.sendCtl p 0x03 (s.link p).myLanes false (b.word 1) else s

/-- RTT_REPLY: one of the 16 round trips, ended at local time `ns`. -/
def State.rttReply (s : State) (p : Nat) (b : Block) (ns : Nat) : State :=
  if s.linkState p ≠ 3 then s
  else
    let l := s.link p
    if 16 ≤ l.rtt.length then s
    else (s.setLink p { l with rtt := l.rtt ++ [ns - (b.word 1).toNat] }).measure p

/-- INIT_DONE. -/
def State.initDone (s : State) (p : Nat) (b : Block) : State :=
  if s.linkState p ≠ 3 then s
  else
    let l := s.link p
    (s.setLink p { l with peerDone := some (bit (b.word 0) 38) }).checkInit p

/-! ### Retrains (R345, R349) -/

/-- EID of the peer. -/
def State.peerEid (s : State) (p : Nat) : Nat := s.fld (rOff .lnk p 0x210) 39 20

/-- Note the peer's receive-pass mask. -/
def State.setPeerLanes (s : State) (p : Nat) (b : Block) : State :=
  let l := s.link p
  s.setLink p { l with peerLanes := BitVec.ofNat 8 (bits (b.word 0) 37 30) }

/-- RETRAIN_REQ: an end in UP follows; of two that announce, the one with the lower EID yields and sends FOLLOW in the announce slots that are
left, which of the 16 that are is a free choice (R347, R349; log 3). -/
def State.retrainReq (s : State) (p : Nat) (b : Block) : State :=
  if s.linkState p = 4 then
    let s := s.sendCtl p 0x11 (s.link p).myLanes false 0
    (s.enterRetrain p 5 (s.link p).myLanes false).setPeerLanes p b
  else if s.linkState p = 5 ∧ (s.link p).announcing = true then
    if s.peerEid p < s.devEid.toNat then (s.endAnnounce p).setPeerLanes p b
    else
      let (k, s) := s.drawNat
      let s := s.sendSlots p 0x10 (k % max 1 (s.link p).slots)
      let s := (s.sendSlots p 0x11 (max 1 (s.link p).slots)).setCause p 5
      let s := (s.bump .lnk p 0x178).setPeerLanes p b
      let l := s.link p
      s.setLink p { l with announcing := false }
  else s

/-- FOLLOW: the peer follows this end's retrain. -/
def State.followed (s : State) (p : Nat) (b : Block) : State :=
  if s.linkState p = 5 ∧ (s.link p).announcing = true then
    let s := (s.endAnnounce p).setPeerLanes p b
    let l := s.link p
    s.setLink p { l with announcing := false }
  else s

/-- Lanes of WIDTH_MIN. -/
def State.widthMin (s : State) (p : Nat) : Nat := match bits (s.linkCfg p) 9 8 with
  | 0 => 2 | 1 => 4 | _ => 8

/-- TRAIN_DONE: the AND of both masks, without the lanes either end excluded, gives the group; too narrow a one ends the training
(R325). Log 65. -/
def State.trainDone (s : State) (p : Nat) (mine peer : Byte) : State :=
  if s.linkState p ≠ 2 ∧ s.linkState p ≠ 5 then s
  else
    let s := s.endAnnounce p
    let l := s.link p
    let m := mine &&& l.myLanes
    let q := peer &&& l.peerLanes
    match laneGroup (m &&& q) with
    | some g =>
      if laneCount g < s.widthMin p then s.enterDown p 8
      else (s.setLink p { l with myLanes := m, peerLanes := q }).enterInit p g (decide (s.peerEid p < s.devEid.toNat))
    | none => s.enterDown p 8

/-- TRAIN_TIMEOUT: 500 ms in TRAIN, RETRAIN_TMO_US in RETRAIN. -/
def State.trainTimeout (s : State) (p us : Nat) : State :=
  if s.linkState p = 2 ∧ 500000 ≤ us then s.enterDown p 8
  else if s.linkState p = 5 ∧ max 20 (bits (s.linkCfg p) 43 32) ≤ us then s.enterDown p 7
  else s

/-- LANE_ERR: a retrain without the lane, whose corrected symbols have passed the limit in each of 16 ticks in a row. -/
def State.laneErr (s : State) (p lane : Nat) : State :=
  if s.linkState p = 4 ∧ 16 ≤ sget (fun _ => 0) (s.link p).laneRuns lane then s.enterRetrain p 3 ((s.link p).myLanes &&& ~~~(BitVec.ofNat 8 (2 ^ lane))) true else s

/-- LOCK_LOST: a retrain, announced unless the peer lost its lock as well, which no operand tells (log 3). -/
def State.lockLost (s : State) (p : Nat) : State :=
  if s.linkState p = 4 then
    let (a, s) := s.drawBool
    s.enterRetrain p 4 (s.link p).myLanes a
  else s

/-- PROBATION_END (R348). -/
def State.probationEnd (s : State) (p : Nat) : State :=
  let l := s.link p
  match l.probEnd with
  | some t => if tle t s.tick then (s.setLink p { l with probEnd := none }).setFld (rOff .lnk p 0x210) 3 3 0 else s
  | none => s

/-- The variant in force, or R4 with none, enables the port (R1, R3, R491). -/
def State.portLicensed (s : State) (p : Nat) : Bool := bit (s.reg 0x1208) p

/-- TRAIN_RETRY: firmware writes TRAIN for a DOWN port that the driver has left enabled. -/
def State.trainRetry (s : State) (p : Nat) : State :=
  if s.portLicensed p && decide (s.fld (rOff .lnk p 0x208) 3 3 = 0) then s.enterTrain p else s

/-- Without a valid configuration, and after a start that stopped, every port stays DISABLED (R411, R415). -/
def State.portsHeld (s : State) : Bool := s.fw.config.isNone || decide (s.fld 0x200 7 0 ≠ 0)

/-- DISABLED to DOWN, once the variant enables the port and DISABLE is 0 (R345). Log 60. -/
def State.leaveDisabled (s : State) (p : Nat) : State :=
  if s.linkState p = 0 ∧ s.portsHeld = false ∧ s.portLicensed p = true ∧ s.fld (rOff .lnk p 0x208) 3 3 = 0 then
    (((s.setLinkState p 1).bump .lnk p 0x180).raise .lnk p 2).linkChange p
  else s

/-- A write of LNK_CTRL (R345, R351): LANE_EXCLUDE and DISABLE are stored, then DISABLE, RESET, RETRAIN and TRAIN act. -/
def State.lnkCtrlWrite (s : State) (p : Nat) (v : Word) : State :=
  let o := rOff .lnk p 0x208
  let s := s.setReg o (setBits (setBits (s.reg o) 11 4 (bits v 11 4)) 3 3 (bits v 3 3))
  let s := if bit v 3 then (if s.linkState p = 0 then s else s.enterDisabled p 6) else s.leaveDisabled p
  let s := if bit v 2 && decide (s.linkState p ≠ 0) then s.enterDown p 6 else s
  let s := if bit v 1 && decide (s.linkState p = 4) then (s.enterRetrain p 6 0xFF true).setFld o 1 1 1 else s
  if bit v 0 then s.enterTrain p else s

/-! ### Rows -/

/-- DATA_BLOCK (R332). -/
def execDataBlock (port : Fin 32) (b : Block) (ns : Nat) (s : State) : Host.Outcome State Fault Refusal :=
  .next (if b.type = 1 then s.takeBlock port b fun s => s.dataBlock port b ns else s)

/-- IDLE_BLOCK (R333). -/
def execIdleBlock (port : Fin 32) (b : Block) (ns : Nat) (s : State) : Host.Outcome State Fault Refusal :=
  .next (if b.type = 0 then s.takeBlock port b fun s => s.takeHeader port b ns else s)

/-- NAK (R334). -/
def execNak (port : Fin 32) (b : Block) (ns : Nat) (s : State) : Host.Outcome State Fault Refusal :=
  .next (if b.type = 2 then s.takeBlock port b fun s => s.nakBlock port b ns else s)

/-- BLOCK_CRC_FAIL (R329): a block that fails its CRC, or that overlaps an uncorrectable codeword. -/
def execBlockCrcFail (port : Fin 32) (b : Block) (uncorrectable : Bool) (s : State) : Host.Outcome State Fault Refusal :=
  .next (
    if s.receives port && (uncorrectable || !b.crcOk) then
      let s := if uncorrectable then s.bump .lnk port 0x168 else s
      s.bump .lnk port 0x138
    else s)

/-- NAK_RETRY (R333). -/
def execNakRetry (port : Fin 32) (ns : Nat) (s : State) : Host.Outcome State Fault Refusal :=
  .next (if s.linkState port = 4 then s.sendNak port none ns else s)

/-- REPLAY_TIMEOUT (R334). -/
def execReplayTimeout (port : Fin 32) (ns : Nat) (s : State) : Host.Outcome State Fault Refusal := .next (s.replayTimeout port ns)

/-- A CTRL block with the given CMSG: its header is taken, then its message. -/
def State.takeCtl (s : State) (p : Nat) (b : Block) (code ns : Nat) (k : State → State) : State :=
  if b.type = 3 ∧ cmsg b = code then s.takeBlock p b fun s => k (s.takeHeader p b ns) else s

/-- LINK_ID (R345). -/
def execLinkId (port : Fin 32) (b : Block) (s : State) : Host.Outcome State Fault Refusal :=
  .next ({ s with fresh := s.fresh + 1 }.takeCtl port b 0x01 s.someTime fun s => s.linkId port b)

/-- RTT_PROBE (R347). -/
def execRttProbe (port : Fin 32) (b : Block) (s : State) : Host.Outcome State Fault Refusal :=
  .next ({ s with fresh := s.fresh + 1 }.takeCtl port b 0x02 s.someTime fun s => s.rttProbe port b)

/-- RTT_REPLY (R340). -/
def execRttReply (port : Fin 32) (b : Block) (ns : Nat) (s : State) : Host.Outcome State Fault Refusal :=
  .next (s.takeCtl port b 0x03 ns fun s => s.rttReply port b ns)

/-- INIT_DONE (R345). -/
def execInitDone (port : Fin 32) (b : Block) (s : State) : Host.Outcome State Fault Refusal :=
  .next ({ s with fresh := s.fresh + 1 }.takeCtl port b 0x04 s.someTime fun s => s.initDone port b)

/-- RETRAIN_REQ (R349). -/
def execRetrainReq (port : Fin 32) (b : Block) (s : State) : Host.Outcome State Fault Refusal :=
  .next ({ s with fresh := s.fresh + 1 }.takeCtl port b 0x10 s.someTime fun s => s.retrainReq port b)

/-- FOLLOW (R349). -/
def execFollow (port : Fin 32) (b : Block) (s : State) : Host.Outcome State Fault Refusal :=
  .next ({ s with fresh := s.fresh + 1 }.takeCtl port b 0x11 s.someTime fun s => s.followed port b)

/-- UNDEFINED_BLOCK (R328, R347): neither ACK nor XOFF is taken. -/
def execUndefinedBlock (port : Fin 32) (b : Block) (s : State) : Host.Outcome State Fault Refusal :=
  .next (
    if 4 ≤ b.type.toNat ∨ (b.type = 3 ∧ cmsg b ∉ [0x01, 0x02, 0x03, 0x04, 0x10, 0x11]) then
      s.takeBlock port b fun s => s.bump .lnk port 0x148
    else s)

/-- TRAIN_DONE (R325, R345). -/
def execTrainDone (port : Fin 32) (mine peer : BitVec 8) (s : State) : Host.Outcome State Fault Refusal := .next (s.trainDone port mine peer)

/-- TRAIN_TIMEOUT (R345). -/
def execTrainTimeout (port : Fin 32) (elapsedUs : Nat) (s : State) : Host.Outcome State Fault Refusal := .next (s.trainTimeout port elapsedUs)

/-- LANE_ERR (R345). -/
def execLaneErr (port : Fin 32) (lane : Fin 8) (s : State) : Host.Outcome State Fault Refusal := .next (s.laneErr port lane)

/-- LOCK_LOST (R345). -/
def execLockLost (port : Fin 32) (s : State) : Host.Outcome State Fault Refusal := .next (s.lockLost port)

/-- PROBATION_END (R348). -/
def execProbationEnd (port : Fin 32) (s : State) : Host.Outcome State Fault Refusal := .next (s.probationEnd port)

/-- TRAIN_RETRY (R345). -/
def execTrainRetry (port : Fin 32) (s : State) : Host.Outcome State Fault Refusal := .next (s.trainRetry port)

end Sys2Proof.Machine
end

