-- ==== Sys2Proof/Machine/Registers.lean ====
section
/-! DEFINITION. Register writes (R6, R478 to R480, R487, R496) and the common registers of every page (R439 to R441, R481). -/

namespace Sys2Proof.Machine

/-! ### The common part of a page -/

/-- W1C of EVT_STATUS: the page signals again when an enabled bit stays set (R440). -/
def State.evtClear (s : State) (b : Blk) (i : Nat) (v : Word) : State :=
  let o := rOff b i 0x20
  let s := s.setReg o (s.reg o &&& ~~~v)
  if s.reg o &&& s.reg (rOff b i 0x28) ≠ 0 then s.signalPage b i else s

/-- W1S of EVT_FORCE: each bit that the block defines sets as its event would, without a capture (R440). -/
def State.evtForce (s : State) (b : Blk) (i : Nat) (v : Word) : State :=
  ((List.range b.events).filter fun k => bit v k).foldl (fun s k => s.raise b i k) s

/-- A write of ERR_LOG0: VALID = 1 clears all eight words (R439). -/
def State.errClear (s : State) (b : Blk) (i : Nat) (v : Word) : State :=
  if bit v 0 then (List.range 8).foldl (fun s k => s.setReg (rOff b i (0x40 + 8 * k)) 0) s else s

/-- A write of CNT_CTRL: FREEZE is stored, CLEAR acts at the next boundary (R441). -/
def State.cntWrite (s : State) (b : Blk) (i : Nat) (v : Word) : State :=
  let o := rOff b i 0x80
  s.setReg o (place 1 1 (max (bits v 1 1) (s.fld o 1 1)) ||| place 0 0 (bits v 0 0))

/-- A write of the common part at offset `o`; none where the agent may not write the register there (R479, R481). -/
def State.commonWrite (s : State) (by' : Agent) (b : Blk) (i o : Nat) (v : Word) : Option State :=
  match o with
  | 0x20 => some (s.evtClear b i v)
  | 0x28 => match by' with
    | .hostDie => none
    | _ => some (s.setReg (rOff b i 0x28) v)
  | 0x30 => some (s.evtForce b i v)
  | 0x38 =>
    let r := rOff b i 0x38
    match by' with
    | .hostDie => some (s.setReg r (setBits (setBits (s.reg r) 14 14 (bits v 14 14)) 8 0 (bits v 8 0)))
    | _ => some (s.setReg r (place 15 14 (bits v 15 14) ||| place 8 0 (bits v 8 0)))
  | 0x40 => some (s.errClear b i v)
  | 0x80 => some (s.cntWrite b i v)
  | 0x10 => match by' with
    | .hostDie => none
    | _ => some s
  | _ => some s

/-! ### Fields (00_scope.md, R479) -/

/-- Whether an agent may write a field: the host die those that the index names, firmware all; the management controller writes its
own pages only (R478, R479). Log 96. -/
def Fld.writable (f : Fld) (by' : Agent) : Bool :=
  decide (f.acc ≠ .ro) && (match by' with
    | .hostDie => f.host
    | .firmware => true
    | .management => false)

/-- One field of a register after a write of `v`. -/
def Fld.apply (f : Fld) (v old : Word) : Word :=
  match f.acc with
  | .ro => old
  | .rw => setBits old f.hi f.lo (bits v f.hi f.lo)
  | .w1c => setBits old f.hi f.lo (bits (old &&& ~~~v) f.hi f.lo)
  | .w1s => setBits old f.hi f.lo (bits (old ||| v) f.hi f.lo)

/-- A register's image after a write of `v` by an agent; none when the register has fields to write and the agent may write none of
them (R479). -/
def Reg.write (r : Reg) (by' : Agent) (v old : Word) : Option Word :=
  let fs := r.flds.filter fun f => f.writable by'
  if fs.isEmpty && r.flds.any (fun f => decide (f.acc ≠ .ro)) then none
  else some (fs.foldl (fun w f => f.apply v w) old)

/-! ### Registers with behaviour of their own -/

/-- A firmware write of HDG_ADMIT_CTRL: STOPPED follows ADMIT_EN (R103). -/
def State.admitWrite (s : State) (i : Nat) (v : Word) : State :=
  let o := rOff .hdg i 0x200
  let was := bit (s.reg o) 1
  let s := s.setReg o (setBits (setBits (setBits (s.reg o) 15 8 (bits v 15 8)) 1 1 (1 - bits v 0 0)) 0 0 (bits v 0 0))
  let s := if bit v 0 then { s with rsv := { s.rsv with noGrant := false } } else s
  if was = bit (s.reg o) 1 then s else s.raise .hdg i 2

/-- A firmware write of UCI_HOST_CTRL: HOLD holds or releases the host die (R472, R475, R477). -/
def State.hostCtrlWrite (s : State) (v : Word) : State :=
  let was := s.hostHeld
  let s := s.setFld uciCtrl 31 16 (bits v 31 16)
  if bit v 0 then (if was then s else s.holdHost)
  else if was then ((s.setFld uciCtrl 0 0 0).setReg uciStatus (place 51 4 s.tick ||| place 1 0 1)).setReg uciAlive 0
  else s

/-- The ring whose CFG lies at an offset of the FWC pages. -/
def cfgAt (a : Nat) : Option CfgId :=
  ([.pair 0, .pair 1, .pair 2, .pair 3, .evt, .log, .trc] : List CfgId).find? fun c => decide (c.off = a)

/-- The ring whose BASE lies at an offset. -/
def baseAt (a : Nat) : Option BaseId :=
  ([.cmd 0, .cmd 1, .cmd 2, .cmd 3, .cpl 0, .cpl 1, .cpl 2, .cpl 3, .evt, .log, .trc] : List BaseId).find? fun c => decide (c.off = a)

/-- The ring whose TAIL the driver writes at an offset. -/
def tailAt (a : Nat) : Option RingId :=
  ([.cpl 0, .cpl 1, .cpl 2, .cpl 3, .evt, .log, .trc] : List RingId).find? fun c => decide (c.tail = a)

/-- The command ring whose HEAD lies at an offset. -/
def headAt (a : Nat) : Option (Fin 4) := ([0, 1, 2, 3] : List (Fin 4)).find? fun i => decide (cmdHead i = a)

/-- The table whose register group holds an offset of the EXT page, and the register's place in it. -/
def groupAt (o : Nat) : Option (Table × Nat) :=
  if 0x200 ≤ o ∧ o < 0x300 then (Table.ofNum ((o - 0x200) / 0x20)).map fun t => (t, (o - 0x200) % 0x20) else none

/-- A write that a chapter gives an effect of its own; none where the register is stored plainly. The agent may write it. -/
def State.ownWrite (s : State) (pg : Page) (o a : Nat) (v : Word) : Option State :=
  match pg.blk with
  | .uci =>
    if o = 0x220 then some (s.hostCtrlWrite v)
    else if o = 0x230 then some (s.aliveWrite v)
    else if 0x240 ≤ o ∧ o < 0x280 then some (s.vecMaskWrite ((o - 0x240) / 8) v)
    else none
  | .ext =>
    let (n, s') := s.drawNat
    match groupAt o with
    | some (t, 0x18) => some (s'.ctrlWrite t v (n % 2 ^ 14))
    | some (t, 0x00) => some (s'.baseWrite t false v (n % 2 ^ 14))
    | some (t, 0x08) => some (s'.baseWrite t true v (n % 2 ^ 14))
    | _ => none
  | .fwc1 | .fwc2 =>
    match cfgAt a, baseAt a, tailAt a, headAt a with
    | some c, _, _, _ => some (s.cfgWrite c v)
    | _, some b, _, _ => some (s.ringBase b v)
    | _, _, some r, _ => some (s.tailWrite r v)
    | _, _, _, some i => some (s.headWrite i v)
    | _, _, _, _ => none
  | .hdg => if o = 0x200 then some (s.admitWrite pg.inst v) else none
  | .xlt =>
    if o = 0x228 then some (s.invCtrlWrite pg.inst v)
    else if o = 0x230 then some (s.resumeWrite pg.inst v)
    else none
  | .lnk => if o = 0x208 then some (s.lnkCtrlWrite pg.inst v) else none
  | _ => none

/-- A register write: the state after it, and whether it completes without error (R6, R478, R479). Log 99. Log 183. -/
def State.regWrite (s : State) (by' : Agent) (a size : Nat) (v : Word) : Bool × State :=
  if size ≠ 8 ∨ a % 8 ≠ 0 then (false, s)
  else match pageOf (a / 4096) with
  | none => (false, s)
  | some pg =>
    let o := a % 4096
    if s.blockReset pg.blk then (false, s)
    else if pg.blk = .mgt ∧ by' ≠ .management then (true, s)
    else if o < 0x200 then
      match s.commonWrite by' pg.blk pg.inst o v with
      | some s => (true, s)
      | none => (false, s)
    else if isSelector pg.blk o then
      match pg.blk.regAt o with
      | some r => (true, s.setSel by' a ((r.flds.filter fun f => f.acc ≠ .ro).foldl (fun w f => f.apply v w) (s.sel by' a)))
      | none => (true, s)
    else match pg.blk.regAt o with
      | none => (true, s)
      | some r =>
        match r.write by' v (s.reg a) with
        | none => (false, s)
        | some w =>
          if r.flds.any (fun f => f.writable by') then
            match s.ownWrite pg o a v with
            | some s => (true, s)
            | none => (true, s.setReg a w)
          else (true, s)

/-! ### Rows -/

/-- A write to the common part of a page by its own row. Log 95. -/
def State.pageWrite (s : State) (by' : Agent) (page : Nat) (k : Blk → Nat → State) : State :=
  match pageOf page with
  | none => s.respond by' false
  | some pg =>
    if s.blockReset pg.blk then s.respond by' false
    else if pg.blk = .mgt ∧ by' ≠ .management then s.respond by' true
    else (k pg.blk pg.inst).respond by' true

/-- REGISTER_WRITE (R479). -/
def execRegisterWrite (by' : Agent) (addr : BitVec 24) (size : Nat) (value : Word) (s : State) : Host.Outcome State Fault Refusal :=
  let r := s.regWrite by' addr.toNat size value
  .next (r.2.respond by' r.1)

/-- EVT_FORCE (R440). -/
def execEvtForce (by' : Agent) (page : BitVec 12) (value : Word) (s : State) : Host.Outcome State Fault Refusal :=
  .next (s.pageWrite by' page.toNat fun b i => s.evtForce b i value)

/-- EVT_STATUS_CLEAR (R440). -/
def execEvtStatusClear (by' : Agent) (page : BitVec 12) (value : Word) (s : State) : Host.Outcome State Fault Refusal :=
  .next (s.pageWrite by' page.toNat fun b i => s.evtClear b i value)

/-- ERR_LOG_CLEAR (R439). -/
def execErrLogClear (by' : Agent) (page : BitVec 12) (value : Word) (s : State) : Host.Outcome State Fault Refusal :=
  .next (s.pageWrite by' page.toNat fun b i => s.errClear b i value)

end Sys2Proof.Machine
end

