-- ==== Sys2Proof/Machine/ExtOps.lean ====
section
/-! DEFINITION. Extents as firmware makes, resizes, pins, revokes and destroys them (R47 to R51, R58, R218 to R220, R274 to R278)
and their update descriptors (R172, R173): one operation per extent command. -/

namespace Sys2Proof

/-- EXTENT of W1. -/
def Entry.ext (e : Entry) : Nat := Machine.bits e.w1 17 0

/-- Whether W1 names nothing but an extent, and the entry no other operand. -/
def Entry.onlyExt (e : Entry) : Bool := e.rsvOk 0 0x3FFFF 0 0 0 0 0 0

end Sys2Proof

namespace Sys2Proof.Machine

/-! ### Parcels and frames of an extent -/

/-- Allocate parcels `lo` to `hi - 1` of an extent: numbers, PKT entries and parcel map entries (R47 to R49). -/
def State.addParcels (s : State) (x key base mask start lo hi : Nat) : State :=
  (List.range (hi - lo)).foldl (fun (s : State) (k : Nat) =>
    let r := s.takeParcel x (lo + k)
    (r.2.setPkt r.1 key true).setPmap base (lo + k) true r.1 (homeStack mask start (lo + k))) s

/-- Parcels of `lo` to `hi - 1` on a stack. -/
def placedOn (mask start lo hi st : Nat) : List Nat :=
  ((List.range (hi - lo)).map (lo + ·)).filter fun i => decide (homeStack mask start i = st)

/-- Frames that zero-filled parcels and directory frames of `lo` to `hi - 1` take of each stack's pool (R220, R277). -/
def framesOn (mask start lo hi : Nat) (parcels dirs assured : Bool) (st : Nat) : Nat :=
  let n := fun (st : Nat) =>
    let k := (placedOn mask start lo hi st).length
    (if parcels then k else 0) + (if dirs then cdiv k 32 else 0)
  n st + (if assured then n (mirrorStack st) else 0)

/-- Every stack's pool holds the frames asked for, stack by stack (R220). -/
def State.framesFit (s : State) (need : Nat → Nat) : Bool := (List.range 24).all fun st => decide (need st ≤ s.freeFrames st)

/-- Give parcels `lo` to `hi - 1` of an extent PINNED frames of zero lines (R220, R278). -/
def State.zeroParcels (s : State) (base fmt : Nat) (assured : Bool) (lo hi : Nat) : State :=
  (List.range (hi - lo)).foldl (fun (s : State) (k : Nat) =>
    let m := s.pmapAt base (lo + k)
    s.pinZero m.2.1 m.2.2 fmt assured) s

/-! ### Directories (R276, R277) -/

/-- A directory frame on a stack, zero-filled, with its mirror for an Assured extent. -/
def State.dirFrameOn (s : State) (st : Nat) (assured : Bool) : Nat × State :=
  match s.takeFrame st with
  | (none, s) => (0, s)
  | (some f, s) =>
    let base : Fht := { st := .pinned, assured := assured, dirFrame := true }
    let s := (s.setFht f base).zeroFrame f 0 false none
    if assured then
      match s.takeFrame (mirrorStack st) with
      | (none, s) => (f, s)
      | (some m, s) =>
        let s := s.setFht f { base with mirrorFrame := m }
        (f, (s.setFht m { st := .mirror, assured := true, mirrorFrame := f }).zeroFrame m 0 true none)
    else (f, s)

/-- Directory frames and directory map entries of parcels `lo` to `hi - 1`: 32 parcels of one home stack to a frame. Log 109. -/
def State.addDirs (s : State) (mask start dirBase lo hi : Nat) (assured : Bool) : State :=
  (maskStacks mask).foldl (fun (s : State) (st : Nat) =>
    ((placedOn mask start lo hi st).zipIdx.foldl (fun (a : Nat × State) (ik : Nat × Nat) =>
      let a := if ik.2 % 32 = 0 then a.2.dirFrameOn st assured else a
      (a.1, a.2.writeRegion (dirBase + 4 * ik.1) (leBytes 4 (a.1 + ik.2 % 32 * 2 ^ 20)) false)) (0, s)).2) s

/-- Size of a map of `n` 4-byte entries. -/
def mapBytes (n : Nat) : Nat := cdiv (4 * n) 4096 * 4096

/-- A map at a new place: `n` entries long, holding the first `k` entries of the map at `old`; the old block goes back two ticks on. -/
def State.growMap (s : State) (old n k : Nat) : Nat × State :=
  let r := s.placeBlock (mapBytes n) 4096
  let bs := s.readRegion old (4 * k)
  let s := r.2.writeRegion r.1 bs false
  (r.1, { s with fw := { s.fw with frees := s.fw.frees ++ [(⟨old, none, s.effectTick⟩ : FreeJob)] } })

/-! ### The checks that extent commands share (R50) -/

/-- A refusal whose retry-after tick the spec leaves open (log 3). -/
def State.refuseOpen (s : State) (op : Nat) (e : Entry) : State :=
  { s with fresh := s.fresh + 1 }.refuse op e (Config.freeNat s.fresh % tickMod)

/-- A command on a valid extent: EXTENT_INVALID without VALID, REVOKED on a revoked extent (R50). -/
def State.extCommand (s : State) (op : Nat) (e : Entry) (wf feature tenant : Bool) (k : Extt → State → State) : State :=
  s.command op e wf feature (.ext e.ext) tenant fun s =>
    let d := s.exttNow e.ext
    if !d.valid then s.endNow op e stInvalid
    else if d.revoked then s.endNow op e stRevoked
    else k d s

/-! ### EXT_CREATE (R50, R220, R274) -/

/-- The kind that a create names, or the tenant's default (R25). -/
def State.createAssured (s : State) (e : Entry) : Bool :=
  let k := bits e.w1 25 24
  decide (k = 2) || (decide (k = 0) && decide (s.fld 0x5200 4 3 = 2))

/-- Whether the operands of a create lie in the ranges their rules allow (R45, R47, R138, R139, R274, R386). -/
def createWf (e : Entry) : Bool :=
  let w1 := e.w1
  e.rsvOk 0 (place 17 0 0x3FFFF ||| place 58 20 (2 ^ 39 - 1)) (place 23 0 0xFFFFFF ||| place 47 32 0xFFFF)
      (place 28 0 (2 ^ 29 - 1) ||| place 31 31 1) 0 0 0 0 &&
    decide (bits w1 25 24 ≠ 3) && decide (bits e.w2 47 32 ≠ 0) && decide (bits e.w2 23 0 < 0x800000) &&
    (!bit e.w3 31 || (decide (bits e.w3 28 24 ≤ 23) && bit e.w3 (bits e.w3 28 24))) &&
    rowOk (bits w1 23 20) (bits w1 51 39) (bits w1 58 52) && (!bit w1 26 || decide (bits w1 23 20 = 0))

/-- The entry that a create writes, VALID still 0. -/
def State.createEntry (s : State) (e : Entry) (mask start base : Nat) : Extt :=
  let w1 := e.w1
  let n := parcelCount (bits e.w2 23 0)
  { valid := false, state := 0, pinned := !s.hasFlash, assured := s.createAssured e, coherent := bit w1 26, format := bits w1 23 20,
    rowElems := bits w1 51 39, rowLines := bits w1 58 52, domain := bits w1 38 27, parcels := n, prev := n, pmap := base,
    revoke := 0, resize := 0, upd5 := 0, upd6 := 0, stackMask := mask, startStack := start }

/-- Parcels and frames suffice for a create (R50, R218, R220). -/
def State.createFits (s : State) (d : Extt) : Bool :=
  let n := d.parcels
  let need := framesOn d.stackMask d.startStack 0 n (!s.hasFlash) d.coherent d.assured
  let sts := (maskStacks d.stackMask ++ if d.assured then (maskStacks d.stackMask).map mirrorStack else []).dedup
  decide (n ≤ s.parcelsFree) && s.framesFit need &&
    (!(d.coherent && s.hasFlash) ||
      decide (n * (if d.assured then 2 else 1) + ((List.range 24).map need).sum ≤ (sts.map s.unpinnedFrames).sum))

/-- On a device without flash every parcel gets its frame, and the zero-fill of all lines begins; the command waits for it (R220, R254). -/
def State.beginZero (s : State) (e : Entry) (x base : Nat) (d : Extt) : State :=
  let s := (List.range d.parcels).foldl (fun (s : State) (k : Nat) =>
    let m := s.pmapAt base k
    (s.giveFrame m.2.1 m.2.2 d.assured s.tick .pinned).getD s) s
  let j : PinJob := { ext := x, create := true, copy := some (s.extentLines x), zero := true }
  { s with tier := { s.tier with pins := s.tier.pins ++ [j] } }.journal 0x20 e (.ext x) (.pin x) 0

/-- EXT_CREATE: parcels, parcel map, PKT entries and entry; on a device without flash frames, zero-filled before VALID is written; a coherent
extent takes its directory and its pin before the command completes. It names the extent and, when COHERENT, its domain (R385). Of an
extent that is VALID it is REFUSED, REVOKED or not (R386; log 168). Log 57. -/
def State.extCreate (s : State) (e : Entry) : State :=
  let coh := bit e.w1 26
  let dom := Obj.dom (bits e.w1 38 27)
  let obj := if coh && (s.busyTick (.ext e.ext)).isNone && (s.busyTick dom).isSome then dom else .ext e.ext
  s.command 0x20 e (createWf e) ((!coh || s.hasCoh) && (!s.createAssured e || s.hasAssured)) obj true fun s =>
    let x := e.ext
    if coh && !(domtOf (s.entryMem .domt (s.activeBank .domt) (bits e.w1 38 27))).valid then s.endNow 0x20 e stBadFormat
    else if (s.exttNow x).valid then s.refuse 0x20 e 0
    else
      let p : (Nat × Nat) × State := if bit e.w3 31 then ((bits e.w3 23 0, bits e.w3 28 24), s)
        else ((0xFFFFFF, s.startStack.1), s.startStack.2)
      let d := s.createEntry e p.1.1 p.1.2 0
      if !s.createFits d then s.refuse 0x20 e 0
      else
        let b := p.2.placeBlock (mapBytes d.parcels) 4096
        let d := { d with pmap := b.1 }
        let s := (b.2.putBoth .extt x d.words).addParcels x (bits e.w2 47 32) b.1 d.stackMask d.startStack 0 d.parcels
        if !s.hasFlash then s.beginZero e x b.1 d
        else if coh then
          let c := s.placeBlock (mapBytes d.parcels) 4096
          let s := c.2.addDirs d.stackMask d.startStack c.1 0 d.parcels d.assured
          let s := s.putBoth .extt x { d with valid := true, upd5 := place 51 12 (c.1 / 4096) }.words
          (s.journal 0x20 e (.ext x) (.pin x) 0).beginPin x true
        else (s.putBoth .extt x { d with valid := true }.words).endNow 0x20 e stOk

/-! ### EXT_RESIZE (R50, R51, R278) -/

/-- A grow: parcels, PKT entries, maps, zeroed frames for a pinned extent and directories, then the entry. Log 107. -/
def State.extGrow (s : State) (e : Entry) (x : Nat) (d : Extt) (n : Nat) : State :=
  let old := d.parcels
  let zero := d.pinned || d.coherent
  if s.parcelsFree < n - old || !s.framesFit (framesOn d.stackMask d.startStack old n zero d.coherent d.assured) then s.refuse 0x21 e 0
  else
    let key := bits ((s.entryMem .pkt (s.activeBank .pkt) ((s.pmapAt d.pmap 0).2.1)).headD 0) 15 0
    let m : Nat × State := if mapBytes n ≤ mapBytes old then (d.pmap, s) else s.growMap d.pmap n old
    let s := m.2.addParcels x key m.1 d.stackMask d.startStack old n
    let s := if zero then s.zeroParcels m.1 d.format d.assured old n else s
    let dirBase := bits d.upd5 51 12 * 4096
    let c : Nat × State := if !d.coherent || mapBytes n ≤ mapBytes old then (dirBase, s) else s.growMap dirBase n old
    let s := if d.coherent then c.2.addDirs d.stackMask d.startStack c.1 old n d.assured else c.2
    let d := { d with parcels := n, prev := old, resize := s.effectTick, pmap := m.1,
                      upd5 := if d.coherent then place 51 12 (c.1 / 4096) else d.upd5 }
    (s.changeExtt x d).journalTick 0x21 e (.ext x) s.effectTick

/-- A shrink: the removed parcels drain from I + 2. -/
def State.extShrink (s : State) (e : Entry) (x : Nat) (d : Extt) (n : Nat) : State :=
  let t := s.effectTick
  let s := s.changeExtt x { d with parcels := n, prev := d.parcels, resize := t }
  let j : DrainJob := { ext := x, kind := .shrink, b := t, oldCount := d.parcels, newCount := n }
  { s with tier := { s.tier with drains := s.tier.drains ++ [j] } }.journalTick 0x21 e (.ext x) t

/-- EXT_RESIZE: refused while an earlier shrink drains, with a shrink of a coherent extent whose domain is not QUIET. -/
def State.extResize (s : State) (e : Entry) : State :=
  s.extCommand 0x21 e (e.rsvOk 0 0x3FFFF 0xFFFFFF 0 0 0 0 0 && decide (bits e.w2 23 0 < 0x800000)) true true fun d s =>
    let x := e.ext
    let n := parcelCount (bits e.w2 23 0)
    if s.tier.drains.any (fun j => decide (j.ext = x ∧ j.kind = .shrink)) then s.refuseOpen 0x21 e
    else if d.parcels ≤ n then s.extGrow e x d n
    else if d.coherent && decide ((s.dom d.domain).st ≠ .quiet) then s.refuse 0x21 e 0
    else s.extShrink e x d n

/-! ### EXT_PIN and EXT_UNPIN (R218, R219, R274) -/

/-- A pin of the extent is pending. -/
def State.pinPending (s : State) (x : Nat) : Bool := s.tier.pins.any fun j => decide (j.ext = x)

/-- EXT_PIN. Log 111. -/
def State.extPin (s : State) (e : Entry) : State :=
  s.extCommand 0x22 e e.onlyExt true true fun _ s =>
    let x := e.ext
    if s.pinPending x then s.journal 0x22 e (.ext x) (.pin x) 0
    else if !s.pinFits x then s.refuse 0x22 e 0
    else
      let s := { s with tier := { s.tier with repins := s.tier.repins.filter (· ≠ x) } }
      (s.journal 0x22 e (.ext x) (.pin x) 0).beginPin x false

/-- EXT_UNPIN: every extent of a device without flash is pinned (R2, R220), and so is a coherent one. Log 110. -/
def State.extUnpin (s : State) (e : Entry) : State :=
  s.extCommand 0x23 e e.onlyExt s.hasFlash false fun d s =>
    let x := e.ext
    if d.coherent then s.refuse 0x23 e 0
    else if s.pinPending x then s.refuseOpen 0x23 e
    else if !d.pinned then s.refuse 0x23 e 0
    else
      let t := s.effectTick
      let s := s.changeExtt x { d with pinned := false }
      let t' := { s.tier with
        drains := s.tier.drains ++ [({ ext := x, kind := .unpin, b := t } : DrainJob)]
        pinOrder := s.tier.pinOrder.filter (· ≠ x) }
      { s with tier := t' }.journalTick 0x23 e (.ext x) t

/-! ### EXT_REVOKE and EXT_DESTROY (R50, R58, R278) -/

/-- EXT_REVOKE. -/
def State.extRevoke (s : State) (e : Entry) : State :=
  s.extCommand 0x24 e e.onlyExt true false fun d s =>
    let x := e.ext
    if d.coherent && decide ((s.dom d.domain).st ≠ .quiet) then s.refuse 0x24 e 0
    else
      let b := s.effectTick
      let s := s.changeExtt x { d with state := 1, revoke := b }
      let t' := { s.tier with
        drains := s.tier.drains ++ [({ ext := x, kind := .revoke, b := b } : DrainJob)]
        repins := s.tier.repins.filter (· ≠ x) }
      { s with tier := t' }.journalTick 0x24 e (.ext x) b

/-- Free everything that an extent holds: directory frames, parcels with frames and flash, and its maps. -/
def State.freeExtent (s : State) (x : Nat) : State :=
  let d := s.exttNow x
  let s := (s.freeDirs x 0).freeTail x 0
  let maps := d.pmap :: (if d.coherent then [bits d.upd5 51 12 * 4096] else [])
  let jobs := maps.map fun b => (⟨b, none, s.effectTick⟩ : FreeJob)
  let t' := { s.tier with
    revDrained := s.tier.revDrained.filter (· ≠ x)
    pinOrder := s.tier.pinOrder.filter (· ≠ x)
    pins := s.tier.pins.filter fun j => decide (j.ext ≠ x)
    drains := s.tier.drains.filter fun j => decide (j.ext ≠ x) }
  { s with tier := t', fw := { s.fw with frees := s.fw.frees ++ jobs } }

/-- EXT_DESTROY: only of an extent whose revocation has drained; with retry-after D while it drains. -/
def State.extDestroy (s : State) (e : Entry) : State :=
  s.command 0x25 e e.onlyExt true (.ext e.ext) false fun s =>
    let x := e.ext
    let d := s.exttNow x
    if !d.valid then s.endNow 0x25 e stInvalid
    else if !d.revoked then s.refuse 0x25 e 0
    else if s.tier.revDrained.contains x then
      let s := (s.freeExtent x).changeExtt x { d with valid := false }
      s.journalTick 0x25 e (.ext x) s.effectTick
    else
      match s.tier.drains.find? (fun j => decide (j.ext = x ∧ j.kind = .revoke)) with
      | some j => match j.due with
        | some t => s.refuse 0x25 e t
        | none => s.refuseOpen 0x25 e
      | none => s.refuse 0x25 e 0

/-! ### EXT_UPDATE_SET (R172, R173) -/

/-- Whether a descriptor fits its weight extent and companion. -/
def State.updFits (s : State) (x : Nat) (d : Extt) (u : UpdDesc) : Bool :=
  decide (d.format ≠ 0) && !d.coherent && decide (u.opt ≤ 4) &&
    (!u.usesComp ||
      (let c := s.exttNow u.comp
       let n := d.rowsAt s.tick
       let size := c.bytesAt s.tick
       let vec := u.vecParcel * 2 ^ 21
       decide (u.comp ≠ x) && c.valid && decide (c.format = 0) && !c.coherent && (!d.pinned || c.pinned) &&
         (!u.counts || decide (4 * n ≤ if u.vectors = 0 then size else vec)) &&
         (decide (u.vectors = 0) || decide (vec + n * u.stateLines d.rowElems * 256 ≤ size))))

/-- EXT_UPDATE_SET: words 5 and 6 in place, ε in the companion, in force from I + 2. -/
def State.extUpdateSet (s : State) (e : Entry) : State :=
  let m5 := place 3 0 15 ||| place 49 8 (2 ^ 42 - 1)
  s.extCommand 0x26 e (e.rsvOk 0 0x3FFFF m5 (~~~0) 0xFFFF 0 0 0) true true fun d s =>
    let x := e.ext
    let u := updDesc e.w2 e.w3 (bits e.w4 15 0)
    if !s.updFits x d u then s.endNow 0x26 e stBadFormat
    else
      let s := s.changeExtt x { d with upd5 := e.w2, upd6 := e.w3 }
      let s := if u.usesComp then s.changeExtt u.comp { s.exttNow u.comp with upd5 := place 15 0 (bits e.w4 15 0) } else s
      s.journalTick 0x26 e (.ext x) s.effectTick

end Sys2Proof.Machine
end

