-- ==== Sys2Proof/Machine/Resets.lean ====
section
/-! DEFINITION. Compute resets and tile faults (R417 to R419, R427 to R429), a variant taking force (R424), the seeding of the
stochastic-rounding generators (R177, R517), and the thermal limits (R495, R513 to R515). -/

namespace Sys2Proof.Machine

/-! ### Generators (R177, R517) -/

/-- The state that SEED gives core `g`. -/
def seedOf (seed : Word) (g : Nat) : Word :=
  let z := seed + BitVec.ofNat 64 (g + 1) * 0x9E3779B97F4A7C15
  let z := (z ^^^ (z >>> 30)) * 0xBF58476D1CE4E5B9
  let z := (z ^^^ (z >>> 27)) * 0x94D049BB133111EB
  let z := z ^^^ (z >>> 31)
  if z = 0 then 0x2545F4914F6CDD1D else z

/-- Seed every physical core: from HDG_SR_SEED of its tile, or from the entropy drawn (where the operand does not say, a free
value; log 3). -/
def State.seedCores (s : State) (drawn : List Word) : State :=
  let base := s.fresh
  let seeds := (List.range 136).map fun g =>
    let seed := s.reg (rOff .hdg (g / 34) 0x248)
    if seed ≠ 0 then (g, seedOf seed g)
    else
      let x := (drawn[g]?).getD (Config.entropy (base + g))
      (g, if x = 0 then 0x2545F4914F6CDD1D else x)
  { s with fresh := base + 136, prng := seeds.foldl (fun m e => sset (fun _ => (0 : Word)) m e.1 e.2) s.prng }

/-! ### A change of the variant (R3, R424) -/

/-- The ports follow a pending VARIANT licence: those that lose it go DISABLED with cause LICENCE, new ones are enabled and train (R424).
A port that goes keeps the values of its counters, which count no more (R3; DEDUCED, log 167). -/
def State.applyVariant (s : State) : State :=
  if !(bit (s.reg 0x1200) 4) then s
  else
    let old := s.fld 0x1208 31 0
    let new := variantPorts s.licVariant.1
    let s := s.setReg 0x1208 (place 31 0 new)
    (List.range 32).foldl (fun s p =>
      let o := rOff .lnk p 0x208
      if old / 2 ^ p % 2 = 1 ∧ new / 2 ^ p % 2 = 0 then (s.enterDisabled p 0xC).setFld o 3 3 1
      else if old / 2 ^ p % 2 = 0 ∧ new / 2 ^ p % 2 = 1 then (s.setFld o 3 3 0).leaveDisabled p |>.enterTrain p
      else s) s

/-! ### Compute reset (R417 to R419) -/

/-- Start a compute reset whose tick C is `c`; of two that have not stopped admission yet the earlier C stands. -/
def State.startReset (s : State) (c : Nat) (tile third : Bool) : State :=
  match s.creset with
  | some r => if r.stopped then s
      else { s with creset := some { r with c := if later r.c c then c else r.c, tile := r.tile || tile, third := r.third || third } }
  | none => { s with creset := some { c := c, tile := tile, third := third } }

/-- A drain or a TIER_FLUSH runs, or the device has ended one (R418). -/
def State.draining (s : State) : Bool := s.rsv.drain.isSome || s.rsv.dead

/-- COMPUTE_RESET_STOP at C. -/
def State.resetStop (s : State) : State :=
  match s.creset with
  | none => s
  | some r =>
    if r.stopped || later r.c s.tick || s.draining then s
    else
      let s := { s with creset := some { r with stopped := true, keepStopped := s.rsv.flushed }, rsv := { s.rsv with noGrant := true } }
      let cause := if r.tile then 4 else 3
      let s := s.discardAll { cause := cause, scope := 0, landed := false, x := s.tick, send := tadd s.tick 1 }
      let s := s.allDomainsDown
      let s := s.setReg 0x218 (place 63 16 s.tick ||| place 4 1 cause ||| place 0 0 1)
      (s.bump .glb 0 0x108).raise .glb 0 3

/-- Zero whole 4 KiB units of the control region. -/
def State.zeroUnits (s : State) (a n : Nat) : State :=
  (List.range n).foldl (fun s i => match s.regionPhys (a + 4096 * i) with
    | some p => { s with hbm := s.hbm.filter (fun c => decide (c.1 < p ∨ p + 4096 ≤ c.1)),
                         lmeta := s.lmeta.filter (fun e => decide (e.1 < p / 256 ∨ p / 256 + 16 ≤ e.1)) }
    | none => s) s

/-- The fault queues of the four tiles are cleared (R203, R208). -/
def State.clearFaultQueues (s : State) : State :=
  (List.range 4).foldl (fun s t =>
    let s := s.zeroUnits (s.fld (rOff .xlt t 0x200) 51 12 * 4096) 32
    (s.setReg (rOff .xlt t 0x208) 0).setReg (rOff .xlt t 0x210) 0) s

/-- COMPUTE_RESET_ASSERT at C + 2: reservations, translation state, fetches and programs go; CLEANING lines become DIRTY; recalls are
dropped (R208, R239, R417, R419). Log 102. -/
def State.resetAssert (s : State) : State :=
  match s.creset with
  | none => s
  | some r =>
    if !r.stopped || r.asserted || later (tadd r.c 2) s.tick then s
    else
      let s := { s with creset := some { r with asserted := true } }.refuseWaiting
      let s := { s with
        adm := { s.adm with reqs := [], claims := [], demand := [], report := [], nextShares := [], heads := [], overran := [] }
        xlt := { s.xlt with cache := [], leafs := [], groups := [], parked := [] }
        coh := { s.coh with recalls := [], waiting := [], dirs := [] }
        tier := { s.tier with
          fetches := []
          programs := []
          rebuilds := s.tier.rebuilds.map fun (j : Rebuild) => { j with left := 16384 }
          pcache := []
          copies := []
          lsm := s.tier.lsm.map (fun (e : Nat × LineSt) => (e.1, if e.2 = LineSt.cleaning then LineSt.dirty else e.2)) } }
      s.clearFaultQueues

/-- FIRMWARE_RESTART between C + 15,000 and C + 25,000 at the default period: generators are seeded, a pending variant is applied, the
blocks leave reset. The control cores restart from the SRAM image when its digest checks (R397). -/
def State.firmwareRestart (s : State) (drawn : List Word) : State :=
  match s.creset with
  | none => s
  | some r =>
    if !r.asserted || r.restarted || later (tadd r.c (s.ticksOfUs 30000)) s.tick || !s.sramOk then s
    else ({ s with creset := some { r with restarted := true } }.seedCores drawn).applyVariant

/-- The commands that wait for a compute reset end. -/
def State.finishReset (s : State) (status : Nat) : State :=
  (s.fw.journal.filter fun j => decide (j.wait = .reset)).foldl (fun s j => s.finish j status (BitVec.ofNat 64 s.tick)) s

/-- The reset leaves ADMIT_EN clear. -/
def State.resetFails (s : State) : State := (({ s with creset := none }.stopAdmission).finishReset stInternal).endReset 6

/-- The management controller's cold restart: TIER_FLUSH where there is something to flush, then the cold reset; the start that follows is
COLD_START (R416). `quiet`: the admitted work has been discarded already. -/
def State.coldRestart (s : State) (quiet : Bool) : State :=
  if s.draining then s
  else if s.hasFlash && s.opened then s.beginDrain .cold 2 false quiet
  else s.mainReset false

/-- ENGINE_CHECK at C + 125,000 at the default period; `failed` are logical cores by tile (R10), and
CORE_FAILED names core 32 × tile + logical core (R392; DEDUCED, log 166): admission opens, unless a core failed, a third tile fault came, or a completed
TIER_FLUSH keeps it stopped; after a failed core the management controller begins a cold start (R417, R418, R429). While a tenant is released it is not run (R456). -/
def State.engineCheck (s : State) (failed : List (Nat × Nat)) : State :=
  match s.creset with
  | none => s
  | some r =>
    if !r.restarted || later (tadd r.c (s.ticksOfUs 250000)) s.tick || decide (s.tenantState = 3) then s
    else if r.third then
      ((s.setFld 0x218 0 0 0).setFld 0x220 0 0 1).resetFails
    else if failed ≠ [] then
      let s := s.error .glb 0 { evtBit := 1, status := stInternal, code := 0x110 }
      let s := failed.foldl (fun s c =>
        (s.raise .fwc 0 1).postEvent ⟨BitVec.ofNat 8 (Blk.code .fwc), 0, 0x0061, BitVec.ofNat 64 (32 * c.1 + c.2),
          BitVec.ofNat 64 (s.fld 0x8208 7 0)⟩) s
      s.resetFails.coldRestart true
    else
      let s := ({ s with creset := none }.setFld 0x218 0 0 0).raise .glb 0 4
      let s := if s.fld 0x200 15 8 = 11 ∧ r.keepStopped = false then s.openDevice else s
      s.finishReset stOk

/-! ### Tile faults (R427 to R429) -/

/-- The page of the block that detected a tile fault. -/
def faultPage (block tile inst : Nat) : Option (Blk × Nat) :=
  if block = 0x10 then some (.hdg, tile) else if block = 0x1A ∧ inst < 136 then some (.eng, inst)
  else if block = 0x18 ∧ inst < 24 then some (.hmc, inst) else none

/-- The tile of a page that a tile fault names: that of the core or of the stack (R427). -/
def faultTile (p : Blk × Nat) : Nat :=
  match p.1 with
  | .eng => p.2 / 34
  | .hmc => p.2 / 6
  | _ => p.2

/-- Groups of a stack that a running drain can no longer read: which of those still to be written is a free choice (R427; log 3). -/
def State.unreadStack (s : State) (d : Drain) (st : Nat) : State :=
  let gs := (s.drainOrder (st / 6)).filter fun g => decide (s.homeStackOf g.1 = st)
  let o := gs.foldl (fun (a : List (Nat × Nat) × State) g =>
    let r := a.2.drawBool
    (if r.1 then a.1 ++ [g] else a.1, r.2)) (d.unread, s)
  { o.2 with rsv := { o.2.rsv with drain := some { d with unread := o.1.dedup } } }

/-- TILE_FAULT in this tick, at a cycle of it: the fault is recorded, and a compute reset with cause TILE begins at the next boundary,
or the one after when fewer than 64 cycles are left; during a drain it is only recorded, and a stack-bus parity error can leave groups that
the drain cannot read (R427). With the main rails off there is none (R15). Log 105. -/
def State.tileFault (s : State) (block tile inst cycle : Nat) : State :=
  match faultPage block tile inst with
  | none => s
  | some (b, i) =>
    let running := match s.creset with
      | some r => r.stopped
      | none => false
    if running || s.rsv.dead || !s.pins.mainPg then s
    else
      let s := s.capture b i { status := stInternal, cycle := some cycle }
      let s := { s with tileFaults := s.tileFaults ++ [s.tick] }
      let s := s.error .glb 0 { evtBit := 0, status := stInternal, code := 0x100, cycle := some cycle }
      let s := s.setReg 0x220 (place 63 16 s.tick ||| place 15 8 block ||| place 5 4 (faultTile (b, i)) ||| place 0 0 (s.fld 0x220 0 0))
      match s.rsv.drain with
      | some d => if d.begun && decide (b = .hmc) then s.unreadStack d i else s
      | none => s.startReset (tadd s.tick (if cycle + 64 ≤ 400 * s.tim.periodQ then 1 else 2)) true (decide (3 ≤ s.recentFaults))

/-! ### Temperature (R495, R513 to R515) -/

/-- One sensor: block code, instance, temperature, warning and critical limits, and the temperature of the last sample. -/
structure Sensor where
  block : Nat
  inst : Nat
  t : Int
  warn : Int
  crit : Int
  last : Int
deriving DecidableEq, Repr

/-- A limit of THM_LIMITS: one above its reset value acts as the reset value. -/
def State.thmLimit (s : State) (hi lo : Nat) : Int :=
  (min (s.fld 0x3238 hi lo) (bits (resetReg 0x3238) hi lo) : Nat)

/-- A stored temperature. -/
def State.tempAt (s : State) (o i : Nat) : Int := sint 8 (s.fld (o + i / 8 * 8) (i % 8 * 8 + 7) (i % 8 * 8))

/-- The sensors in the order tile, HBM, flash, host, with the temperatures given. -/
def State.sensors (s : State) (x : Sensors) : List Sensor :=
  let tw := s.thmLimit 7 0
  let tc := s.thmLimit 15 8
  let hw := s.thmLimit 23 16
  let hc := s.thmLimit 31 24
  let fw := s.thmLimit 39 32
  let fc := s.thmLimit 47 40
  ((List.range 4).map fun i => (⟨0x10, i, x.tile.getD i 0, tw, tc, s.tempAt 0x3200 i⟩ : Sensor)) ++
  ((List.range 24).map fun i => (⟨0x18, i, x.hbm.getD i 0, hw, hc, s.tempAt 0x3208 i⟩ : Sensor)) ++
  ((List.range 16).map fun i => (⟨0x19, i, x.flash.getD i 0, fw, fc, s.tempAt 0x3220 i⟩ : Sensor)) ++
  [⟨0x06, 0, x.host, tw, tc, s.tempAt 0x3230 0⟩]

/-- The sensors as the registers show them. -/
def State.sampled (s : State) : Sensors :=
  { tile := (List.range 4).map (s.tempAt 0x3200), hbm := (List.range 24).map (s.tempAt 0x3208),
    flash := (List.range 16).map (s.tempAt 0x3220), host := s.tempAt 0x3230 0 }

/-- A failed sensor reads −128. -/
def Sensor.failed (x : Sensor) : Bool := decide (x.t = -128)

/-- A sensor's level (R513). -/
def Sensor.level (x : Sensor) : Nat :=
  if x.failed then 1
  else if x.t < x.warn then 0
  else if x.crit ≤ x.t then 7
  else 1 + (6 * (x.t - x.warn) / (x.crit - x.warn)).toNat

/-- Pack temperatures, eight to a word. -/
def packTemps (ts : List Int) (w : Nat) : Word :=
  (List.range 8).foldl (fun a i => a ||| place (8 * i + 7) (8 * i) (ofInt 8 (ts.getD (8 * w + i) 0))) 0

/-- The temperature registers take a sample. -/
def State.storeTemps (s : State) (x : Sensors) : State :=
  let s := s.setReg 0x3200 (place 31 0 (packTemps (x.tile.take 4) 0).toNat)
  let s := (List.range 3).foldl (fun s w => s.setReg (0x3208 + 8 * w) (packTemps x.hbm w)) s
  let s := (List.range 2).foldl (fun s w => s.setReg (0x3220 + 8 * w) (packTemps x.flash w)) s
  let s := s.setReg 0x3230 (place 7 0 (ofInt 8 x.host))
  (List.range 24).foldl (fun s st => s.setFld (rOff .hmc st 0x208) 47 40 (ofInt 8 (x.hbm.getD st 0))) s

/-- THM_THROTTLE for the sensors of a sample: the greatest level and the first sensor that reaches it. -/
def throttleImage (ss : List Sensor) : Word :=
  let lvl := ss.foldl (fun a q => max a q.level) 0
  if lvl = 0 then 0
  else match ss.find? (fun q => decide (q.level = lvl)) with
    | some q => place 23 16 q.inst ||| place 15 8 q.block ||| place 3 3 1 ||| place 2 0 lvl
    | none => 0

/-- THERM_ALERT_N and the time that LEVEL has stood at 7, in µs of samples. -/
def State.noteLevel (s : State) : State :=
  let lvl := s.fld 0x3240 2 0
  let us := if lvl = 7 then s.rsv.level7Us + 1024 else 0
  let pins' := { s.pins with thermAlertN := decide (lvl = 0) }
  { s with pins := pins', rsv := { s.rsv with level7Us := us } }

/-- Count `n` events of the THM page and set their bit. -/
def State.thmCount (s : State) (c k n : Nat) : State := if n = 0 then s else (s.bumpN .thm 0 c n).raise .thm 0 k

/-- THERMAL_SAMPLE: the temperatures and the level; a sensor that reaches a limit or fails since the last sample counts. Nothing
samples while the main rails are off (R15). Log 104. -/
def State.thermalSample (s : State) (x : Sensors) : State :=
  if !s.pins.mainPg then s else
  let ss := s.sensors x
  let newWarn := (ss.filter fun q => !q.failed && decide (q.warn ≤ q.t) && decide (q.last < q.warn)).length
  let newCrit := (ss.filter fun q => !q.failed && decide (q.crit ≤ q.t) && decide (q.last < q.crit)).length
  let newFail := (ss.filter fun q => q.failed && decide (q.last ≠ -128)).length
  let old := s.fld 0x3240 2 0
  let s := ((s.storeTemps x).setReg 0x3240 (throttleImage ss)).noteLevel
  let s := ((s.thmCount 0x100 0 newWarn).thmCount 0x108 1 newCrit).thmCount 0x118 3 newFail
  if old = s.fld 0x3240 2 0 then s else s.raise .thm 0 2

/-- THERMAL_TRIP: a sensor 10 °C above its critical limit, or LEVEL 7 for 2 s. -/
def State.thermalTrip (s : State) : State :=
  let hot := (s.sensors s.sampled).any fun q => !q.failed && decide (q.crit + 10 ≤ q.t)
  if s.pins.thermTripN && (hot || decide (2000000 ≤ s.rsv.level7Us)) then
    let s := { s with pins := { s.pins with thermTripN := false } }
    if s.rsv.drain.isSome then s else s.powerStop
  else s

/-! ### Rows -/

/-- COMPUTE_RESET_STOP (R417). -/
def execComputeResetStop (s : State) : Host.Outcome State Fault Refusal := .next s.resetStop

/-- COMPUTE_RESET_ASSERT (R417). -/
def execComputeResetAssert (s : State) : Host.Outcome State Fault Refusal := .next s.resetAssert

/-- FIRMWARE_RESTART (R417). -/
def execFirmwareRestart (entropy : List Word) (s : State) : Host.Outcome State Fault Refusal := .next (s.firmwareRestart entropy)

/-- ENGINE_CHECK (R417). -/
def execEngineCheck (failed : List (Fin 4 × Fin 32)) (s : State) : Host.Outcome State Fault Refusal :=
  .next (s.engineCheck (failed.map fun f => (f.1.val, f.2.val)))

/-- TILE_FAULT (R427). -/
def execTileFault (block : Byte) (tile : Fin 4) (inst : Byte) (cycle : Nat) (s : State) : Host.Outcome State Fault Refusal :=
  .next (s.tileFault block.toNat tile inst.toNat cycle)

/-- THERMAL_SAMPLE (R513). -/
def execThermalSample (t : Sensors) (s : State) : Host.Outcome State Fault Refusal := .next (s.thermalSample t)

/-- THERMAL_TRIP (R515). -/
def execThermalTrip (s : State) : Host.Outcome State Fault Refusal := .next s.thermalTrip

end Sys2Proof.Machine
end

