-- ==== Sys2Proof/Machine/Startup.lean ====
section
/-! DEFINITION. Start-up (R402 to R415, R451), the restoring of the pool (R238), warm starts and cold restarts (R416), the end of a
drain's data (R234, R237, R239) and the end of step 11. -/

namespace Sys2Proof.Machine

/-! ### Steps 1 to 3 (R402 to R411) -/

/-- Step 1: the directory and the device record. The code is 0 when the start goes on. -/
def State.bootRom (s : State) : Nat × State :=
  match s.dirUsed with
  | none => (1, s)
  | some _ =>
    match (if s.recordKeyOk then s.validRecords.head? else none) with
    | none => (2, s)
    | some (_, r) => (0, (s.setReg 0x208 r.serial).setReg 0x210 (place 47 32 r.minSecVersion.toNat ||| place 31 0 r.recordSeq.toNat))

/-- Whether a slot boots (R405). -/
def State.slotBoots (s : State) (b : Bool) : Bool :=
  match s.boot.slots.getD (b2n b) none with
  | none => false
  | some i => decide (i.magic = 0x534C4F54 ∧ i.format = 1) && i.signed && i.digestsOk && decide (i.len 2 ≤ 2 ^ 20) &&
      decide (i.hostLen ≤ 20 * 2 ^ 20) && decide (s.fld 0x210 47 32 ≤ i.secVersion.toNat)

/-- FWC_VERSION of a slot (R401). -/
def versionWord (i : SlotImage) (b : Bool) : Word :=
  place 47 32 i.secVersion.toNat ||| place 31 8 i.release.toNat ||| place 0 0 (b2n b)

/-- Step 2: the slot of R406. -/
def State.bootSlot (s : State) : Nat × State :=
  match s.dirUsed with
  | none => (3, s)
  | some (_, d) =>
    let s := if !d.trialValid then s
      else if d.trialLeft ≠ 0 then s.writeDir fun d => { d with trialLeft := d.trialLeft - 1 }
      else s.writeDir fun d => { d with trialValid := false }
    let first := if d.trialValid && decide (d.trialLeft ≠ 0) then d.trialSlot else d.active
    match (if s.fwKeyOk then [first, !first].find? (fun b => s.slotBoots b) else none) with
    | none => (3, s)
    | some b => match s.boot.slots.getD (b2n b) none with
      | none => (3, s)
      | some i =>
        let fw' := { s.fw with sram := i.part 2, sramDigest := some (Config.sha384 (i.part 2)) }
        (0, { s with fw := fw' }.setReg 0x8200 (versionWord i b))

/-- Physical cores of tile `t` that the record leaves unbound. Log 113. -/
def unboundCores (r : DeviceRecord) (t : Nat) : List Nat :=
  match (recordSection r 1)[t]? with
  | some (.coreMap a b) => [a.toNat, b.toNat]
  | _ => [32, 33]

/-- Bound physical cores of a tile in ascending order; logical core c is the c-th (R409). -/
def boundCores (r : DeviceRecord) (t : Nat) : List Nat :=
  ((List.range 34).filter fun c => !(unboundCores r t).contains c).take 32

/-- Show the binding in the ENG pages. -/
def State.bindCores (s : State) (r : DeviceRecord) : State :=
  (List.range 4).foldl (fun (s : State) (t : Nat) =>
    (boundCores r t).zipIdx.foldl (fun (s : State) (c : Nat × Nat) =>
      s.setReg (rOff .eng (34 * t + c.1) 0x200) (place 8 8 1 ||| place 4 0 c.2)) s) s

/-- Fields of a register under a mask take the values of an image. -/
def State.takeImage (s : State) (o : Nat) (mask img : Word) : State := s.setReg o ((s.reg o &&& ~~~mask) ||| (img &&& mask))

/-- The boot configuration in its registers: the region sizes, DEV_EID and the RW fields of the RSV images (R39, R241, R411). -/
def State.takeConfig (s : State) : State :=
  let c := s.configUsed
  let s := { s with fw := { s.fw with config := c } }
  let r := (c.map (·.hostRegion.toNat)).getD 1
  let low := if r = 0 then 32 else 62
  let s := s.setReg 0x7300 (place 47 32 8 ||| place 31 16 (32 * 2 ^ r - low) ||| place 15 0 low)
  match c with
  | none => s
  | some c =>
    let s := (List.range 4).foldl (fun (s : State) (t : Nat) => s.setFld (rOff .rtr t 0x200) 19 0 c.devEid.toNat) s
    let s := s.takeImage 0x4208 (place 49 24 (2 ^ 26 - 1)) c.rsvModel
    let s := s.takeImage 0x4218 (place 62 32 (2 ^ 31 - 1) ||| place 11 0 0xFFF) c.rsvCtrl
    (s.takeImage 0x4220 (place 39 0 (2 ^ 40 - 1)) c.rsvPolicy).takeImage 0x4240 (place 16 0 (2 ^ 17 - 1)) c.rsvCharge

/-- Firmware enables every event that a page defines (R440). Log 108. -/
def State.enableEvents (s : State) : State :=
  (List.range 0xC00).foldl (fun (s : State) (p : Nat) => match pageOf p with
    | some g => if g.blk.events = 0 then s else s.setReg (p * 4096 + 0x28) (BitVec.ofNat 64 (2 ^ g.blk.events - 1))
    | none => s) s

/-- e_GB after a complete drain, weighed once: a higher measured value is stored, a lower one weighs a quarter (R232). -/
def State.takeDrainEnergy (s : State) : State :=
  let closed := (s.newestCheckpoint.map (·.1.closed)).getD false
  let d := s.boot.lastDrain
  if d.2.1 && !d.2.2.2 && closed then
    let old := s.boot.egbCj
    let v := if old < d.2.2.1 then d.2.2.1 else (3 * old + d.2.2.1) / 4
    { s with boot := (s.boot.putValue 0 [BitVec.ofNat 64 v]).putDrain (d.1, d.2.1, d.2.2.1, true) }
  else s

/-- The Reservoir at start: rated capacitance times 0.8 until the first test, e_GB and the last drain of boot flash (R224, R227, R232,
R241). -/
def State.bootReservoir (s : State) (rated : Option Nat) : State :=
  let s := s.takeDrainEnergy
  let s := { s with rsv := { s.rsv with ratedMf := rated } }
  let s := s.setFld 0x4208 23 0 ((rated.getD 0) * 8 / 10)
  let s := s.setFld 0x4218 31 16 s.boot.egbCj
  let s := s.setReg 0x4250 (place 32 32 (b2n s.boot.lastDrain.2.1) ||| place 31 0 s.boot.lastDrain.1)
  s.setFld 0x4248 0 0 (b2n rated.isSome)

/-- Step 3: cores, boot configuration, licences; firmware's events and generators. -/
def State.bootConfigure (s : State) (env : StartEnv) : Nat × State :=
  match s.recordUsed with
  | none => (2, s)
  | some (_, r) =>
    let s := ((s.bindCores r).takeConfig).showLicence
    let s := ((s.bootReservoir env.ratedCapMf).enableEvents).seedCores env.entropy
    let retired := (recordSection r 2).filterMap fun e => match e with
      | .hbmFrame st f => some (st.toNat * 32768 + f.toNat)
      | _ => none
    let bridge := (recordSection r 3).filterMap fun e => match e with
      | .bridgeLane d l sp => if 32 ≤ d.toNat then some (d.toNat, l.toNat, sp.toNat) else none
      | _ => none
    let s := { s with tier := { s.tier with retired := retired }, hmc := { s.hmc with bridgeSpares := bridge } }
    (0, { s with fw := { s.fw with epochPolicy := (s.reg (rOff .hdg 0 0x210)).toNat } })

/-! ### Steps 4 to 6 (R246 to R248, R412, R413, R415) -/

/-- Step 4, cold only: BIST. An unbound core that fails is a spare lost. -/
def State.bootBist (s : State) (env : StartEnv) : Nat × State :=
  match s.recordUsed with
  | none => (2, s)
  | some (_, r) =>
    let bad := env.bistCoreFail.map fun c => (c.1.val, c.2.val)
    if env.bistBlockFail || bad.any (fun c => (boundCores r c.1).contains c.2) then (4, s)
    else
      let s := bad.foldl (fun (s : State) (c : Nat × Nat) =>
        s.error .glb 0 { evtBit := 2, code := 0x118, addr := BitVec.ofNat 64 (34 * c.1 + c.2) }) s
      let good := fun (t : Nat) => min 2 ((unboundCores r t).filter fun c => !bad.contains (t, c)).length
      (0, s.setReg 0x230 ((List.range 4).foldl (fun (w : Word) (t : Nat) => w ||| place (2 * t + 1) (2 * t) (good t)) 0))

/-- Key of a byte lane and direction. -/
def laneKey (st lane : Nat) (dir : Bool) : Nat := (st * 256 + lane) * 2 + b2n dir

/-- The widest run of passing taps, as its start and width: the lowest of equals (R246; log 158). -/
def widestRun (taps : BitVec 128) : Nat × Nat :=
  let o := (List.range 128).foldl (fun (a : (Nat × Nat) × Nat × Nat) i =>
    if taps.getLsbD i then
      let run := (a.2.1, a.2.2 + 1)
      (if a.1.2 < run.2 then run else a.1, run)
    else (a.1, i + 1, 0)) ((0, 0), 0, 0)
  o.1

/-- The delay and the width of an eye: its centre, rounded down to a whole tap (R246). -/
def trainEye (taps : BitVec 128) : LaneTrain :=
  let r := widestRun taps
  { delay := r.1 + (r.2 - 1) / 2, width := r.2 }

/-- What the `n`-th training of a byte lane and direction finds: an eye that is not listed passes at every tap. -/
def eyeOf (env : StartEnv) (st lane : Nat) (dir : Bool) (n : Nat) : LaneTrain :=
  let l := env.eyes.filter fun e => decide (e.1.val = st ∧ e.2.lane.val = lane ∧ e.2.dir = dir)
  match l[n]? with
  | some e => trainEye e.2.taps
  | none => { delay := 63, width := 128 }

/-- Train byte lane `lane` of a stack: a lane with an eye narrower than 16 taps in either direction moves to an unused spare of its bridge
lane group and is trained again (R246, R247; log 153). `used` is how many spares its group has given. The eyes of both directions and the
spares taken; none when no spare is left. -/
def trainLane (env : StartEnv) (st lane : Nat) : Nat → Nat → Nat → Option (LaneTrain × LaneTrain × Nat)
  | 0, _, _ => none
  | f + 1, n, used =>
    let rx := eyeOf env st lane false n
    let tx := eyeOf env st lane true n
    if 16 ≤ rx.width ∧ 16 ≤ tx.width then some (rx, tx, n)
    else if used < Config.groupSpares (st * 256 + Config.laneGroup lane) then trainLane env st lane f (n + 1) (used + 1)
    else none

/-- Sweep one stack, whose spares in `used` (stack and group) earlier repairs have taken: whether it trained, its lanes, the field repairs
and the spares then in use (R246, R247). -/
def sweepStack (env : StartEnv) (st : Nat) (used : List (Nat × Nat)) : Bool × SMap LaneTrain × List (Nat × Nat) × List (Nat × Nat) :=
  (List.range 256).foldl (fun (a : Bool × SMap LaneTrain × List (Nat × Nat) × List (Nat × Nat)) lane =>
    let g := (st, Config.laneGroup lane)
    match trainLane env st lane (env.eyes.length + 1) 0 (a.2.2.2.filter (· = g)).length with
    | none => (false, a.2)
    | some r =>
      let put := fun (m : SMap LaneTrain) (dir : Bool) (x : LaneTrain) => sset (fun _ => ({} : LaneTrain)) m (laneKey st lane dir) x
      (a.1, put (put a.2.1 false r.1) true r.2.1, a.2.2.1 ++ (List.range r.2.2).map fun k => (lane, (a.2.2.2.filter (· = g)).length + k),
        a.2.2.2 ++ List.replicate r.2.2 g)) (true, [], [], used)

/-- Spare lanes of a stack that the bridge lane repairs of the device record take, before training (R246, R408; log 153). -/
def State.recordSpares (s : State) (st : Nat) : List (Nat × Nat) :=
  ((s.recordUsed.map fun r => recordSection r.2 3).getD []).filterMap fun e => match e with
    | .bridgeLane d l _ => if d.toNat = st then some (st, Config.laneGroup (l.toNat / 8)) else none
    | _ => none

/-- The training cache record of a stack as a start may use it, from the first copy that checks (R248, R413). -/
def State.cacheFor (s : State) (st : Nat) (temp : Int) : Option TrainRec :=
  [st, 32 + st].findSome? fun k => match sget (fun _ => none) s.boot.training k with
    | some r => if r.valid && decide (r.serial = s.reg 0x208) && decide ((temp - r.tempC).natAbs ≤ 10) then some r else none
    | none => none

/-- Write the training cache record of a stack, both copies. More field repairs than a record holds leave it without a valid one (R413;
log 172). -/
def State.putTraining (s : State) (r : TrainRec) : State :=
  let x := some { r with crc := crc32c (trainBytes r) }
  { s with boot := { s.boot with training := sset (fun _ => none) (sset (fun _ => none) s.boot.training r.stack x) (32 + r.stack) x } }

/-- Training in use on a stack. -/
def State.useTraining (s : State) (st source : Nat) (lanes : SMap LaneTrain) (repairs : Nat) (trained now : Int) : State :=
  let m := lanes.foldl (fun (m : SMap LaneTrain) (e : Nat × LaneTrain) => sset (fun _ => ({} : LaneTrain)) m e.1 e.2) s.hmc.trained
  let eye := lanes.foldl (fun (a : Nat) (e : Nat × LaneTrain) => min a e.2.width) 128
  let s := { s with hmc := { s.hmc with trained := m } }
  s.setReg (rOff .hmc st 0x208) (place 55 48 (ofInt 8 trained) ||| place 47 40 (ofInt 8 now) ||| place 39 32 eye ||| place 31 24 repairs |||
    place 1 0 source)

/-- Train one stack; false when a lane has no spare, with TRAIN_FAIL in the capture of its page. -/
def State.trainStack (s : State) (env : StartEnv) (warm : Bool) (st : Nat) : Bool × State :=
  let temp := env.stackTempC.getD st 0
  let used := s.recordSpares st
  let keep := fun (s : State) (u : List (Nat × Nat)) =>
    { s with hmc := { s.hmc with spareUsed := (s.hmc.spareUsed.filter fun x => decide (x.1 ≠ st)) ++ u } }
  match (if warm then s.cacheFor st temp else none) with
  | some r => (true, keep (s.useTraining st 2 r.lanes r.repairs.length r.tempC temp) (used ++ r.repairs.map fun x => (st, Config.laneGroup x.1)))
  | none =>
    let o := sweepStack env st used
    if !o.1 then (false, s.capture .hmc st {})
    else
      let s := keep (s.useTraining st 1 o.2.1 o.2.2.1.length temp temp) o.2.2.2
      let s := if o.2.2.1.isEmpty then s else s.raise .hmc st 4
      (true, s.putTraining { stack := st, serial := s.reg 0x208, tempC := temp, repairs := o.2.2.1, lanes := o.2.1, crc := 0 })

/-- The HMCs apply the row repairs of the record and those found in the field (R409, R412). -/
def State.applyRowRepairs (s : State) : State :=
  let listed := ((s.recordUsed.map fun r => recordSection r.2 2).getD []).filterMap fun e => match e with
    | .hbmRow r => some r
    | _ => none
  { s with hmc := { s.hmc with rowRepairs := listed ++ s.boot.rows } }

/-- Step 5: the row repairs are applied and every stack is trained. -/
def State.bootTrain (s : State) (env : StartEnv) (warm : Bool) : Nat × State :=
  (List.range 24).foldl (fun (a : Nat × State) (st : Nat) =>
    let r := a.2.trainStack env warm st
    (if r.1 then a.1 else 5, r.2)) (0, s.applyRowRepairs)

/-- Step 6, cold only: memory test. A failing row takes a spare row of its stack, at once and at every later start, or stops the start
(R412). -/
def State.bootMemTest (s : State) (env : StartEnv) : Nat × State :=
  env.rowFail.foldl (fun (a : Nat × State) (r : HbmRow × Bool) =>
    if r.2 then
      let rows := a.2.boot.rows ++ [r.1]
      (a.1, { a.2 with boot := a.2.boot.putValue 2 (rows.map rowWord), hmc := { a.2.hmc with rowRepairs := a.2.hmc.rowRepairs ++ [r.1] } })
    else (6, a.2)) (0, s)

/-! ### Step 7: the layout (R40, R41, R66, R240) -/

/-- Place a block and answer its base. -/
def State.placeBases (s : State) (os : List Nat) (n align : Nat) : State :=
  let r := s.placeBlock n align
  os.foldl (fun (s : State) (o : Nat) => s.setReg o (place 51 12 (r.1 / 4096))) r.2

/-- Step 7: table banks, tier tables, ring area and fault queues; the figures of frames and parcels. -/
def State.bootLayout (s : State) : Nat × State :=
  let s := allTables.foldl (fun (s : State) (t : Table) =>
    let n := cdiv (t.entries * t.size) 4096 * 4096
    (s.placeBases [t.group] n 4096).placeBases [t.group + 8] n 4096) s
  let tiles := fun (o : Nat) => (List.range 4).map fun t => rOff .tier t o
  let s := s.placeBases (tiles 0x200) (4 * 33554432) 4096
  let s := s.placeBases (tiles 0x208) (32 * 786432) 4096
  let s := s.placeBases (tiles 0x210) (2048 * 786432) 4096
  let s := s.placeBases [0x8220] (2 ^ 24) (2 ^ 24)
  let s := (List.range 4).foldl (fun (s : State) (t : Nat) => s.placeBases [rOff .xlt t 0x200] (2 ^ 17) (2 ^ 17)) s
  let j := s.placeBlock journalBytes 4096
  let s := { j.2 with fw := { j.2.fw with journalBase := j.1 } }
  let frames := fun (l : List Nat) => (l.map s.stackFrames).sum
  let all := frames (List.range 24)
  let s := (s.setReg 0x7308 (place 63 32 all ||| place 31 0 all)).showParcels
  let s := s.setFld 0x7310 63 32 s.totalParcels
  (0, (List.range 4).foldl (fun (s : State) (t : Nat) =>
    let n := ((List.range 6).map fun j => s.stackFrames (6 * t + j)).sum
    s.setReg (rOff .tier t 0x218) (place 59 40 n ||| place 19 0 n)) s)

/-! ### Step 8: the flash mount (R238, R266, R272, R451) -/

/-- The FMC pages at mount, and the blocks that the device record lists as initially bad (R266); wear is a free value, its mean at most its
highest (log 3). -/
def State.mountFlash (s : State) : State :=
  let bad := ((s.recordUsed.map fun r => recordSection r.2 5).getD []).filterMap fun e => match e with
    | .flashBad d b => some (d.toNat, b.toNat)
    | _ => none
  let s := { s with tier := { s.tier with badBlocks := (bad ++ s.tier.badBlocks).dedup } }
  (List.range 16).foldl (fun (s : State) (f : Nat) =>
    let dies := (List.range 32).map fun k => 32 * f + k
    let grown := (dies.map fun d => Config.spareBlocks d - s.sparesOf d).sum
    let s := s.setReg (rOff .fmc f 0x200)
      (place 31 16 grown ||| place 15 0 (bad.filter fun d => decide (d.1 / 32 = f)).length)
    let s := s.showSpares f
    let failed := dies.foldl (fun (w : Word) (d : Nat) =>
      if (s.tier.spares.any fun e => decide (e.1 = d)) && decide (s.sparesOf d = 0) then w ||| place (d % 32) (d % 32) 1 else w) 0
    let s := s.setReg (rOff .fmc f 0x208) failed
    let r := s.drawNat
    let q := r.2.drawNat
    q.2.setReg (rOff .fmc f 0x210) (place 31 16 (r.1 % (q.1 % 65536 + 1)) ||| place 15 0 (q.1 % 65536))) s

/-- The pool starts empty: flash backing is released and TIER_LOST is raised (R238). -/
def State.emptyPool (s : State) : State :=
  let s := { s with tier := { s.tier with flash := [], fgroups := [], sectors := [], rebuilds := [], lost := [] } }
  (List.range 4).foldl (fun (s : State) (t : Nat) => s.raise .tier t 3) s

/-- One extent of a checkpoint: its map and keys, its entry with PINNED 0, and a directory for a coherent one (R294). -/
def State.restoreExtent (s : State) (c : Nat × List Word × List Word × List Word) : State :=
  let x := c.1
  let e := exttOf c.2.1
  let b := s.placeBlock (mapBytes e.parcels) 4096
  let s := (c.2.2.1.zip c.2.2.2).zipIdx.foldl (fun (s : State) (w : (Word × Word) × Nat) =>
    let v := w.1.1.toNat
    let s := s.setPmap b.1 w.2 true (v % 2 ^ 25) (v / 2 ^ 25 % 32)
    let s := s.putBoth .pkt (v % 2 ^ 25) [w.1.2]
    { s with tier := { s.tier with parcels := sset (fun _ => ({} : ParcelOwner)) s.tier.parcels (v % 2 ^ 25) ⟨x, w.2, true⟩ } }) b.2
  let e := { e with pinned := false, pmap := b.1, prev := e.parcels }
  let r : Word × State := if e.coherent then
      let d := s.placeBlock (mapBytes e.parcels) 4096
      (place 51 12 (d.1 / 4096), d.2.addDirs e.stackMask e.startStack d.1 0 e.parcels e.assured)
    else (e.upd5, s)
  let s := r.2.putBoth .extt x { e with upd5 := r.1 }.words
  if e.revoked then
    { s with tier := { s.tier with drains := s.tier.drains ++ [(⟨x, .revoke, s.tick, some s.tick, 0, 0⟩ : DrainJob)] } }
  else s

/-- A CLOSED checkpoint that matches the installed key is restored: its bank in both banks, and the valid extents of it. Log 112. -/
def State.restorePool (s : State) (c : Checkpoint) : State :=
  let s := c.bank.foldl (fun (s : State) (e : Nat × List Word) => s.putBoth .extt e.1 e.2) s
  let s := c.exts.foldl (fun (s : State) (x : Nat × List Word × List Word × List Word) => s.restoreExtent x) s
  let s := c.lost.foldl (fun (s : State) (g : Nat × Nat) =>
    let t := s.homeStackOf g.1 / 6
    (s.setFgroup g.1 g.2 { s.fgroup g.1 g.2 with lost := true }).raise .tier t 2) s
  { s with tier := { s.tier with lost := c.lost, repins := c.pinned, pinOrder := c.pinned } }

/-- Whether a checkpoint matches the installed tenant key. -/
def State.checkpointFits (s : State) (c : Checkpoint) : Bool :=
  c.closed && s.keyHeld && decide (c.epoch.toNat = s.fld 0x5200 63 32 ∧ c.keyGen.toNat = s.fld 0x5208 15 0)

/-- R238. -/
def State.bootPool (s : State) : State :=
  match s.newestCheckpoint with
  | some (c, _) => if s.checkpointFits c then s.restorePool c else s.emptyPool
  | none => s.emptyPool

/-- The key and its generation leave the island and the FMCs, and the record loses its wrapped key (R453). -/
def State.zeroizeKey (s : State) : State :=
  let s := { s with island := { s.island with key := none } }
  let s := s.putTenant fun r => { r with wrapped := 0 }
  s.showRecord (s.fld 0x5208 31 16)

/-- The tenant record at a start (R451): an unfinished assignment is undone, a tenant's key is unwrapped, an unfinished release goes on
with its purge. -/
def State.bootTenant (s : State) (env : StartEnv) : Nat × State :=
  let r := s.tenantRecord
  match r.state.toNat with
  | 1 =>
    let s := { s with island := { s.island with key := none, assignAt := none } }
    let s := s.putTenant fun r => { r with state := 0, wrapped := 0 }
    (0, s.showRecord r.keyGen.toNat)
  | 2 =>
    if !s.hasFlash then (0, s.showRecord r.keyGen.toNat)
    else if env.unwrapOk then
      let s := { s with island := { s.island with key := some (Config.unwrapKey r.wrapped) } }
      (0, s.showRecord r.keyGen.toNat)
    else
      let s := ({ s with island := { s.island with failed := true } }).capture .mgt 0 { code := 0, status := 0 }
      (8, s)
  | 3 =>
    let s := { s with island := { s.island with release := some (tsub s.tick 2), purging := true } }
    (0, (s.showRecord ((r.keyGen.toNat + 1) % 65536)).zeroizeKey)
  | _ => (0, s.showRecord r.keyGen.toNat)

/-- Step 8. -/
def State.bootMount (s : State) (env : StartEnv) : Nat × State :=
  let r := s.bootTenant env
  if r.1 ≠ 0 ∨ r.2.hasFlash = false then r else (0, r.2.mountFlash.bootPool)

/-! ### Steps 9 and 10 (R465, R472) -/

/-- Lanes of a module and direction that take a redundant lane: the record's and those that fail in training. -/
def State.moduleSpares (s : State) (env : StartEnv) (m : Nat) (dir : Bool) : Nat :=
  let rec' := ((s.recordUsed.map fun r => recordSection r.2 4).getD []).filter fun e => match e with
    | .ucieLane m' d _ _ => decide (m'.toNat = m ∧ d = dir)
    | _ => false
  rec'.length + ((env.ucieFail.filter fun f => decide (f.1.val = m ∧ f.2.1 = dir)).map (·.2.2)).sum

/-- The UCIe modules come up; a direction that needs more than 4 redundant lanes stops the start. -/
def State.bootModules (s : State) (env : StartEnv) : Nat × State :=
  (List.range 4).foldl (fun (a : Nat × State) (m : Nat) =>
    let tx := a.2.moduleSpares env m false
    let rx := a.2.moduleSpares env m true
    let s := if env.ucieFail.any (fun f => decide (f.1.val = m ∧ f.2.2 ≠ 0)) then a.2.raise .uci 0 2 else a.2
    if 4 < tx ∨ 4 < rx then (7, s)
    else (a.1, s.setReg (uciMod m) (place 10 8 rx ||| place 7 5 tx ||| place 1 0 2))) (0, s)

/-- Ports that the licence enables leave DISABLED and train; without a valid configuration every port stays DISABLED (R345, R411). -/
def State.bootPorts (s : State) : State :=
  (List.range 32).foldl (fun (s : State) (p : Nat) =>
    let o := rOff .lnk p 0x208
    if !s.portLicensed p then s.setFld (rOff .lnk p 0x210) 43 40 0xC
    else if s.fw.config.isNone then s.setFld (rOff .lnk p 0x210) 43 40 6
    else ((s.setFld o 3 3 0).leaveDisabled p).enterTrain p) s

/-- Step 9. -/
def State.bootLinks (s : State) (env : StartEnv) : Nat × State :=
  let r := s.bootModules env
  if r.1 ≠ 0 then r else (0, r.2.bootPorts)

/-- Step 10: skipped while a release has not been cleared (R451, R475). -/
def State.bootHost (s : State) (env : StartEnv) : Nat × State :=
  if s.tenantState = 3 ∨ s.tenantState = 4 then (0, s)
  else if env.hostDigestOk then (0, s.releaseHost) else (3, s)

/-! ### A start (R414 to R416) -/

/-- Run step `n` unless the start has stopped; STEP shows the last step completed. -/
def bootStep (n : Nat) (f : State → Nat × State) (a : Nat × State) : Nat × State :=
  if a.1 ≠ 0 then a
  else
    let r := f a.2
    if r.1 ≠ 0 then r else (0, r.2.setFld 0x200 15 8 n)

/-- A start that stops: the code is shown, ports are DISABLED and the host die stays in reset (R415). -/
def State.startStops (s : State) (code : Nat) : State :=
  let s := (s.setFld 0x200 7 0 code).holdHost
  let s := if code = 5 then { s with island := { s.island with failed := true } } else s
  let s := (List.range 32).foldl (fun (s : State) (p : Nat) =>
    let s := s.setFld (rOff .lnk p 0x208) 3 3 1
    if s.linkState p = 0 then s else s.enterDisabled p 6) s
  s.endReset 6

/-- Steps 1 to 10 of R414. -/
def State.runStart (s : State) (env : StartEnv) (warm : Bool) : State :=
  let s := s.setReg 0x200 (place 17 16 (if warm then 2 else 1))
  let skip : State → Nat × State := fun s => (0, s)
  let a := bootStep 1 State.bootRom (0, s)
  let a := bootStep 2 State.bootSlot a
  let a := bootStep 3 (fun s => s.bootConfigure env) a
  let a := bootStep 4 (if warm then skip else fun s => s.bootBist env) a
  let a := bootStep 5 (fun s => s.bootTrain env warm) a
  let a := bootStep 6 (if warm then skip else fun s => s.bootMemTest env) a
  let a := bootStep 7 State.bootLayout a
  let a := bootStep 8 (fun s => s.bootMount env) a
  let a := bootStep 9 (fun s => s.bootLinks env) a
  let a := bootStep 10 (fun s => s.bootHost env) a
  if a.1 ≠ 0 then a.2.startStops a.1
  else { a.2 with tim := { a.2.tim with startMs := env.elapsedMs },
                  hmc := { a.2.hmc with lapStart := (List.range 8).foldl (fun (m : SMap Nat) (k : Nat) => sset (fun _ => 0) m k a.2.tick) [] } }

/-- COLD_START: with the cold reset released, the rails good, normal operation selected and no start run since. -/
def State.coldStart (s : State) (env : StartEnv) : State :=
  if s.pins.coldRstN && s.pins.mainPg && !s.pins.strapTest && decide (s.reg 0x200 = 0) && !s.rsv.dead && s.rsv.drain.isNone then
    s.runStart env false
  else s

/-- The main domain restarts in its warm form. -/
def State.warmStart (s : State) (env : StartEnv) : State :=
  ({ s with island := { s.island with warmEnv := none } }.mainReset true).runStart env true

/-! ### The end of a drain, and of step 11 -/

/-- CHECKPOINT_WRITE: the drain's data has ended, and the CLOSED checkpoint is written. A power drain raises DRAIN_DONE; TIER_FLUSH
completes with admission still stopped; a flush for a restart goes on with it (R234, R239, R416). `measured` is the energy per GB that the
drain has taken (R232; log 21). -/
def State.checkpointWrite (s : State) (measured : Nat) : State :=
  match s.rsv.drain with
  | none => s
  | some d =>
    if !d.begun || d.noDrain || !s.dataEnded d then s
    else
      let s := s.closeDrain d measured
      match d.why with
      | .power => s.endPowerDrain
      | .flush =>
        let s := { s with rsv := { s.rsv with drain := none, flushed := true } }.setFld 0x4248 7 7 0
        s.finishAll (fun j => decide (j.wait = .flush)) stOk
      | .warm => match s.island.warmEnv with
        | some env => s.warmStart env
        | none => s.mainReset true
      | .cold => s.mainReset false

/-- TIME_LOCK_WAIT_END: step 11 ends with a beacon or an edge, or after TIME_WAIT_MS in holdover; the OPEN header is written, and
admission opens unless the drain or its end forbids it (R237, R414). -/
def State.endTimeWait (s : State) (waitedMs : Nat) : State :=
  if s.fld 0x200 15 8 = 10 ∧ s.fld 0x200 7 0 = 0 ∧ s.rsv.dead = false ∧ s.rsv.drain = none ∧
      (s.tim.gotTime = true ∨ s.timeWaitMs ≤ waitedMs) then
    let s := if s.tim.gotTime then s
      else
        let was := bit (s.reg 0x2218) 8
        let s := s.setFld 0x2218 8 8 1
        (if was then s else s.raise .tim 0 1).updateStratum
    let s := { s.setFld 0x200 15 8 11 with tim := { s.tim with startMs := s.tim.startMs + waitedMs, readyNs := s.tim.netTime } }
    let s := if s.hasFlash then s.putCheckpoint false s.tier.lost else s
    s.openDevice
  else s

/-! ### Rows -/

/-- CHECKPOINT_WRITE (R237). -/
def execCheckpointWrite (measuredCj : BitVec 16) (s : State) : Host.Outcome State Fault Refusal :=
  .next (s.checkpointWrite measuredCj.toNat)

/-- COLD_START (R414). -/
def execColdStart (env : StartEnv) (s : State) : Host.Outcome State Fault Refusal := .next (s.coldStart env)

/-- TIME_LOCK_WAIT_END (R414). -/
def execTimeLockWaitEnd (waitedMs : Nat) (s : State) : Host.Outcome State Fault Refusal := .next (s.endTimeWait waitedMs)

end Sys2Proof.Machine
end

