-- ==== Sys2Proof/Machine/Mgmt.lean ====
section
/-! DEFINITION. The management port: tenant operations and the purge (R444 to R456), licences, images, records, configurations and
resets (R410, R416, R421 to R424, R460), anchors and sessions (R457 to R459), SPDM (R461, R462). -/

namespace Sys2Proof.Machine

/-! ### Operations (R459, R460) -/

/-- Result codes of R460. -/
def mOk : Byte := 0
/-- BAD_REQUEST. -/
def mBad : Byte := 1
/-- DENIED. -/
def mDenied : Byte := 2
/-- INVALID. -/
def mInvalid : Byte := 3
/-- BUSY. -/
def mBusy : Byte := 4
/-- FULL. -/
def mFull : Byte := 5
/-- STATE. -/
def mState : Byte := 6

/-- A management operation: nothing answers while the island is in reset; without a trust anchor only SPDM, GET_STATE and ANCHOR_ADD
are served; one that changes the device waits for no other. Log 116. Log 124. -/
def State.mgtOp (s : State) (op : Byte) (id : BitVec 16) (changes bare : Bool) (k : State → State) : State :=
  if !s.pins.auxRstN then s
  else if s.island.anchors.isEmpty && !bare then s.mgtAnswer op id mDenied []
  else if changes && s.island.busy.isSome then s.mgtAnswer op id mBusy []
  else k s

/-- GET_STATE: the MGT_TENANT, MGT_KEY and GLB stop images. -/
def State.getState (s : State) (id : BitVec 16) : State :=
  s.mgtOp 0x01 id false true fun s => s.mgtAnswer 0x01 id mOk (wordsBytes [s.reg 0x5200, s.reg 0x5208, s.reg 0x200])

/-! ### The tenant (R445, R449, R452, R453) -/

/-- ASSIGN: the checks of R452; then ASSIGNING, until the record with the new key is written. -/
def State.assignTenant (s : State) (id : BitVec 16) (body : List Byte) : State :=
  s.mgtOp 0x02 id true false fun s =>
    let kind := (body.headD 0).toNat
    if s.rsv.dead then s.mgtAnswer 0x02 id mDenied []
    else if s.tenantState ≠ 0 then s.mgtAnswer 0x02 id mState []
    else if s.fld 0x200 7 0 ≠ 0 ∨ s.variant = 0 ∨ bit (s.reg 0x1200) 4 = true then s.mgtAnswer 0x02 id mDenied []
    else if kind ≠ 1 ∧ kind ≠ 2 then s.mgtAnswer 0x02 id mBad []
    else if kind = 2 ∧ s.hasAssured = false then s.mgtAnswer 0x02 id mDenied []
    else
      let s := s.putTenant fun r => { r with state := 1, defaultKind := BitVec.ofNat 2 kind }
      let s := s.showRecord (s.fld 0x5208 31 16)
      { s with island := { s.island with busy := some (0x02, id), assignAt := some s.tick } }.noteTransition

/-- ASSIGN_DONE at a boundary after R: the key is drawn, wrapped, stored and loaded, and the state becomes ACTIVE; a device without
flash draws none. -/
def State.assignDone (s : State) : State :=
  match s.island.assignAt with
  | none => s
  | some r =>
    if !later s.tick r then s
    else
      let key : Option (BitVec 512) := if s.hasFlash then some (Config.tenantKey s.fresh) else none
      let s := { s with fresh := s.fresh + 1, island := { s.island with key := key, assignAt := none } }
      let s := s.putTenant fun r => match key with
        | some k => { r with state := 2, keyGen := r.keyGen + 1, wrapped := Config.wrapKey k }
        | none => { r with state := 2 }
      let s := s.showRecord s.tenantRecord.keyGen.toNat
      (s.noteTransition.bump .mgt 0 0x128).endBusy

/-- RELEASE: the record is written RELEASING, and X is R + 2. -/
def State.releaseTenant (s : State) (id : BitVec 16) : State :=
  s.mgtOp 0x03 id true false fun s =>
    if s.rsv.dead then s.mgtAnswer 0x03 id mDenied []
    else if s.tenantState ≠ 2 then s.mgtAnswer 0x03 id mState []
    else if s.rsv.drain.isSome then s.mgtAnswer 0x03 id mBusy []
    else
      let x := tadd s.tick 2
      let s := (s.putTenant fun r => { r with state := 3 }).showRecord (s.fld 0x5208 31 16)
      let s := s.setReg 0x5210 (place 47 0 x)
      { s with island := { s.island with busy := some (0x03, id), release := some x } }.noteTransition

/-- RELEASE_STOP at X: admission stops, work is discarded unless a power failure has discarded it, TENANT_EPOCH and the FMC generation
advance. Log 115. -/
def State.releaseStop (s : State) : State :=
  match s.island.release with
  | none => s
  | some x =>
    if later x s.tick || s.island.purging || s.rsv.dead || decide (s.fld 0x5208 31 16 ≠ s.fld 0x5208 15 0) then s
    else
      let s := if s.rsv.drain.isSome then s
        else s.discardAll { cause := 5, scope := 0, landed := false, x := s.tick, send := tadd s.tick 1 }
      (s.putTenant fun r => { r with epoch := r.epoch + 1 }).showRecord ((s.fld 0x5208 15 0 + 1) % 65536)

/-- Host physical address of a control-region byte at physical address `p`; none outside the control region (R40). -/
def State.ctlAddr (s : State) (p : Nat) : Option Nat :=
  let st := p / 2 ^ 36
  let u := p % 2 ^ 36 / 4096
  let hu := unitsOn s.hostUnits st
  if hu ≤ u ∧ u < hu + unitsOn ctlUnits st then some (ctlBase + ((u - hu) * 24 + st) * 4096 + p % 4096) else none

/-- The banks of RTT, TFT and SLT, which a purge keeps: (base, bytes). -/
def State.keptBanks (s : State) : List (Nat × Nat) :=
  ([Table.rtt, .tft, .slt].flatMap fun t => [(s.bankBase t false, t.entries * t.size), (s.bankBase t true, t.entries * t.size)])

/-- Whether a purge keeps the byte at physical address `p`. -/
def State.purgeKeeps (s : State) (p : Nat) : Bool :=
  match s.ctlAddr p with
  | some a => s.keptBanks.any fun b => decide (b.1 ≠ 0 ∧ b.1 ≤ a ∧ a < b.1 + b.2)
  | none => false

/-- The purge of R455: HBM but for the kept banks, the SRAMs, the flash maps and the checkpoint headers. -/
def State.purge (s : State) : State :=
  let bases := (allTables.flatMap fun t => [s.bankBase t false, s.bankBase t true]) ++
    [s.fld (rOff .tier 0 0x200) 51 12 * 4096, s.fld (rOff .tier 0 0x208) 51 12 * 4096, s.fld (rOff .tier 0 0x210) 51 12 * 4096,
     s.fld 0x8220 51 12 * 4096] ++ (List.range 4).map fun t => s.fld (rOff .xlt t 0x200) 51 12 * 4096
  { s with
    hbm := s.hbm.filter fun (c : Host.Cell) => s.purgeKeeps c.1
    lmeta := s.lmeta.filter fun (e : Nat × LineMeta) => s.purgeKeeps (e.1 * 256)
    tier := { State.reset.tier with
      spares := s.tier.spares
      stripes := s.tier.stripes.map fun (x : Stripe) => { x with closed := true, waiting := [] }
      stripeNext := s.tier.stripeNext
      badBlocks := s.tier.badBlocks
      retiring := s.tier.retiring
      retired := s.tier.retired
      stale := s.tier.stale.filter fun (e : Stale) => decide (e.table = .rtt ∨ e.table = .tft ∨ e.table = .slt)
      invals := s.tier.invals }
    hmc := { s.hmc with repairs := [], owed := [] }
    xlt := State.reset.xlt
    coh := State.reset.coh
    adm := { s.adm with reqs := [], claims := [], demand := [], report := [], nextShares := [], asm := [], heads := [] }
    creset := none
    fw := { State.reset.fw with
      blocks := s.fw.blocks.filter fun (b : Nat × Nat) => bases.contains b.1 || decide (b.1 = s.fw.journalBase)
      journalBase := s.fw.journalBase
      config := s.fw.config
      sram := s.fw.sram
      sramDigest := s.fw.sramDigest
      epochPolicy := s.fw.epochPolicy } }

/-- PURGE_BEGIN at X + 2: the key is zeroized, the host die is held, and the purge begins. Log 117. -/
def State.purgeBegin (s : State) : State :=
  match s.island.release with
  | none => s
  | some x =>
    if later (tadd x 2) s.tick || s.island.purging || s.rsv.dead || s.rsv.drain.isSome ||
        decide (s.fld 0x5208 31 16 = s.fld 0x5208 15 0) then s
    else
      let s := s.zeroizeKey.holdHost.purge.clearFaultQueues
      ({ s.setFld 0x218 0 0 0 with island := { s.island with purging := true } }).refuseWaiting

/-- PURGE_DONE, once the zero-fill has had its ticks: firmware restarts when the digest of its SRAM image checks (R397), a compute reset
that a tile fault began meanwhile ends with it (R456), the state becomes PURGED, and admission opens for the next
tenant (log 51). -/
def State.purgeDone (s : State) : State :=
  match s.island.release with
  | none => s
  | some x =>
    if !s.island.purging || s.rsv.dead || later (tadd (tadd x 2) s.purgeTicks) s.tick || !s.sramOk then s
    else
      let s := { s.setFld 0x218 0 0 0 with creset := none, island := { s.island with release := none, purging := false } }
      let s := (s.putTenant fun r => { r with state := 4 }).showRecord (s.fld 0x5208 31 16)
      let s := (s.setFld 0x5210 63 56 100).noteTransition.raise .mgt 0 1
      let s := (s.bump .mgt 0 0x130).endBusy
      if s.fld 0x200 15 8 = 11 then s.openDevice else s

/-- CLEAR: PURGED returns to UNASSIGNED at R + 2. -/
def State.clearTenant (s : State) (id : BitVec 16) : State :=
  s.mgtOp 0x04 id true false fun s =>
    if s.rsv.dead then s.mgtAnswer 0x04 id mDenied []
    else if s.tenantState ≠ 4 then s.mgtAnswer 0x04 id mState []
    else { s with island := { s.island with busy := some (0x04, id), clearAt := some (tadd s.tick 2) } }

/-! ### Licences (R423, R424) -/

/-- PENDING and PENDING_VARIANT after the store has changed: a change of the variant or its sequence waits for a reset or a start. Log 123. -/
def State.showPending (s : State) : State :=
  let v := s.licVariant
  let stored := (s.boot.licences.filter Option.isSome).length
  let s := s.setFld 0x1200 22 16 stored
  if v.1 = s.variant ∧ v.2 = s.fld 0x1200 63 32 then (s.setFld 0x1200 4 4 0).setFld 0x1200 3 2 0
  else
    let was := bit (s.reg 0x1200) 4
    let s := (s.setFld 0x1200 4 4 1).setFld 0x1200 3 2 v.1
    if was then s else s.raise .lic 0 3

/-- A refused install. -/
def State.licRefused (s : State) (id : BitVec 16) (r : Byte) : State :=
  ((s.bump .lic 0 0x110).raise .lic 0 2).mgtAnswer 0x10 id r []

/-- LICENCE_INSTALL. -/
def State.licInstall (s : State) (id : BitVec 16) (l : Licence) : State :=
  s.mgtOp 0x10 id true false fun s =>
    if l.kind = 1 ∧ s.tenantState ≠ 0 then s.licRefused id mDenied
    else if !s.licValid l then s.licRefused id mInvalid
    else if s.boot.licences.any (fun x => match x with
        | some y => decide (y.licenceSeq = l.licenceSeq)
        | none => false) then s.mgtAnswer 0x10 id mOk []
    else
      let ls := s.boot.licences
      match ls.findIdx? Option.isNone with
      | some i =>
        let s := { s with boot := { s.boot with licences := ls.set i (some l) } }
        ((s.showPending.bump .lic 0 0x100).raise .lic 0 0).mgtAnswer 0x10 id mOk []
      | none =>
        if 64 ≤ ls.length then s.licRefused id mFull
        else
          let s := { s with boot := { s.boot with licences := ls ++ [some l] } }
          ((s.showPending.bump .lic 0 0x100).raise .lic 0 0).mgtAnswer 0x10 id mOk []

/-- LICENCE_REMOVE; a sequence number that the store does not hold is a bad request (log 52). -/
def State.licRemove (s : State) (id : BitVec 16) (seq : BitVec 32) : State :=
  s.mgtOp 0x11 id true false fun s =>
    let ls := s.boot.licences
    let hit := fun (x : Option Licence) => match x with
      | some y => decide (y.licenceSeq = seq)
      | none => false
    match ls.findIdx? hit with
    | none => s.mgtAnswer 0x11 id mBad []
    | some i =>
      if (ls.getD i none).any (fun l => decide (l.kind = 1)) && decide (s.tenantState ≠ 0) then s.mgtAnswer 0x11 id mDenied []
      else
        let s := { s with boot := { s.boot with licences := ls.set i none } }
        ((s.showPending.bump .lic 0 0x108).raise .lic 0 1).mgtAnswer 0x11 id mOk []

/-! ### Images, records and configurations (R404, R406, R410, R411) -/

/-- Whether an image may be staged now. -/
def State.mayStage (s : State) : Bool := decide (s.tenantState = 0 ∨ s.tenantState = 4) || s.hasStaging

/-- The slot that is not ACTIVE. -/
def State.idleSlot (s : State) : Bool := !((s.dirUsed.map fun d => d.2.active).getD false)

/-- IMAGE_STAGE: into the slot that is not ACTIVE; TRIAL_LEFT becomes 2. Log 120. -/
def State.stageImage (s : State) (id : BitVec 16) (img : SlotImage) : State :=
  s.mgtOp 0x20 id true false fun s =>
    if !s.mayStage then s.mgtAnswer 0x20 id mDenied []
    else
      let b := s.idleSlot
      let s := { s with boot := { s.boot with slots := s.boot.slots.set (b2n b) (some img) }, island := { s.island with staged := some b } }
      (s.writeDir fun d => { d with trialLeft := 2 }).mgtAnswer 0x20 id mOk []

/-- IMAGE_TRIAL: TRIAL_VALID and TRIAL_LEFT for the staged slot. -/
def State.trialImage (s : State) (id : BitVec 16) (left : Nat) : State :=
  s.mgtOp 0x21 id true false fun s =>
    if !s.mayStage then s.mgtAnswer 0x21 id mDenied []
    else if left = 0 ∨ 15 < left then s.mgtAnswer 0x21 id mBad []
    else
      let b := s.island.staged.getD s.idleSlot
      (s.writeDir fun d => { d with trialValid := true, trialSlot := b, trialLeft := BitVec.ofNat 4 left }).mgtAnswer 0x21 id mOk []

/-- RECORD_INSTALL: the same device, a higher RECORD_SEQ, into the copy not in use. Log 121. -/
def State.installRecord (s : State) (id : BitVec 16) (r : DeviceRecord) : State :=
  s.mgtOp 0x22 id true false fun s =>
    let put := fun (i : Nat) => ({ s with boot := { s.boot with records := s.boot.records.set i (some r) } } : State).mgtAnswer 0x22 id mOk []
    if s.tenantState ≠ 0 ∧ s.tenantState ≠ 4 then s.mgtAnswer 0x22 id mDenied []
    else if !(recordOk r && s.recordKeyOk) then s.mgtAnswer 0x22 id mInvalid []
    else match s.recordUsed with
      | some (i, u) =>
        if u.serial = r.serial ∧ u.identityKey = r.identityKey ∧ u.recordSeq < r.recordSeq then put (1 - i)
        else s.mgtAnswer 0x22 id mInvalid []
      | none => put 0

/-- Index of the configuration copy in use: the valid one with the higher SEQ. -/
def State.configIndex (s : State) : Nat :=
  let seq := fun (i : Nat) => match s.boot.configs.getD i none with
    | some c => if bootConfigOk c then c.seq.toNat + 1 else 0
    | none => 0
  if seq 0 < seq 1 then 1 else 0

/-- CONFIG_WRITE: the copy not in use; an image whose DEV_EID is 0xF_FFFF is not accepted (R297). Log 122. -/
def State.writeConfig (s : State) (id : BitVec 16) (c : BootConfig) : State :=
  s.mgtOp 0x23 id true false fun s =>
    if c.devEid = 0xFFFFF then s.mgtAnswer 0x23 id mBad [] else
    { s with boot := { s.boot with configs := s.boot.configs.set (1 - s.configIndex) (some c) } }.mgtAnswer 0x23 id mOk []

/-! ### RESET (R416, R417, R460) -/

/-- A RESET operation: denied after DRAIN_DONE and in ASSIGNING or RELEASING; busy while a drain, a TIER_FLUSH or a compute reset runs;
otherwise its response waits for admission to open. Log 118. -/
def State.resetOp (s : State) (id : BitVec 16) (k : State → State) : State :=
  s.mgtOp 0x30 id true false fun s =>
    if s.rsv.dead then s.mgtAnswer 0x30 id mDenied []
    else if s.tenantState = 1 ∨ s.tenantState = 3 then s.mgtAnswer 0x30 id mDenied []
    else if s.rsv.drain.isSome || s.creset.isSome then s.mgtAnswer 0x30 id mBusy []
    else k { s with island := { s.island with busy := some (0x30, id), resetPending := some (0x30, id) } }

/-- Byte 0: a compute reset with C = I + 2; a device that has not come up has nothing to reset. -/
def State.resetCompute (s : State) (id : BitVec 16) : State :=
  s.resetOp id fun s =>
    if s.fld 0x200 7 0 ≠ 0 ∨ s.fld 0x200 15 8 = 0 then s.endReset mState
    else s.startReset (tadd s.tick 2) false false

/-- Byte 1: TIER_FLUSH, then the warm form of a start; without flash, or before admission has opened, there is nothing to flush. Log 119. -/
def State.resetWarm (s : State) (id : BitVec 16) (env : StartEnv) : State :=
  s.resetOp id fun s =>
    if !s.pins.coldRstN || !s.pins.mainPg then s.endReset mState
    else if s.hasFlash && s.opened then { s with island := { s.island with warmEnv := some env } }.beginDrain .warm 2 false false
    else s.warmStart env

/-- Byte 2: TIER_FLUSH, then the cold reset; the start that follows is COLD_START. -/
def State.resetCold (s : State) (id : BitVec 16) : State :=
  s.resetOp id fun s =>
    if !s.pins.coldRstN || !s.pins.mainPg then s.endReset mState
    else s.coldRestart false

/-! ### Anchors, telemetry and sessions (R457 to R460, R463) -/

/-- MGT_PORT shows the anchors and sessions. -/
def State.showPort (s : State) : State :=
  (s.setFld 0x5218 11 9 s.island.anchors.length).setFld 0x5218 8 6 s.island.sessions

/-- ANCHOR_ADD: an anchor that is already there stays. -/
def State.addAnchor (s : State) (id : BitVec 16) (cert : BitVec 384) : State :=
  s.mgtOp 0x40 id true true fun s =>
    if s.island.anchors.contains cert then s.mgtAnswer 0x40 id mOk []
    else if 4 ≤ s.island.anchors.length then s.mgtAnswer 0x40 id mFull []
    else ({ s with island := { s.island with anchors := s.island.anchors ++ [cert] } }.showPort).mgtAnswer 0x40 id mOk []

/-- ANCHOR_REMOVE: never of the last anchor; an unknown one is a bad request (log 52). -/
def State.removeAnchor (s : State) (id : BitVec 16) (digest : BitVec 384) : State :=
  s.mgtOp 0x41 id true false fun s =>
    if !s.island.anchors.contains digest then s.mgtAnswer 0x41 id mBad []
    else if s.island.anchors.length ≤ 1 then s.mgtAnswer 0x41 id mDenied []
    else ({ s with island := { s.island with anchors := s.island.anchors.erase digest } }.showPort).mgtAnswer 0x41 id mOk []

/-- The page of a block code and instance, the first of the block's pages. -/
def pageFor (block inst : Nat) : Option Nat :=
  (List.range 0xC00).find? fun p => match pageOf p with
    | some g => decide (g.blk.code = block ∧ g.inst = inst)
    | none => false

/-- TELEMETRY_READ: words 0x100 to 0x1FF of a page. -/
def State.readTelemetry (s : State) (id : BitVec 16) (block inst : Nat) : State :=
  s.mgtOp 0x50 id false false fun s =>
    if !s.hasTelemetry then s.mgtAnswer 0x50 id mDenied []
    else match pageFor block inst with
      | some p => s.mgtAnswer 0x50 id mOk (wordsBytes ((List.range 32).map fun i => s.regView .management (p * 4096 + 0x100 + 8 * i)))
      | none => s.mgtAnswer 0x50 id mBad []

/-- TLS_HANDSHAKE: the suite, at most four sessions, a chain that ends at an anchor and has not expired (R458); without an anchor any
client certificate (R459). -/
def State.handshake (s : State) (anchor : BitVec 384) (notAfterNs : Nat) (suiteOk : Bool) : State :=
  if !s.pins.auxRstN then s
  else
    let known := s.island.anchors.isEmpty || (s.island.anchors.contains anchor && decide (s.tim.netTime ≤ notAfterNs))
    if suiteOk && known && decide (s.island.sessions < 4) then
      ((({ s with island := { s.island with sessions := s.island.sessions + 1 } }.showPort).bump .mgt 0 0x100).emit (.tls true))
    else ((s.bump .mgt 0 0x108).raise .mgt 0 2).emit (.tls false)

/-- MGT_PORT_LINK: LINK and SPEED; PORT_LINK when LINK changes. -/
def State.portLink (s : State) (up tenG : Bool) : State :=
  if !s.pins.auxRstN then s
  else
    let was := bit (s.reg 0x5218) 0
    let s := s.setFld 0x5218 2 0 (if up then (if tenG then 5 else 3) else 0)
    if was = up then s else s.raise .mgt 0 3

/-! ### SPDM (R461, R462) -/

/-- An SPDM response: version 1.3, code, parameters and payload, in OP 0x60 (the byte layout is SPDM's own; log 53). -/
def State.spdm (s : State) (id : BitVec 16) (code p1 p2 : Byte) (payload : List Byte) : State :=
  if !s.pins.auxRstN then s
  else (s.bump .mgt 0 0x110).mgtAnswer 0x60 id mOk ([0x13, code, p1, p2] ++ payload)

/-- ERROR UnsupportedRequest. -/
def State.spdmUnsupported (s : State) (id : BitVec 16) (code : Byte) : State := s.spdm id 0x7F 0x07 code []

/-- Measurement block `i` of R462. -/
def State.measurement (s : State) (i : Nat) : List Byte :=
  let digest := fun (bs : List Byte) => leBytes 48 (Config.sha384 bs).toNat
  match i with
  | 1 => leBytes 48 (Config.romDigest 0).toNat
  | 2 => match s.slotUsed' with
    | some g => digest (leBytes 2 g.secVersion.toNat ++ leBytes 3 g.release.toNat ++ leBytes 48 g.iluongDigest.toNat)
    | none => digest []
  | 3 => match s.slotUsed' with
    | some g => digest (leBytes 48 g.hostDigest.toNat ++ leBytes 48 g.dictDigest.toNat)
    | none => digest []
  | 4 => digest ((s.recordUsed.map fun r => r.2.bytes).getD [])
  | 5 =>
    let seqs := ((s.boot.licences.filterMap fun l => match l with
      | some l => if s.licInForce l then some l.licenceSeq.toNat else none
      | none => none).mergeSort)
    digest (leBytes 1 s.variant ++ leBytes 1 (s.fld 0x1200 9 8) ++ seqs.flatMap fun q => leBytes 4 q)
  | 6 => match s.fw.config with
    | some c => digest (wordsBytes [place 31 0 c.magic.toNat, place 31 0 c.seq.toNat,
        place 19 0 c.devEid.toNat ||| place 25 24 c.hostRegion.toNat ||| place 47 32 c.timeWaitMs.toNat, c.rsvModel, c.rsvCtrl,
        c.rsvPolicy, c.rsvCharge])
    | none => digest []
  | 7 =>
    let r := s.tenantRecord
    wordsBytes [place 2 0 r.state.toNat ||| place 4 3 r.defaultKind.toNat ||| place 31 16 r.keyGen.toNat ||| place 63 32 r.epoch.toNat,
      place 47 0 s.island.lastTransition]
  | _ => wordsBytes [place 7 0 (s.fld 0x200 7 0) ||| place 15 8 (s.fld 0x200 15 8) ||| place 16 16 (s.fld 0x220 0 0)]

/-- GET_MEASUREMENTS: index 0 asks for the number of blocks, 0xFF for all of them; the response is signed over the nonce (log 53). -/
def State.spdmMeasure (s : State) (id : BitVec 16) (index : Nat) (nonce : BitVec 256) : State :=
  let is := if index = 0xFF then [1, 2, 3, 4, 5, 6, 7, 8] else if 1 ≤ index ∧ index ≤ 8 then [index] else []
  if index ≠ 0 ∧ is.isEmpty = true then s.spdm id 0x7F 0x01 0 []
  else
    let body := is.flatMap fun i => [BitVec.ofNat 8 i] ++ s.measurement i
    let signed := leBytes 32 nonce.toNat ++ body
    s.spdm id 0x60 (if index = 0 then 8 else 0) 0 (body ++ leBytes 96 (Config.signature signed).toNat)

/-! ### Rows -/

/-- GET_STATE (R460). -/
def execGetState (reqId : BitVec 16) (s : State) : Host.Outcome State Fault Refusal := .next (s.getState reqId)

/-- ASSIGN (R452). -/
def execAssign (reqId : BitVec 16) (body : List Byte) (s : State) : Host.Outcome State Fault Refusal := .next (s.assignTenant reqId body)

/-- ASSIGN_DONE (R445). -/
def execAssignDone (s : State) : Host.Outcome State Fault Refusal := .next s.assignDone

/-- RELEASE (R453). -/
def execRelease (reqId : BitVec 16) (s : State) : Host.Outcome State Fault Refusal := .next (s.releaseTenant reqId)

/-- RELEASE_STOP (R453). -/
def execReleaseStop (s : State) : Host.Outcome State Fault Refusal := .next s.releaseStop

/-- PURGE_BEGIN (R455). -/
def execPurgeBegin (s : State) : Host.Outcome State Fault Refusal := .next s.purgeBegin

/-- PURGE_DONE (R453). -/
def execPurgeDone (s : State) : Host.Outcome State Fault Refusal := .next s.purgeDone

/-- CLEAR (R445). -/
def execClear (reqId : BitVec 16) (s : State) : Host.Outcome State Fault Refusal := .next (s.clearTenant reqId)

/-- LICENCE_INSTALL (R423). -/
def execLicenceInstall (reqId : BitVec 16) (l : Licence) (s : State) : Host.Outcome State Fault Refusal := .next (s.licInstall reqId l)

/-- LICENCE_REMOVE (R423). -/
def execLicenceRemove (reqId : BitVec 16) (seq : BitVec 32) (s : State) : Host.Outcome State Fault Refusal := .next (s.licRemove reqId seq)

/-- IMAGE_STAGE (R460). -/
def execImageStage (reqId : BitVec 16) (img : SlotImage) (s : State) : Host.Outcome State Fault Refusal := .next (s.stageImage reqId img)

/-- IMAGE_TRIAL (R406). -/
def execImageTrial (reqId : BitVec 16) (left : BitVec 8) (s : State) : Host.Outcome State Fault Refusal :=
  .next (s.trialImage reqId left.toNat)

/-- RECORD_INSTALL (R410). -/
def execRecordInstall (reqId : BitVec 16) (r : DeviceRecord) (s : State) : Host.Outcome State Fault Refusal := .next (s.installRecord reqId r)

/-- CONFIG_WRITE (R411). -/
def execConfigWrite (reqId : BitVec 16) (c : BootConfig) (s : State) : Host.Outcome State Fault Refusal := .next (s.writeConfig reqId c)

/-- RESET with byte 0 (R417). -/
def execMgtResetCompute (reqId : BitVec 16) (s : State) : Host.Outcome State Fault Refusal := .next (s.resetCompute reqId)

/-- RESET with byte 1 (R416). -/
def execWarmStart (reqId : BitVec 16) (env : StartEnv) (s : State) : Host.Outcome State Fault Refusal := .next (s.resetWarm reqId env)

/-- RESET with byte 2 (R416). -/
def execColdRestart (reqId : BitVec 16) (s : State) : Host.Outcome State Fault Refusal := .next (s.resetCold reqId)

/-- ANCHOR_ADD (R459). -/
def execAnchorAdd (reqId : BitVec 16) (cert : BitVec 384) (s : State) : Host.Outcome State Fault Refusal := .next (s.addAnchor reqId cert)

/-- ANCHOR_REMOVE (R459). -/
def execAnchorRemove (reqId : BitVec 16) (digest : BitVec 384) (s : State) : Host.Outcome State Fault Refusal :=
  .next (s.removeAnchor reqId digest)

/-- TELEMETRY_READ (R460). -/
def execTelemetryRead (reqId : BitVec 16) (block inst : Byte) (s : State) : Host.Outcome State Fault Refusal :=
  .next (s.readTelemetry reqId block.toNat inst.toNat)

/-- TLS_HANDSHAKE (R458). -/
def execTlsHandshake (anchor : BitVec 384) (notAfterNs : Nat) (suiteOk : Bool) (s : State) : Host.Outcome State Fault Refusal :=
  .next (s.handshake anchor notAfterNs suiteOk)

/-- GET_VERSION (R461): one entry, SPDM 1.3. -/
def execGetVersion (reqId : BitVec 16) (s : State) : Host.Outcome State Fault Refusal :=
  .next (s.spdm reqId 0x04 0 0 [0x00, 0x01, 0x00, 0x13])

/-- GET_CAPABILITIES (R461): CERT_CAP, CHAL_CAP and MEAS_CAP with signature. -/
def execGetCapabilities (reqId : BitVec 16) (s : State) : Host.Outcome State Fault Refusal :=
  .next (s.spdm reqId 0x61 0 0 (leBytes 4 0x16))

/-- NEGOTIATE_ALGORITHMS (R461): P-384 and SHA-384. -/
def execNegotiateAlgorithms (reqId : BitVec 16) (s : State) : Host.Outcome State Fault Refusal :=
  .next (s.spdm reqId 0x63 0 0 (leBytes 4 0x80 ++ leBytes 4 0x02))

/-- GET_DIGESTS (R461): slot 0. -/
def execGetDigests (reqId : BitVec 16) (s : State) : Host.Outcome State Fault Refusal :=
  .next (s.spdm reqId 0x01 0 1 (leBytes 48 (Config.sha384 (Config.certChain 0)).toNat))

/-- GET_CERTIFICATE (R461): the chain of slot 0. -/
def execGetCertificate (reqId : BitVec 16) (slot : Fin 8) (s : State) : Host.Outcome State Fault Refusal :=
  .next (if slot = 0 then s.spdm reqId 0x02 0 0 (Config.certChain 0) else s.spdmUnsupported reqId 0x82)

/-- CHALLENGE (R461): signed over the nonce with the identity key. -/
def execChallenge (reqId : BitVec 16) (slot : Fin 8) (nonce : BitVec 256) (s : State) : Host.Outcome State Fault Refusal :=
  .next (if slot = 0 then
      s.spdm reqId 0x03 0 1 (leBytes 48 (Config.sha384 (Config.certChain 0)).toNat ++
        leBytes 96 (Config.signature (leBytes 32 nonce.toNat)).toNat)
    else s.spdmUnsupported reqId 0x83)

/-- GET_MEASUREMENTS (R462). -/
def execGetMeasurements (reqId : BitVec 16) (index : Byte) (nonce : BitVec 256) (s : State) : Host.Outcome State Fault Refusal :=
  .next (s.spdmMeasure reqId index.toNat nonce)

/-- Unsupported SPDM requests (R461). -/
def execSpdmUnsupported (reqId : BitVec 16) (code : Byte) (s : State) : Host.Outcome State Fault Refusal :=
  .next (s.spdmUnsupported reqId code)

/-- MGT_PORT_LINK (R457). -/
def execMgtPortLink (up : Bool) (tenG : Bool) (s : State) : Host.Outcome State Fault Refusal := .next (s.portLink up tenG)

end Sys2Proof.Machine
end

