-- ==== Sys2Proof/Machine/RingCmds.lean ====
section
/-! DEFINITION. The ring commands (R386): contexts (R53 to R55, R60, R353), extents, domains (R280 to R282), tables, programs, the period,
policies (R387), links (R345, R420), host-address descriptors (R189), flush and resets (R239, R417, R418) and queries (R388). -/

namespace Sys2Proof

/-- An entry that uses no operand. -/
def Entry.bare (e : Entry) : Bool := e.rsvOk 0 0 0 0 0 0 0 0

namespace Machine

/-- Whether a buffer of `n` bytes lies in the host region. -/
def State.hostBuf (s : State) (a n : Nat) : Bool :=
  (s.win a).isHost && (s.win (a + n - 1)).isHost && (List.range (n / 4096)).all fun i => (s.win (a + 4096 * i)).isHost

/-- Journal a command that completes in the switch tick of its table (R55, R282): `r1` is added to that tick in RESULT1. -/
def State.journalSwitch (s : State) (op : Nat) (e : Entry) (obj : Obj) (w : TabWrite) (r1 : Word) : State :=
  let r := s.tableChange w
  r.2.journal op e obj (.sw w.table r.1) (r1 ||| BitVec.ofNat 64 (r.1.getD 0))

/-! ### Contexts (R53 to R55) -/

/-- The cases in which CTX_BIND ends with ACCESS (R54, R353). -/
def bindAccess (ctx : Nat) (c : Ctxt) : Bool :=
  (!c.host && decide (c.xlt ≠ 0)) || decide (c.xlt = 3) || (c.may 7 && decide (c.xlt = 0)) || (decide (ctx = 0) && !c.host) ||
    decide (bits (c.sub.headD 0) 2 0 = 7)

/-- The block that holds a context's extent base list. -/
def oldList (c : Ctxt) : Option Nat := if c.eblCount = 0 then none else some c.ebl

/-- The bits of the words of a CTXT entry that hold fields; the others are RSV and read as zero (R8, R53, R353). -/
def ctxtMasks : List Word :=
  [mask 51 16 ||| mask 3 0, mask 43 0, ~~~0, ~~~0, mask 23 0, mask 60 4, 0, 0, mask 31 8 ||| mask 2 0, 0, 0, 0, 0, 0, 0, 0]

/-- An extent base list with its RSV bits zero: 16-byte entries (R8, R60). -/
def eblImage (bs : List Byte) : List Byte :=
  wordsBytes ((bytesWords (bs.length / 8) bs).zipIdx.map fun x => if x.2 % 2 = 0 then x.1 &&& (mask 63 63 ||| mask 47 24 ||| mask 17 0) else x.1)

/-- A member list with its RSV bits zero: 4-byte entries (R8, R281). -/
def memberImage (bs : List Byte) : List Byte :=
  bs.zipIdx.map fun x => if x.2 % 4 = 2 then x.1 &&& 0x0F else if x.2 % 4 = 3 then x.1 &&& 0x80 else x.1

/-- CTX_BIND: the image with its list copied to a new place in the control region, in force from the switch tick. Log 50. -/
def State.ctxBind (s : State) (e : Entry) : State :=
  let img := bits e.w1 51 4 * 16
  let src := bits e.w2 51 4 * 16
  let ws := s.readWords img 16
  let c := ctxtOf ws
  let wf := e.rsvOk 0xFFFF (mask 51 4) (mask 51 4) 0 0 0 0 0 && s.hostBuf img 128 && (decide (c.eblCount = 0) || s.hostBuf src (16 * c.eblCount))
  s.command 0x10 e wf true (.ctx e.arg.toNat) true fun s =>
    let es := s.ebl { c with ebl := src }
    if bindAccess e.arg.toNat c then s.endNow 0x10 e stAccess
    else if 256 < c.eblCount ∨ eblOk es c.xlt = false then s.endNow 0x10 e stInvalid
    else
      let old := oldList (ctxtOf (s.entryMem .ctxt (s.activeBank .ctxt) e.arg.toNat))
      let b : Nat × State := if c.eblCount = 0 then (0, s)
        else
          let r := s.placeBlock (16 * c.eblCount) 16
          (r.1, r.2.writeRegion r.1 (eblImage (s.readRegion src (16 * c.eblCount))) false)
      let ws := (ws.zip ctxtMasks).map fun x => x.1 &&& x.2
      let ws := ws.set 5 (setBits (ws.getD 5 0) 51 4 (b.1 / 16))
      b.2.journalSwitch 0x10 e (.ctx e.arg.toNat) ⟨.ctxt, e.arg.toNat, ws, e.ring, e.tag, old⟩ 0

/-- CTX_UNBIND: the entry with VALID = 0, in force from the switch tick. -/
def State.ctxUnbind (s : State) (e : Entry) : State :=
  s.command 0x11 e (e.rsvOk 0xFFFF 0 0 0 0 0 0 0) true (.ctx e.arg.toNat) false fun s =>
    let old := oldList (ctxtOf (s.entryMem .ctxt (s.activeBank .ctxt) e.arg.toNat))
    s.journalSwitch 0x11 e (.ctx e.arg.toNat) ⟨.ctxt, e.arg.toNat, List.replicate 16 0, e.ring, e.tag, old⟩ 0

/-! ### Domains (R280 to R282, R292) -/

/-- The words of a domain's entry as firmware last wrote it. -/
def State.domWords (s : State) (d : Nat) : List Word := s.entryMem .domt (s.activeBank .domt) d

/-- Valid coherent extents of a domain. -/
def State.domExtents (s : State) (d : Nat) : List Nat :=
  s.liveExtents.filter fun x => let e := s.exttNow x; e.valid && e.coherent && decide (e.domain = d)

/-- Change a domain's entry by a switch; its live state becomes `st` at the switch tick. -/
def State.domSwitch (s : State) (op : Nat) (e : Entry) (d : Nat) (ws : List Word) (old : Option Nat) (st : DomSt) (r1 : Word) : State :=
  let s := s.setDom d { s.dom d with forming := some st }
  s.journalSwitch op e (.dom d) ⟨.domt, d, ws, e.ring, e.tag, old⟩ r1

/-- DOM_CREATE. -/
def State.domCreate (s : State) (e : Entry) : State :=
  let d := bits e.w1 11 0
  s.command 0x30 e (e.rsvOk 0 (mask 11 0 ||| mask 23 16) (mask 15 0) 0 0 0 0 0) s.hasCoh (.dom d) true fun s =>
    if (s.dom d).st ≠ .unused then s.refuse 0x30 e 0
    else
      let ws := [place 0 0 1 ||| place 55 48 (bits e.w1 23 16), 0, place 15 0 (bits e.w2 15 0)] ++ List.replicate 29 0
      s.domSwitch 0x30 e d ws none .quiet 0

/-- An entry of a member list: (VALID, EID) (R281). -/
def memberOf (bs : List Byte) (i : Nat) : Bool × Nat := let v := leNat ((bs.drop (4 * i)).take 4); (decide (v / 2 ^ 31 % 2 = 1), v % 2 ^ 20)

/-- The order that R281 asks of a member list with `n` members: the valid entries are the first `n` and rise. Log 129. -/
def memberListOk (bs : List Byte) (n : Nat) : Bool :=
  let l := (List.range 1024).map (memberOf bs)
  let vs := (l.take n).map (·.2)
  (l.take n).all (·.1) && (l.drop n).all (fun m => !m.1) && (vs.zip (vs.drop 1)).all fun p => decide (p.1 < p.2)

/-- EPOCH after a DOM_FORM (R282). -/
def nextEpoch (n : Nat) : Nat := if n = 65535 then 1 else n + 1

/-- Some coherent extent of the domain has not reached its P (R238). -/
def State.domUnpinned (s : State) (d : Nat) : Bool :=
  (s.domExtents d).any fun x => !(s.exttNow x).pinned || s.tier.repins.contains x || s.tier.pins.any fun j => decide (j.ext = x)

/-- DOM_FORM. -/
def State.domForm (s : State) (e : Entry) : State :=
  let d := bits e.w1 11 0
  let src := bits e.w2 51 12 * 4096
  let n := bits e.w3 10 0
  let wf := e.rsvOk 0 (mask 11 0) (mask 51 12) (mask 10 0) 0 0 0 0 && decide (n ≤ 1024) && s.hostBuf src 4096
  s.command 0x31 e wf s.hasCoh (.dom d) true fun s =>
    let img := s.readRegion src 4096
    if !memberListOk img n then s.endNow 0x31 e stBadFormat
    else if (s.dom d).st ≠ .quiet ∨ s.domUnpinned d = true then s.refuse 0x31 e 0
    else
      let ws := s.domWords d
      let o := domtOf ws
      let r := s.placeBlock 4096 4096
      let s := r.2.writeRegion r.1 (memberImage img) false
      let ep := nextEpoch o.epoch
      let w0 := setBits (setBits (ws.getD 0 0) 31 16 ep) 42 32 n
      let ws := (ws.set 0 w0).set 1 (place 51 12 (r.1 / 4096))
      s.domSwitch 0x31 e d ws (if o.memBase = 0 then none else some o.memBase) .active (place 63 48 ep)

/-- DOM_STOP. -/
def State.domStop (s : State) (e : Entry) : State :=
  let d := bits e.w1 11 0
  s.command 0x32 e (e.rsvOk 0 (mask 11 0) 0 0 0 0 0 0) s.hasCoh (.dom d) false fun s =>
    if (s.dom d).st ≠ .active then s.refuse 0x32 e 0
    else (s.noteDown d s.effectTick 4 0).journalTick 0x32 e (.dom d) s.effectTick

/-- DOM_DESTROY. -/
def State.domDestroy (s : State) (e : Entry) : State :=
  let d := bits e.w1 11 0
  s.command 0x33 e (e.rsvOk 0 (mask 11 0) 0 0 0 0 0 0) s.hasCoh (.dom d) false fun s =>
    if (s.dom d).st ≠ .quiet ∨ s.domExtents d ≠ [] then s.refuse 0x33 e 0
    else
      let o := domtOf (s.domWords d)
      s.domSwitch 0x33 e d (List.replicate 32 0) (if o.memBase = 0 then none else some o.memBase) .unused 0

/-! ### Tables, programs, the period -/

/-- TABLE_INVALIDATE (R36): exempt from R385. -/
def State.tableInvalidate (s : State) (e : Entry) : State :=
  let first := bits e.w2 31 0
  let n := bits e.w3 31 0
  let t := Table.ofNum (bits e.w1 3 0)
  let wf := e.rsvOk 0 (mask 3 0) (mask 31 0) (mask 31 0) 0 0 0 0 && decide (1 ≤ n) && (t.any fun t => decide (first + n ≤ t.entries))
  s.command 0x40 e wf true .none false fun s =>
    match t with
    | some t => (s.invalidate t first n).journalTick 0x40 e .none s.effectTick
    | none => s

/-- PRG_CHECK (R120, R391). -/
def State.prgCheck (s : State) (e : Entry) : State :=
  s.command 0x41 e (e.rsvOk 0 (mask 10 0) 0 0 0 0 0 0) true .none false fun s =>
    let ws := s.entryMem .prgt (bit e.w1 10) (bits e.w1 9 0)
    s.endCmd 0x41 e (if progOk ws then stOk else stBadProgram) (progWord0 ws)

/-- A switch of some table or of a port's Sluice list is pending (R68). -/
def State.anySwitch (s : State) : Bool := allTables.any s.switchPending || (List.range 32).any fun p => (s.sched p).next.isSome

/-- TICK_SET (R68): one that comes while another runs waits for it (log 74). -/
def State.tickSet (s : State) (e : Entry) : State :=
  let q := bits e.w1 5 0
  s.command 0x42 e (e.rsvOk 0 (mask 5 0) 0 0 0 0 0 0 && decide (4 ≤ q ∧ q ≤ 32)) true .none false fun s =>
    if s.anySwitch then s.refuse 0x42 e 0
    else if s.tim.period.isSome then { s with tim := { s.tim with periodNext := s.tim.periodNext ++ [q] } }.journal 0x42 e .none .tickSet 0
    else { s with tim := { s.tim with period := some ⟨q, tadd s.tick 1⟩ } }.journal 0x42 e .none .tickSet 0

/-! ### POLICY_SET (R387) -/

/-- A register that POLICY_SET may write: its block, its number of instances (0: INSTANCE 0xFF only) and the fields it may change. -/
def policyReg (code off : Nat) : Option (Blk × Nat × Word) :=
  if code = Blk.code .hdg then
    (if off = 0x200 then some (.hdg, 0, mask 15 8) else if off = 0x208 then some (.hdg, 0, mask 47 0)
     else if off = 0x210 then some (.hdg, 0, mask 8 0) else if off = 0x248 then some (.hdg, 0, mask 63 0) else none)
  else if code = Blk.code .rtr then
    (if off = 0x208 then some (.rtr, 0, mask 14 12 ||| mask 10 8 ||| mask 7 0) else if off = 0x210 then some (.rtr, 0, mask 31 0) else none)
  else if code = Blk.code .tier then (if off = 0x228 then some (.tier, 4, mask 9 0) else none)
  else if code = Blk.code .drg then
    (if off = 0x200 then some (.drg, 4, mask 31 16 ||| mask 1 0) else if off = 0x218 then some (.drg, 4, mask 31 0) else none)
  else if code = Blk.code .coh then (if off = 0x200 then some (.coh, 4, mask 15 0) else none)
  else if code = Blk.code .sch then
    (if off % 8 ≠ 0 then none
     else if 0x200 ≤ off ∧ off < 0x240 then some (.sch, 4, mask 9 0) else if 0x240 ≤ off ∧ off < 0x280 then some (.sch, 4, mask 63 0)
     else if 0x280 ≤ off ∧ off < 0x2C0 then some (.sch, 4, mask 31 0) else none)
  else if code = Blk.code .hmc then
    (if off = 0x200 then some (.hmc, 24, mask 10 0) else if off = 0x210 then some (.hmc, 24, mask 0 0) else none)
  else if code = Blk.code .fmc then (if off = 0x218 then some (.fmc, 16, mask 15 0) else none)
  else if code = Blk.code .lnk then
    (if off = 0x200 then some (.lnk, 32, mask 59 16 ||| mask 10 4 ||| mask 1 0) else none)
  else none

/-- Offsets of every instance of a block's register at `off`. -/
def policyOffsets (b : Blk) (off inst : Nat) : List Nat :=
  let n := match b with
    | .hmc => 24
    | .fmc => 16
    | .lnk => 32
    | _ => 4
  if inst = 0xFF then (List.range n).map fun i => rOff b i off else [rOff b inst off]

/-- POLICY_SET. Log 128. -/
def State.policySet (s : State) (e : Entry) : State :=
  let off := bits e.w1 15 0
  let inst := bits e.w1 31 24
  let r := policyReg (bits e.w1 23 16) off
  let wf := e.rsvOk 0 (mask 31 0) (~~~0) (~~~0) 0 0 0 0 && (r.all fun r => decide (inst = 0xFF ∨ inst < r.2.1))
  s.command 0x43 e wf true .none false fun s =>
    match r with
    | none => s.endNow 0x43 e stAccess
    | some r =>
      if e.w3 &&& ~~~r.2.2 ≠ 0 then s.endNow 0x43 e stAccess
      else
        let j : PolicyJob := ⟨s.effectTick, policyOffsets r.1 off inst, e.w2, e.w3⟩
        { s with fw := { s.fw with policies := s.fw.policies ++ [j] } }.journalTick 0x43 e .none s.effectTick

/-! ### LNK_CMD (R345, R386, R420) -/

/-- The LNK_CTRL that an action writes: LANE_EXCLUDE of the command, DISABLE kept but for the actions that change it. Log 127. -/
def lnkWrite (act lanes : Nat) (disable : Bool) : Word :=
  let dis := if act = 3 then true else if act = 4 then false else disable
  place 11 4 lanes ||| place 3 3 (b2n dis) ||| place 2 2 (b2n (decide (act = 2))) ||| place 1 1 (b2n (decide (act = 1))) |||
    place 0 0 (b2n (decide (act = 0 ∨ act = 4)))

/-- LNK_CMD with an action: it ends in the tick in which the port stands in UP, DOWN or DISABLED. Log 126. -/
def State.lnkCmd (s : State) (act : Nat) (e : Entry) : State :=
  let p := bits e.w1 4 0
  s.command 0x44 e (e.rsvOk 0 (mask 4 0 ||| mask 10 8 ||| mask 23 16) 0 0 0 0 0 0) true (.port p) false fun s =>
    if act = 4 ∧ s.portLicensed p = false then s.endNow 0x44 e stAccess
    else
      let s := s.journal 0x44 e (.port p) (.port p) 0
      let s := s.lnkCtrlWrite p (lnkWrite act (bits e.w1 23 16) (bit (s.reg (rOff .lnk p 0x208)) 3))
      let st := s.linkState p
      if st = 0 ∨ st = 1 ∨ st = 4 then s.finishPort p else s

/-! ### HOST_BULK (R189) -/

/-- HOST_BULK: handed to its Headgate in this tick, which looks at reserved fields in their place among its checks (R190). Log 125. -/
def State.hostBulk (s : State) (e : Entry) : State :=
  let toPool := !(e.flags.getLsbD 0)
  let wf := { e with flags := e.flags &&& 0xFE }.rsvOk 0xFFFF (~~~0) (~~~0) (mask 35 0) 0 0 0 0
  s.command 0x50 e true true (.ctx e.arg.toNat) true fun s =>
    (s.journal 0x50 e .none (.bulk 0) 0).takeHostBulk ⟨e.ring, e.tag, toPool, e.arg.toNat, e.w1, e.w2, bits e.w3 35 0, !wf⟩

/-! ### Flush and resets (R239, R386, R417, R418) -/

/-- TIER_FLUSH. -/
def State.tierFlush (s : State) (e : Entry) : State :=
  s.command 0x60 e e.bare s.hasFlash .none false fun s =>
    if s.draining then s.refuse 0x60 e 0
    else (s.journal 0x60 e .none .flush (BitVec.ofNat 64 s.tick)).beginDrain .flush 2 false false

/-- The tick in which a compute reset ends: C + 250 ms (R417). -/
def State.resetEnds (s : State) (r : CReset) : Nat := tadd r.c (s.ticksOfUs 250000)

/-- ADMIT_RESUME: the OPEN header now, ADMIT_EN at the next boundary. Log 130. -/
def State.admitResume (s : State) (e : Entry) : State :=
  s.command 0x61 e e.bare true .none false fun s =>
    match s.creset with
    | some r => s.refuse 0x61 e (s.resetEnds r)
    | none =>
      if !s.rsv.flushed then s.refuse 0x61 e 0
      else (s.putCheckpoint false s.tier.lost).journalTick 0x61 e .none (tadd s.tick 1)

/-- COMPUTE_RESET: C = I + 2. -/
def State.computeReset (s : State) (e : Entry) : State :=
  s.command 0x62 e e.bare true .none false fun s =>
    if s.draining then s.refuse 0x62 e 0
    else
      let s := s.journal 0x62 e .none .reset (BitVec.ofNat 64 s.effectTick)
      if s.creset.isSome then s else s.startReset s.effectTick false false

/-! ### Queries (R388) -/

/-- A query: it writes its eight result words, then completes; exempt from R385. -/
def State.query (s : State) (op : Nat) (e : Entry) (wf : Bool) (buf : Nat) (result : State → List Word) : State :=
  s.command op e (wf && s.hostBuf buf 64) true .none false fun s =>
    let ws := result s
    (s.writeWords buf (ws ++ List.replicate (8 - ws.length) 0)).endNow op e stOk

/-- The result of DEV_QUERY. -/
def State.devResult (s : State) : List Word :=
  [place 1 0 s.variant ||| place 2 2 (b2n s.hasFlash) ||| place 3 3 (b2n s.hasCoh) ||| place 4 4 (b2n s.hasAssured) |||
     place 7 5 (s.fld 0x5200 2 0) ||| place 63 32 (s.fld 0x1208 31 0),
   place 31 0 (s.fld 0x5200 63 32),
   place 47 0 s.tick ||| place 53 48 s.tim.periodQ,
   s.reg 0x8200]

/-- Flash groups of an extent that are stored. -/
def State.extGroups (s : State) (x : Nat) : List (Nat × FGroup) :=
  let ps := (s.extParcels x).map (·.2)
  s.tier.fgroups.filter fun g => g.2.stored && ps.contains (g.1 / 512)

/-- Lines of an extent's frames in the states given. -/
def State.extLines (s : State) (x : Nat) (p : LineSt → Bool) : Nat :=
  let fs := (s.extParcels x).filterMap fun ip => s.frameOf ip.2
  (s.tier.lsm.filter fun e => fs.contains (e.1 / 8192) && p e.2).length

/-- Resident lines of an extent; without flash every line of a framed parcel (R220). Log 132. -/
def State.extResident (s : State) (x : Nat) : Nat :=
  if s.hasFlash then s.extLines x fun l => decide (l ≠ .absent)
  else 8192 * ((s.extParcels x).filter fun ip => (s.frameOf ip.2).isSome).length

/-- Groups of an extent that are marked lost (R238, R265). -/
def State.extLost (s : State) (x : Nat) : Nat :=
  let ps := (s.extParcels x).map (·.2)
  let a := (s.tier.lost.filter fun l => ps.contains l.1).map fun l => l.1 * 512 + l.2
  let b := ((s.extGroups x).filter fun g => g.2.lost).map (·.1)
  (a ++ b).dedup.length

/-- The result of EXT_QUERY. -/
def State.extResult (s : State) (x : Nat) : List Word :=
  let e := s.exttNow x
  let pinning := s.tier.repins.contains x || s.tier.pins.any fun j => decide (j.ext = x)
  let gs := (s.extGroups x).filter fun g => g.2.stored
  [place 0 0 (b2n e.valid) ||| place 2 1 e.state ||| place 3 3 (b2n e.pinned) ||| place 4 4 (b2n e.assured) ||| place 5 5 (b2n e.coherent) |||
     place 6 6 (b2n (s.drainOf x).isSome) ||| place 7 7 (b2n pinning),
   place 23 0 (e.parcels % 8388608) ||| place 55 32 (e.prev % 8388608),
   place 47 0 (((s.drainOf x).bind (·.due)).getD 0),
   BitVec.ofNat 64 (s.extResident x), BitVec.ofNat 64 (s.extLines x LineSt.unclean),
   BitVec.ofNat 64 gs.length, BitVec.ofNat 64 (gs.map fun g => (g.2.die, g.2.page, g.2.sector)).dedup.length,
   BitVec.ofNat 64 (s.extLost x)]

/-- The result of PARCEL_QUERY. -/
def State.parcelResult (s : State) (p : Nat) : List Word :=
  let o := sget (fun _ => ({} : ParcelOwner)) s.tier.parcels p
  let f := s.pftOf p
  [if o.allocated then place 17 0 o.ext ||| place 41 18 o.index ||| place 63 63 1 else 0,
   place 19 0 f.frame ||| place 31 31 (b2n f.has)] ++ (if f.has then (s.fhtOf f.frame).words else [])

/-- DEV_QUERY. -/
def State.devQuery (s : State) (e : Entry) : State :=
  s.query 0x70 e (e.rsvOk 0 (mask 51 6) 0 0 0 0 0 0) (bits e.w1 51 6 * 64) State.devResult

/-- EXT_QUERY. -/
def State.extQuery (s : State) (e : Entry) : State :=
  s.query 0x71 e (e.rsvOk 0 (mask 17 0) (mask 51 6) 0 0 0 0 0) (bits e.w2 51 6 * 64) fun s => s.extResult (bits e.w1 17 0)

/-- PARCEL_QUERY. -/
def State.parcelQuery (s : State) (e : Entry) : State :=
  s.query 0x72 e (e.rsvOk 0 (mask 24 0) (mask 51 6) 0 0 0 0 0) (bits e.w2 51 6 * 64) fun s => s.parcelResult (bits e.w1 24 0)

/-! ### Rows -/

/-- NOP (R386). -/
def execNop (e : Entry) (s : State) : Host.Outcome State Fault Refusal :=
  .next (s.command 0x00 e e.bare true .none false fun s => s.endNow 0x00 e stOk)

/-- CTX_BIND (R55). -/
def execCtxBind (e : Entry) (s : State) : Host.Outcome State Fault Refusal := .next (s.ctxBind e)

/-- CTX_UNBIND (R55). -/
def execCtxUnbind (e : Entry) (s : State) : Host.Outcome State Fault Refusal := .next (s.ctxUnbind e)

/-- EXT_CREATE (R50). -/
def execExtCreate (e : Entry) (s : State) : Host.Outcome State Fault Refusal := .next (s.extCreate e)

/-- EXT_RESIZE (R50). -/
def execExtResize (e : Entry) (s : State) : Host.Outcome State Fault Refusal := .next (s.extResize e)

/-- EXT_PIN (R218). -/
def execExtPin (e : Entry) (s : State) : Host.Outcome State Fault Refusal := .next (s.extPin e)

/-- EXT_UNPIN (R50). -/
def execExtUnpin (e : Entry) (s : State) : Host.Outcome State Fault Refusal := .next (s.extUnpin e)

/-- EXT_REVOKE (R58). -/
def execExtRevoke (e : Entry) (s : State) : Host.Outcome State Fault Refusal := .next (s.extRevoke e)

/-- EXT_DESTROY (R50). -/
def execExtDestroy (e : Entry) (s : State) : Host.Outcome State Fault Refusal := .next (s.extDestroy e)

/-- EXT_UPDATE_SET (R173). -/
def execExtUpdateSet (e : Entry) (s : State) : Host.Outcome State Fault Refusal := .next (s.extUpdateSet e)

/-- DOM_CREATE (R282). -/
def execDomCreate (e : Entry) (s : State) : Host.Outcome State Fault Refusal := .next (s.domCreate e)

/-- DOM_FORM (R282). -/
def execDomForm (e : Entry) (s : State) : Host.Outcome State Fault Refusal := .next (s.domForm e)

/-- DOM_STOP (R292). -/
def execDomStop (e : Entry) (s : State) : Host.Outcome State Fault Refusal := .next (s.domStop e)

/-- DOM_DESTROY (R282). -/
def execDomDestroy (e : Entry) (s : State) : Host.Outcome State Fault Refusal := .next (s.domDestroy e)

/-- TABLE_INVALIDATE (R36). -/
def execTableInvalidate (e : Entry) (s : State) : Host.Outcome State Fault Refusal := .next (s.tableInvalidate e)

/-- PRG_CHECK (R386). -/
def execPrgCheck (e : Entry) (s : State) : Host.Outcome State Fault Refusal := .next (s.prgCheck e)

/-- TICK_SET (R68). -/
def execTickSet (e : Entry) (s : State) : Host.Outcome State Fault Refusal := .next (s.tickSet e)

/-- POLICY_SET (R387). -/
def execPolicySet (e : Entry) (s : State) : Host.Outcome State Fault Refusal := .next (s.policySet e)

/-- LNK_CMD with ACTION TRAIN (R345). -/
def execLnkCmdTrain (e : Entry) (s : State) : Host.Outcome State Fault Refusal := .next (s.lnkCmd 0 e)

/-- LNK_CMD with ACTION RETRAIN (R345). -/
def execLnkCmdRetrain (e : Entry) (s : State) : Host.Outcome State Fault Refusal := .next (s.lnkCmd 1 e)

/-- LNK_CMD with ACTION RESET (R420). -/
def execLnkCmdReset (e : Entry) (s : State) : Host.Outcome State Fault Refusal := .next (s.lnkCmd 2 e)

/-- LNK_CMD with ACTION DISABLE (R345). -/
def execLnkCmdDisable (e : Entry) (s : State) : Host.Outcome State Fault Refusal := .next (s.lnkCmd 3 e)

/-- LNK_CMD with ACTION ENABLE and TRAIN (R386). -/
def execLnkCmdEnable (e : Entry) (s : State) : Host.Outcome State Fault Refusal := .next (s.lnkCmd 4 e)

/-- HOST_BULK (R189). -/
def execHostBulk (e : Entry) (s : State) : Host.Outcome State Fault Refusal := .next (s.hostBulk e)

/-- TIER_FLUSH (R239). -/
def execTierFlush (e : Entry) (s : State) : Host.Outcome State Fault Refusal := .next (s.tierFlush e)

/-- ADMIT_RESUME (R386). -/
def execAdmitResume (e : Entry) (s : State) : Host.Outcome State Fault Refusal := .next (s.admitResume e)

/-- COMPUTE_RESET (R417). -/
def execComputeReset (e : Entry) (s : State) : Host.Outcome State Fault Refusal := .next (s.computeReset e)

/-- DEV_QUERY (R388). -/
def execDevQuery (e : Entry) (s : State) : Host.Outcome State Fault Refusal := .next (s.devQuery e)

/-- EXT_QUERY (R388). -/
def execExtQuery (e : Entry) (s : State) : Host.Outcome State Fault Refusal := .next (s.extQuery e)

/-- PARCEL_QUERY (R388). -/
def execParcelQuery (e : Entry) (s : State) : Host.Outcome State Fault Refusal := .next (s.parcelQuery e)

end Machine
end Sys2Proof
end

