-- ==== Sys2Proof/Machine/RingEngine.lean ====
section
/-! DEFINITION. Firmware takes commands from the command rings (R377, R382, R383, R399, R400). -/

namespace Sys2Proof.Machine

/-- Run a command by its opcode (R386); an opcode or an action that the table does not give ends with BAD_FORMAT (R384). -/
def State.runCommand (op : Nat) (e : Entry) (s : State) : State :=
  match op with
  | 0x00 => s.command 0x00 e e.bare true .none false fun s => s.endNow 0x00 e stOk
  | 0x10 => s.ctxBind e
  | 0x11 => s.ctxUnbind e
  | 0x20 => s.extCreate e
  | 0x21 => s.extResize e
  | 0x22 => s.extPin e
  | 0x23 => s.extUnpin e
  | 0x24 => s.extRevoke e
  | 0x25 => s.extDestroy e
  | 0x26 => s.extUpdateSet e
  | 0x30 => s.domCreate e
  | 0x31 => s.domForm e
  | 0x32 => s.domStop e
  | 0x33 => s.domDestroy e
  | 0x40 => s.tableInvalidate e
  | 0x41 => s.prgCheck e
  | 0x42 => s.tickSet e
  | 0x43 => s.policySet e
  | 0x44 => if bits e.w1 10 8 ≤ 4 then s.lnkCmd (bits e.w1 10 8) e else s.command 0x44 e false true .none false id
  | 0x45 => s.invCommand e
  | 0x46 => s.resumeCommand e
  | 0x50 => s.hostBulk e
  | 0x60 => s.tierFlush e
  | 0x61 => s.admitResume e
  | 0x62 => s.computeReset e
  | 0x70 => s.devQuery e
  | 0x71 => s.extQuery e
  | 0x72 => s.parcelQuery e
  | _ => s.command op e false true .none false id

/-- The words of the command at TAIL of ring `i` (R377, R382). -/
def State.cmdWords (s : State) (i : Nat) : List Word :=
  s.readWords (s.fld (0x9200 + 0x40 * i) 51 12 * 4096 + s.fld (cmdTail i) 16 0 % s.cmdN i * 64) 8

/-- Whether ring `i` holds a command that firmware may take (R383). -/
def State.canTake (s : State) (i : Nat) : Bool :=
  s.ringOn (0x9208 + 0x40 * i) && decide (s.fld (cmdHead i) 16 0 ≠ s.fld (cmdTail i) 16 0) && decide (s.outstanding i < s.cmdN i) &&
    s.serves (bits ((s.cmdWords i).headD 0) 7 0)

/-- Take the command at TAIL of ring `i`: TAIL advances past it, and it runs. -/
def State.takeOne (s : State) (i : Fin 4) : State :=
  let ws := s.cmdWords i
  let t := (s.fld (cmdTail i) 16 0 + 1) % (2 * s.cmdN i)
  let s := s.useFwSlots (s.fld (0x9200 + 0x40 * i) 51 12 * 4096 + s.fld (cmdTail i) 16 0 % s.cmdN i * 64) 64
  let s := (s.setReg (cmdTail i) (place 16 0 t)).shadow (0x20 * i + 8) t
  let s := { s with fw := { s.fw with cmdUsed := s.fw.cmdUsed + 1 } }
  s.runCommand (bits (ws.headD 0) 7 0) (entryOf i ws)

/-- CMD_PER_TICK, 1 to 256 (R401). -/
def State.cmdPerTick (s : State) : Nat := min 256 (max 1 (s.fld 0x8218 8 0))

/-- Visit the rings in turn from ring `i`, one command per visit, until `n` are taken or none is left. -/
def State.takeRings : Nat → Nat → State → State
  | 0, _, s => s
  | n + 1, i, s =>
    match ((List.range 4).map fun k => (i + k) % 4).find? s.canTake with
    | none => s
    | some r => State.takeRings n (r + 1) (s.takeOne (ringOf r))

/-- Take the commands that had to wait, in their order; one that firmware still cannot take goes on waiting. -/
def State.takeWaiting (s : State) : State :=
  s.fw.waiting.foldl (fun s x => State.runCommand x.1 x.2 s) { s with fw := { s.fw with waiting := [] } }

/-- COMMAND_TAKE: what had to wait, and what is left of the tick's CMD_PER_TICK commands, beginning with ring I mod 4 (R383, R418). -/
def execCommandTake (s : State) : Host.Outcome State Fault Refusal :=
  .next (State.takeRings (s.cmdPerTick - s.fw.cmdUsed) (s.tick % 4) s.takeWaiting)

end Sys2Proof.Machine
end

