-- ==== Sys2Proof/Machine/Dispatch.lean ====
section
/-! DEFINITION. Dispatch: one arm per command, each one direct call of its meaning. -/

namespace Sys2Proof.Machine

/-- The effect of one command on everything but the queue of waiting commands. -/
def exec (i : Instr) (s : State) : Host.Outcome State Fault Refusal :=
  match i with
  | .nop e => Sys2Proof.Machine.execNop e s
  | .ctxBind e => Sys2Proof.Machine.execCtxBind e s
  | .ctxUnbind e => Sys2Proof.Machine.execCtxUnbind e s
  | .extCreate e => Sys2Proof.Machine.execExtCreate e s
  | .extResize e => Sys2Proof.Machine.execExtResize e s
  | .extPin e => Sys2Proof.Machine.execExtPin e s
  | .extUnpin e => Sys2Proof.Machine.execExtUnpin e s
  | .extRevoke e => Sys2Proof.Machine.execExtRevoke e s
  | .extDestroy e => Sys2Proof.Machine.execExtDestroy e s
  | .extUpdateSet e => Sys2Proof.Machine.execExtUpdateSet e s
  | .domCreate e => Sys2Proof.Machine.execDomCreate e s
  | .domForm e => Sys2Proof.Machine.execDomForm e s
  | .domStop e => Sys2Proof.Machine.execDomStop e s
  | .domDestroy e => Sys2Proof.Machine.execDomDestroy e s
  | .tableInvalidate e => Sys2Proof.Machine.execTableInvalidate e s
  | .prgCheck e => Sys2Proof.Machine.execPrgCheck e s
  | .tickSet e => Sys2Proof.Machine.execTickSet e s
  | .policySet e => Sys2Proof.Machine.execPolicySet e s
  | .lnkCmdTrain e => Sys2Proof.Machine.execLnkCmdTrain e s
  | .lnkCmdRetrain e => Sys2Proof.Machine.execLnkCmdRetrain e s
  | .lnkCmdReset e => Sys2Proof.Machine.execLnkCmdReset e s
  | .lnkCmdDisable e => Sys2Proof.Machine.execLnkCmdDisable e s
  | .lnkCmdEnable e => Sys2Proof.Machine.execLnkCmdEnable e s
  | .xltInvalidate q => Sys2Proof.Machine.execXltInvalidate q s
  | .xltResume q => Sys2Proof.Machine.execXltResume q s
  | .xltAbort q => Sys2Proof.Machine.execXltAbort q s
  | .hostBulk e => Sys2Proof.Machine.execHostBulk e s
  | .tierFlush e => Sys2Proof.Machine.execTierFlush e s
  | .admitResume e => Sys2Proof.Machine.execAdmitResume e s
  | .computeReset e => Sys2Proof.Machine.execComputeReset e s
  | .devQuery e => Sys2Proof.Machine.execDevQuery e s
  | .extQuery e => Sys2Proof.Machine.execExtQuery e s
  | .parcelQuery e => Sys2Proof.Machine.execParcelQuery e s
  | .commandTake => Sys2Proof.Machine.execCommandTake s
  | .heldCompletionPost ring => Sys2Proof.Machine.execHeldCompletionPost ring s
  | .eventPost ev => Sys2Proof.Machine.execEventPost ev s
  | .heldEventPost => Sys2Proof.Machine.execHeldEventPost s
  | .logRecord r => Sys2Proof.Machine.execLogRecord r s
  | .traceRecord tp core arg0 arg1 arg2 => Sys2Proof.Machine.execTraceRecord tp core arg0 arg1 arg2 s
  | .ringVectorSignal ring => Sys2Proof.Machine.execRingVectorSignal ring s
  | .cmdHeadWrite ring value => Sys2Proof.Machine.execCmdHeadWrite ring value s
  | .ringTailWrite ring value => Sys2Proof.Machine.execRingTailWrite ring value s
  | .ringEnable ring value => Sys2Proof.Machine.execRingEnable ring value s
  | .ringBaseWrite ring value => Sys2Proof.Machine.execRingBaseWrite ring value s
  | .epochPolicy => Sys2Proof.Machine.execEpochPolicy s
  | .watchdogReset core => Sys2Proof.Machine.execWatchdogReset core s
  | .taskReassign => Sys2Proof.Machine.execTaskReassign s
  | .tableSwitchReq by' t value cycle => Sys2Proof.Machine.execTableSwitchReq by' t value cycle s
  | .tableBaseWrite by' t bank value cycle => Sys2Proof.Machine.execTableBaseWrite by' t bank value cycle s
  | .tableSwitch t => Sys2Proof.Machine.execTableSwitch t s
  | .oldFreeSet t => Sys2Proof.Machine.execOldFreeSet t s
  | .sluicePortSwitch port => Sys2Proof.Machine.execSluicePortSwitch port s
  | .invalidateEffect => Sys2Proof.Machine.execInvalidateEffect s
  | .xltInvEffect => Sys2Proof.Machine.execXltInvEffect s
  | .policySetEffect => Sys2Proof.Machine.execPolicySetEffect s
  | .extentDrained ext => Sys2Proof.Machine.execExtentDrained ext s
  | .pinDone ext => Sys2Proof.Machine.execPinDone ext s
  | .repin => Sys2Proof.Machine.execRepin s
  | .tickPeriodApply => Sys2Proof.Machine.execTickPeriodApply s
  | .tickBoundary env => Sys2Proof.Machine.execTickBoundary env s
  | .demandReport => Sys2Proof.Machine.execDemandReport s
  | .shareMessage lost => Sys2Proof.Machine.execShareMessage lost s
  | .ebbBook tile => Sys2Proof.Machine.execEbbBook tile s
  | .packetArrival port linkVc pkt => Sys2Proof.Machine.execPacketArrival port linkVc pkt s
  | .transitForward port linkVc => Sys2Proof.Machine.execTransitForward port linkVc s
  | .filterHeldRetry port linkVc => Sys2Proof.Machine.execFilterHeldRetry port linkVc s
  | .routeMissFill port linkVc => Sys2Proof.Machine.execRouteMissFill port linkVc s
  | .echo port pkt => Sys2Proof.Machine.execEcho port pkt s
  | .timeBeacon port pkt localNs => Sys2Proof.Machine.execTimeBeacon port pkt localNs s
  | .beaconSend => Sys2Proof.Machine.execBeaconSend s
  | .ppsEdge localNs => Sys2Proof.Machine.execPpsEdge localNs s
  | .holdover => Sys2Proof.Machine.execHoldover s
  | .timeLockWaitEnd waitedMs => Sys2Proof.Machine.execTimeLockWaitEnd waitedMs s
  | .batch port pkt => Sys2Proof.Machine.execBatch port pkt s
  | .assemblyTimeout port => Sys2Proof.Machine.execAssemblyTimeout port s
  | .lookupBatch port => Sys2Proof.Machine.execLookupBatch port s
  | .read port => Sys2Proof.Machine.execRead port s
  | .write port => Sys2Proof.Machine.execWrite port s
  | .push port => Sys2Proof.Machine.execPush port s
  | .atomic port => Sys2Proof.Machine.execAtomic port s
  | .bulkRead port => Sys2Proof.Machine.execBulkRead port s
  | .bulkCopy port => Sys2Proof.Machine.execBulkCopy port s
  | .rdS tile => Sys2Proof.Machine.execRdS tile s
  | .rdX tile => Sys2Proof.Machine.execRdX tile s
  | .upg tile => Sys2Proof.Machine.execUpg tile s
  | .wb tile => Sys2Proof.Machine.execWb tile s
  | .wbs tile => Sys2Proof.Machine.execWbs tile s
  | .evs tile => Sys2Proof.Machine.execEvs tile s
  | .rspAck port pkt => Sys2Proof.Machine.execRspAck port pkt s
  | .rspData port pkt => Sys2Proof.Machine.execRspData port pkt s
  | .recallExpire tile => Sys2Proof.Machine.execRecallExpire tile s
  | .snoopSend tile => Sys2Proof.Machine.execSnoopSend tile s
  | .snoopTimeout tile => Sys2Proof.Machine.execSnoopTimeout tile s
  | .domainDown domain => Sys2Proof.Machine.execDomainDown domain s
  | .domainSweep tile lines => Sys2Proof.Machine.execDomainSweep tile lines s
  | .rowPhase rid => Sys2Proof.Machine.execRowPhase rid s
  | .flashSense rid => Sys2Proof.Machine.execFlashSense rid s
  | .sectorTransfer rid => Sys2Proof.Machine.execSectorTransfer rid s
  | .fillWrite rid => Sys2Proof.Machine.execFillWrite rid s
  | .confluence rid => Sys2Proof.Machine.execConfluence rid s
  | .resultSend rid => Sys2Proof.Machine.execResultSend rid s
  | .landing => Sys2Proof.Machine.execLanding s
  | .pushCompletion rid => Sys2Proof.Machine.execPushCompletion rid s
  | .atomicResult rid => Sys2Proof.Machine.execAtomicResult rid s
  | .writeAck rid => Sys2Proof.Machine.execWriteAck rid s
  | .grantSend rid => Sys2Proof.Machine.execGrantSend rid s
  | .bulkWalk rid => Sys2Proof.Machine.execBulkWalk rid s
  | .faultRecordWrite tile => Sys2Proof.Machine.execFaultRecordWrite tile s
  | .groupClose tile => Sys2Proof.Machine.execGroupClose tile s
  | .bulkReadmit rid => Sys2Proof.Machine.execBulkReadmit rid s
  | .bulkChunk rid => Sys2Proof.Machine.execBulkChunk rid s
  | .bulkCompletion rid => Sys2Proof.Machine.execBulkCompletion rid s
  | .lateResultDrop port => Sys2Proof.Machine.execLateResultDrop port s
  | .packetSendSelect port ns => Sys2Proof.Machine.execPacketSendSelect port ns s
  | .backgroundFetchFill parcel group => Sys2Proof.Machine.execBackgroundFetchFill parcel group s
  | .ebbClean tile => Sys2Proof.Machine.execEbbClean tile s
  | .programConfirm tile => Sys2Proof.Machine.execProgramConfirm tile s
  | .programFail die erase => Sys2Proof.Machine.execProgramFail die erase s
  | .sectorRebuild parcel group secondFails => Sys2Proof.Machine.execSectorRebuild parcel group secondFails s
  | .relocate parcel group => Sys2Proof.Machine.execRelocate parcel group s
  | .repairRewrite stack pc => Sys2Proof.Machine.execRepairRewrite stack pc s
  | .dredgeRead stack pc => Sys2Proof.Machine.execDredgeRead stack pc s
  | .patrolRead tile fmc channel bad => Sys2Proof.Machine.execPatrolRead tile fmc channel bad s
  | .lapSlow tile => Sys2Proof.Machine.execLapSlow tile s
  | .calProbe stack pc minusOk plusOk => Sys2Proof.Machine.execCalProbe stack pc minusOk plusOk s
  | .refresh stack => Sys2Proof.Machine.execRefresh stack s
  | .pmbusPoll p => Sys2Proof.Machine.execPmbusPoll p s
  | .pmbAlert status => Sys2Proof.Machine.execPmbAlert status s
  | .capTestStart => Sys2Proof.Machine.execCapTestStart s
  | .capTestDone chargeMilliCoulomb => Sys2Proof.Machine.execCapTestDone chargeMilliCoulomb s
  | .pwrFail => Sys2Proof.Machine.execPwrFail s
  | .discardNoticeSend => Sys2Proof.Machine.execDiscardNoticeSend s
  | .drainBegin => Sys2Proof.Machine.execDrainBegin s
  | .drainEnergyStop => Sys2Proof.Machine.execDrainEnergyStop s
  | .checkpointWrite measuredCj => Sys2Proof.Machine.execCheckpointWrite measuredCj s
  | .pwrFailDeassert => Sys2Proof.Machine.execPwrFailDeassert s
  | .mainPgFall => Sys2Proof.Machine.execMainPgFall s
  | .coldRstN level => Sys2Proof.Machine.execColdRstN level s
  | .auxRstN level strapTest strapAuxclk => Sys2Proof.Machine.execAuxRstN level strapTest strapAuxclk s
  | .coldStart env => Sys2Proof.Machine.execColdStart env s
  | .hostAlive value => Sys2Proof.Machine.execHostAlive value s
  | .hostBootTimeout waitedMs => Sys2Proof.Machine.execHostBootTimeout waitedMs s
  | .hostResetReq => Sys2Proof.Machine.execHostResetReq s
  | .moduleRetrain m lanes => Sys2Proof.Machine.execModuleRetrain m lanes s
  | .moduleDown m => Sys2Proof.Machine.execModuleDown m s
  | .hostRead addr size => Sys2Proof.Machine.execHostRead addr size s
  | .write256 addr data poison => Sys2Proof.Machine.execWrite256 addr data poison s
  | .write64 addr data poison => Sys2Proof.Machine.execWrite64 addr data poison s
  | .hostAccessDeferred m => Sys2Proof.Machine.execHostAccessDeferred m s
  | .vecUnmask v => Sys2Proof.Machine.execVecUnmask v s
  | .registerWrite by' addr size value => Sys2Proof.Machine.execRegisterWrite by' addr size value s
  | .evtForce by' page value => Sys2Proof.Machine.execEvtForce by' page value s
  | .evtStatusClear by' page value => Sys2Proof.Machine.execEvtStatusClear by' page value s
  | .errLogClear by' page value => Sys2Proof.Machine.execErrLogClear by' page value s
  | .computeResetStop => Sys2Proof.Machine.execComputeResetStop s
  | .computeResetAssert => Sys2Proof.Machine.execComputeResetAssert s
  | .firmwareRestart entropy => Sys2Proof.Machine.execFirmwareRestart entropy s
  | .engineCheck failed => Sys2Proof.Machine.execEngineCheck failed s
  | .tileFault block tile inst cycle => Sys2Proof.Machine.execTileFault block tile inst cycle s
  | .thermalSample t => Sys2Proof.Machine.execThermalSample t s
  | .thermalTrip => Sys2Proof.Machine.execThermalTrip s
  | .dataBlock port b ns => Sys2Proof.Machine.execDataBlock port b ns s
  | .idleBlock port b ns => Sys2Proof.Machine.execIdleBlock port b ns s
  | .nak port b ns => Sys2Proof.Machine.execNak port b ns s
  | .blockCrcFail port b uncorrectable => Sys2Proof.Machine.execBlockCrcFail port b uncorrectable s
  | .nakRetry port ns => Sys2Proof.Machine.execNakRetry port ns s
  | .replayTimeout port ns => Sys2Proof.Machine.execReplayTimeout port ns s
  | .linkId port b => Sys2Proof.Machine.execLinkId port b s
  | .rttProbe port b => Sys2Proof.Machine.execRttProbe port b s
  | .rttReply port b ns => Sys2Proof.Machine.execRttReply port b ns s
  | .initDone port b => Sys2Proof.Machine.execInitDone port b s
  | .retrainReq port b => Sys2Proof.Machine.execRetrainReq port b s
  | .follow port b => Sys2Proof.Machine.execFollow port b s
  | .trainDone port mine peer => Sys2Proof.Machine.execTrainDone port mine peer s
  | .trainTimeout port elapsedUs => Sys2Proof.Machine.execTrainTimeout port elapsedUs s
  | .laneErr port lane => Sys2Proof.Machine.execLaneErr port lane s
  | .lockLost port => Sys2Proof.Machine.execLockLost port s
  | .probationEnd port => Sys2Proof.Machine.execProbationEnd port s
  | .trainRetry port => Sys2Proof.Machine.execTrainRetry port s
  | .getState reqId => Sys2Proof.Machine.execGetState reqId s
  | .assign reqId body => Sys2Proof.Machine.execAssign reqId body s
  | .assignDone => Sys2Proof.Machine.execAssignDone s
  | .release reqId => Sys2Proof.Machine.execRelease reqId s
  | .releaseStop => Sys2Proof.Machine.execReleaseStop s
  | .purgeBegin => Sys2Proof.Machine.execPurgeBegin s
  | .purgeDone => Sys2Proof.Machine.execPurgeDone s
  | .clear reqId => Sys2Proof.Machine.execClear reqId s
  | .licenceInstall reqId l => Sys2Proof.Machine.execLicenceInstall reqId l s
  | .licenceRemove reqId seq => Sys2Proof.Machine.execLicenceRemove reqId seq s
  | .imageStage reqId img => Sys2Proof.Machine.execImageStage reqId img s
  | .imageTrial reqId left => Sys2Proof.Machine.execImageTrial reqId left s
  | .recordInstall reqId r => Sys2Proof.Machine.execRecordInstall reqId r s
  | .configWrite reqId c => Sys2Proof.Machine.execConfigWrite reqId c s
  | .mgtResetCompute reqId => Sys2Proof.Machine.execMgtResetCompute reqId s
  | .warmStart reqId env => Sys2Proof.Machine.execWarmStart reqId env s
  | .coldRestart reqId => Sys2Proof.Machine.execColdRestart reqId s
  | .anchorAdd reqId cert => Sys2Proof.Machine.execAnchorAdd reqId cert s
  | .anchorRemove reqId digest => Sys2Proof.Machine.execAnchorRemove reqId digest s
  | .telemetryRead reqId block inst => Sys2Proof.Machine.execTelemetryRead reqId block inst s
  | .tlsHandshake anchor notAfterNs suiteOk => Sys2Proof.Machine.execTlsHandshake anchor notAfterNs suiteOk s
  | .getVersion reqId => Sys2Proof.Machine.execGetVersion reqId s
  | .getCapabilities reqId => Sys2Proof.Machine.execGetCapabilities reqId s
  | .negotiateAlgorithms reqId => Sys2Proof.Machine.execNegotiateAlgorithms reqId s
  | .getDigests reqId => Sys2Proof.Machine.execGetDigests reqId s
  | .getCertificate reqId slot => Sys2Proof.Machine.execGetCertificate reqId slot s
  | .challenge reqId slot nonce => Sys2Proof.Machine.execChallenge reqId slot nonce s
  | .getMeasurements reqId index nonce => Sys2Proof.Machine.execGetMeasurements reqId index nonce s
  | .spdmUnsupported reqId code => Sys2Proof.Machine.execSpdmUnsupported reqId code s
  | .moduleRetrainDone m => Sys2Proof.Machine.execModuleRetrainDone m s
  | .mgtPortLink up tenG => Sys2Proof.Machine.execMgtPortLink up tenG s
  | .undefinedBlock port b => Sys2Proof.Machine.execUndefinedBlock port b s

end Sys2Proof.Machine
end

