-- ==== Sys2Proof/Machine/Step.lean ====
section
/-! DEFINITION. The step: take the command at the front of the queue and run it; idle on an empty queue. -/

namespace Sys2Proof.Machine

/-- One step: the command at the front of the queue, run with the queue's rest; on an empty queue the block idles (log 8). -/
def step (s : State) : Host.Outcome State Fault Refusal :=
  match s.pending with
  | [] => .next s
  | c :: rest => exec c { s with pending := rest }

/-- `s` with the command that a table word spells put at the front of its queue; no row of the table has bits, so no word
spells a command and `s` is unchanged. -/
def State.withFetchWord (s : State) (nbits w : Nat) : State :=
  match decodeTableWord nbits w with
  | some c => { s with pending := c :: s.pending }
  | none => s

end Sys2Proof.Machine
end

