-- ==== Sys2Proof/WellFormed.lean ====
section
/-! DEFINITION. Well-formed commands: operands that the interface of the block can carry. Every check names the rule that bounds it;
the other operands have types that hold no more values than the interface does. -/

namespace Sys2Proof

/-- A link block of a type: 248 body bytes and no poison or SOP outside a DATA block (R327, R328). -/
def Block.wfAs (b : Block) (type : BitVec 4) : Bool :=
  decide (b.body.length = 248 ∧ b.type = type) && (decide (type = 1) || (decide (b.poison = 0 ∧ b.vc = 0) && !b.sop))

/-- CMSG of a CTRL block (R347). -/
def Block.cmsgByte (b : Block) : Byte := b.body.headD 0

/-- A CTRL block with a message code. -/
def Block.wfCtl (b : Block) (code : Byte) : Bool := b.wfAs 3 && decide (b.cmsgByte = code)

/-- A block of an undefined type or with an undefined message (R328, R347). -/
def Block.wfUndefined (b : Block) : Bool :=
  decide (b.body.length = 248) &&
    (decide (4 ≤ b.type.toNat) || (decide (b.type = 3) && !([0x01, 0x02, 0x03, 0x04, 0x10, 0x11].contains b.cmsgByte)))

/-- A log record: at most five arguments and a severity of 0 to 5 (R394, R395). -/
def LogRec.wf (r : LogRec) : Bool := decide (r.args.length ≤ 5 ∧ r.severity.toNat ≤ 5)

/-- The surroundings at a boundary: upsets of lines that the 24 stacks hold (R38, R250). -/
def TickEnv.wf (e : TickEnv) : Bool := e.upsets.all fun u => decide (u.line < 24 * 2 ^ 28)

/-- One sample of every sensor (R495). -/
def Sensors.wf (x : Sensors) : Bool := decide (x.tile.length = 4 ∧ x.hbm.length = 24 ∧ x.flash.length = 16)

/-- What a start finds: a temperature of every stack (R414). -/
def StartEnv.wf (e : StartEnv) : Bool := decide (e.stackTempC.length = 24)

/-- A command that the interface can carry. -/
def Instr.wf : Instr → Bool
  | .logRecord r => r.wf
  | .tickBoundary env => env.wf
  | .thermalSample t => t.wf
  | .coldStart env => env.wf
  | .warmStart _ env => env.wf
  | .write256 _ data _ => decide (data.length = 256)
  | .write64 _ data _ => decide (data.length = 64)
  | .dataBlock _ b _ => b.wfAs 1
  | .idleBlock _ b _ => b.wfAs 0
  | .nak _ b _ => b.wfAs 2
  | .blockCrcFail _ b _ => decide (b.body.length = 248)
  | .linkId _ b => b.wfCtl 0x01
  | .rttProbe _ b => b.wfCtl 0x02
  | .rttReply _ b _ => b.wfCtl 0x03
  | .initDone _ b => b.wfCtl 0x04
  | .retrainReq _ b => b.wfCtl 0x10
  | .follow _ b => b.wfCtl 0x11
  | .undefinedBlock _ b => b.wfUndefined
  | .backgroundFetchFill parcel _ => decide (parcel < 2 ^ 25)
  | .sectorRebuild parcel _ _ => decide (parcel < 2 ^ 25)
  | .relocate parcel _ => decide (parcel < 2 ^ 25)
  | .hostRead _ size => decide (1 ≤ size ∧ size ≤ 256)
  | .nop _ | .ctxBind _ | .ctxUnbind _ | .extCreate _ | .extResize _ | .extPin _ | .extUnpin _ | .extRevoke _ | .extDestroy _
  | .extUpdateSet _ | .domCreate _ | .domForm _ | .domStop _ | .domDestroy _ | .tableInvalidate _ | .prgCheck _ | .tickSet _
  | .policySet _ | .lnkCmdTrain _ | .lnkCmdRetrain _ | .lnkCmdReset _ | .lnkCmdDisable _ | .lnkCmdEnable _ | .xltInvalidate _
  | .xltResume _ | .xltAbort _ | .hostBulk _ | .tierFlush _ | .admitResume _ | .computeReset _ | .devQuery _ | .extQuery _
  | .parcelQuery _ | .commandTake | .heldCompletionPost _ | .eventPost _ | .heldEventPost | .traceRecord _ _ _ _ _
  | .ringVectorSignal _ | .cmdHeadWrite _ _ | .ringTailWrite _ _ | .ringEnable _ _ | .ringBaseWrite _ _ | .epochPolicy
  | .watchdogReset _ | .taskReassign | .tableSwitchReq _ _ _ _ | .tableBaseWrite _ _ _ _ _ | .tableSwitch _ | .oldFreeSet _
  | .sluicePortSwitch _ | .invalidateEffect | .xltInvEffect | .policySetEffect | .extentDrained _ | .pinDone _ | .repin
  | .tickPeriodApply | .demandReport | .shareMessage _ | .ebbBook _ | .packetArrival _ _ _ | .transitForward _ _
  | .filterHeldRetry _ _ | .routeMissFill _ _ | .echo _ _ | .timeBeacon _ _ _ | .beaconSend | .ppsEdge _ | .holdover
  | .timeLockWaitEnd _ | .batch _ _ | .assemblyTimeout _ | .lookupBatch _ | .read _ | .write _ | .push _ | .atomic _ | .bulkRead _
  | .bulkCopy _ | .rdS _ | .rdX _ | .upg _ | .wb _ | .wbs _ | .evs _ | .rspAck _ _ | .rspData _ _ | .recallExpire _ | .snoopSend _
  | .snoopTimeout _ | .domainDown _ | .domainSweep _ _ | .rowPhase _ | .flashSense _ | .sectorTransfer _ | .fillWrite _
  | .confluence _ | .resultSend _ | .landing | .pushCompletion _ | .atomicResult _ | .writeAck _ | .grantSend _ | .bulkWalk _
  | .faultRecordWrite _ | .groupClose _ | .bulkReadmit _ | .bulkChunk _ | .bulkCompletion _ | .lateResultDrop _
  | .packetSendSelect _ _ | .ebbClean _ | .programConfirm _ | .programFail _ _ | .repairRewrite _ _ | .dredgeRead _ _ | .lapSlow _
  | .calProbe _ _ _ _ | .refresh _ | .pmbusPoll _ | .pmbAlert _ | .capTestStart | .capTestDone _ | .pwrFail | .discardNoticeSend
  | .drainBegin | .drainEnergyStop | .checkpointWrite _ | .patrolRead _ _ _ _ | .pwrFailDeassert | .mainPgFall | .coldRstN _ | .auxRstN _ _ _
  | .hostAlive _ | .hostBootTimeout _ | .hostResetReq | .moduleRetrain _ _ | .moduleDown _ | .hostAccessDeferred _
  | .vecUnmask _ | .registerWrite _ _ _ _ | .evtForce _ _ _ | .evtStatusClear _ _ _ | .errLogClear _ _ _ | .computeResetStop
  | .computeResetAssert | .firmwareRestart _ | .engineCheck _ | .tileFault _ _ _ _ | .thermalTrip | .nakRetry _ _
  | .replayTimeout _ _ | .trainDone _ _ _ | .trainTimeout _ _ | .laneErr _ _ | .lockLost _ | .probationEnd _ | .trainRetry _
  | .getState _ | .assign _ _ | .assignDone | .release _ | .releaseStop | .purgeBegin | .purgeDone | .clear _
  | .licenceInstall _ _ | .licenceRemove _ _ | .imageStage _ _ | .imageTrial _ _ | .recordInstall _ _ | .configWrite _ _
  | .mgtResetCompute _ | .coldRestart _ | .anchorAdd _ _ | .anchorRemove _ _ | .telemetryRead _ _ _ | .tlsHandshake _ _ _
  | .getVersion _ | .getCapabilities _ | .negotiateAlgorithms _ | .getDigests _ | .getCertificate _ _ | .challenge _ _ _
  | .getMeasurements _ _ _ | .spdmUnsupported _ _ | .moduleRetrainDone _ | .mgtPortLink _ _ => true

end Sys2Proof
end

