-- ==== Sys2Proof/Safety.lean ====
section
/-! DEFINITION. What claims about the block are stated in: completion of a command, what a command may change, the canonical form of
stored data, and the conditions under which a ring command runs. -/

namespace Sys2Proof.Machine

/-- The command runs to its end from `s`, and what it leaves satisfies `P`. -/
def Completes (c : Instr) (s : State) (P : State → Prop) : Prop := ∃ t, exec c s = .next t ∧ P t

/-- HBM bytes are listed in canonical form: addresses strictly rising, no byte listed that holds what an unlisted one reads as. -/
def Memory.wf (m : List Host.Cell) : Bool := SMap.wf cellDefault m

/-- Bytes and line metadata of HBM are in canonical form. -/
def State.memoryOk (s : State) : Bool := Memory.wf s.hbm && SMap.wf (fun _ => ({} : LineMeta)) s.lmeta

/-- The state as a ring command finds it once firmware has taken it: CMDS_TAKEN has counted it. -/
def State.taken (s : State) : State := s.bump .fwc 0 0x100

/-- Firmware takes the ring command now and it passes the checks that every command takes (R384, R385, R446): a variant is licensed, the
entry is well formed, the variant has the feature, no earlier command holds the object, and the tenant is active where the command needs one. -/
def State.admitsCommand (s : State) (op : Nat) (wf feature : Bool) (obj : Obj) (tenant : Bool) : Prop :=
  s.serves op = true ∧ s.variant ≠ 0 ∧ wf = true ∧ feature = true ∧ (obj = .none ∨ s.busyTick obj = none) ∧ (tenant = true → s.tenantActive = true)

/-- The parts of the state, for what a command leaves alone. -/
inductive Part where
  | regs | selBank | hbm | lmeta | tim | tier | rsv | hmc | adm | xlt | coh | fab | fw | boot | island | pins | creset | tileFaults
  | opened | prng | hostWait | hostUse | hostReset | signalled | out | fresh | pending
deriving DecidableEq, Repr

/-- The two states agree in a part. -/
def State.same (s t : State) : Part → Prop
  | .regs => t.regs = s.regs
  | .selBank => t.selBank = s.selBank
  | .hbm => t.hbm = s.hbm
  | .lmeta => t.lmeta = s.lmeta
  | .tim => t.tim = s.tim
  | .tier => t.tier = s.tier
  | .rsv => t.rsv = s.rsv
  | .hmc => t.hmc = s.hmc
  | .adm => t.adm = s.adm
  | .xlt => t.xlt = s.xlt
  | .coh => t.coh = s.coh
  | .fab => t.fab = s.fab
  | .fw => t.fw = s.fw
  | .boot => t.boot = s.boot
  | .island => t.island = s.island
  | .pins => t.pins = s.pins
  | .creset => t.creset = s.creset
  | .tileFaults => t.tileFaults = s.tileFaults
  | .opened => t.opened = s.opened
  | .prng => t.prng = s.prng
  | .hostWait => t.hostWait = s.hostWait
  | .hostUse => t.hostUse = s.hostUse
  | .hostReset => t.hostReset = s.hostReset
  | .signalled => t.signalled = s.signalled
  | .out => t.out = s.out
  | .fresh => t.fresh = s.fresh
  | .pending => t.pending = s.pending

/-- Nothing but the listed parts separates the two states. -/
def State.changes (s : State) (ps : List Part) (t : State) : Prop := ∀ p, p ∉ ps → s.same t p

/-- The parts that writing a line touches: its bytes and metadata, counters, a failed merge read's capture and signal, a queued rewrite
that it cancels, and firmware's own copy of the line. -/
def lineParts : List Part := [.regs, .hbm, .lmeta, .hmc, .fresh, .fw]

/-- The parts that posting a completion touches: ring memory and registers, firmware's queues and the signals of it. -/
def postParts : List Part := .out :: lineParts

/-- The parts that raising an event touches: those of a post, and the pages that have signalled in this tick. -/
def raiseParts : List Part := .signalled :: postParts

/-- Every register but those at the listed offsets is as before. -/
def State.regsBut (os : List Nat) (s t : State) : Prop := ∀ o, o ∉ os → t.reg o = s.reg o

/-- A journal entry of a command. -/
def journalOf (s : State) (op : Nat) (e : Entry) (obj : Obj) (wait : Wait) (r1 : Word) : Journal :=
  { ring := e.ring.val, tag := e.tag, opcode := BitVec.ofNat 8 op, taken := s.tick, obj := obj, wait := wait,
    result0 := BitVec.ofNat 64 s.tick, result1 := r1 }

/-- A command is put in the journals and completes later: its entry is added, nothing is held. -/
def State.journals (s : State) (j : Journal) (t : State) : Prop := t.fw.journal = s.fw.journal ++ [j] ∧ t.fw.held = s.fw.held

/-- A switch of the table is requested for tick `S`; its active bank is as before. -/
def State.switchAsked (s : State) (tb : Table) (S : Nat) (t : State) : Prop :=
  t.switchPending tb = true ∧ t.fld (tb.group + 0x18) 63 16 = S ∧ t.activeBank tb = s.activeBank tb

/-- Address of the entry that a ring's HEAD points to. -/
def State.slot (s : State) (r : RingId) : Nat := s.fld r.base 51 12 * 4096 + s.fld r.head 16 0 % s.ringN r * (8 * r.words)

/-- PHASE of that entry. -/
def State.phase (s : State) (r : RingId) : Word := place 0 0 (b2n (decide (s.fld r.head 16 0 < s.ringN r)))

/-- The words stand in the ring's slot, and HEAD has moved on by one modulo 2N. -/
def State.wrote (s : State) (r : RingId) (ws : List Word) (t : State) : Prop :=
  t.readWords (s.slot r) r.words = ws ∧ t.fld r.head 16 0 = (s.fld r.head 16 0 + 1) % (2 * s.ringN r)

/-- The ring commands with their opcodes, as instructions of an entry. -/
def ringRows : List (Nat × (Entry → Instr)) :=
  [(0x00, .nop), (0x10, .ctxBind), (0x11, .ctxUnbind), (0x20, .extCreate), (0x21, .extResize), (0x22, .extPin), (0x23, .extUnpin),
   (0x24, .extRevoke), (0x25, .extDestroy), (0x26, .extUpdateSet), (0x30, .domCreate), (0x31, .domForm), (0x32, .domStop),
   (0x33, .domDestroy), (0x40, .tableInvalidate), (0x41, .prgCheck), (0x42, .tickSet), (0x43, .policySet), (0x44, .lnkCmdTrain),
   (0x44, .lnkCmdRetrain), (0x44, .lnkCmdReset), (0x44, .lnkCmdDisable), (0x44, .lnkCmdEnable), (0x45, fun e => .xltInvalidate (.ring e)),
   (0x46, fun e => .xltResume (.ring e)), (0x46, fun e => .xltAbort (.ring e)), (0x50, .hostBulk), (0x60, .tierFlush),
   (0x61, .admitResume), (0x62, .computeReset), (0x70, .devQuery), (0x71, .extQuery), (0x72, .parcelQuery)]

/-- TABLES runs, and the table has no switch pending, its old bank is free and no change of it waits: a change of it can be requested at
once. -/
def State.tableFree (s : State) (t : Table) : Prop :=
  s.taskDown 1 = false ∧ s.switchPending t = false ∧ s.oldFree t = true ∧ (s.fw.deferred.any fun x => decide (x.table = t)) = false

/-- Every byte of [a, a + n) lies in the host or the control region. -/
def State.placed (s : State) (a n : Nat) : Prop := ∀ i < n, s.regionPhys (a + i) ≠ none

/-- No byte of [a, a + n) shares its place in HBM with a byte of [b, b + m). -/
def State.apart (s : State) (a n b m : Nat) : Prop := ∀ i < n, ∀ j < m, s.regionPhys (a + i) ≠ s.regionPhys (b + j)

/-- Both banks' entries of a table lie in the control or host region, apart from one another. -/
def State.entryPlaced (s : State) (t : Table) (i : Nat) : Prop :=
  s.placed (s.entryAddr t false i) t.size ∧ s.placed (s.entryAddr t true i) t.size ∧
    s.apart (s.entryAddr t false i) t.size (s.entryAddr t true i) t.size

/-- The slot of a ring lies in the control or host region, apart from the shadow block. -/
def State.slotPlaced (s : State) (r : RingId) : Prop :=
  s.placed (s.slot r) (8 * r.words) ∧ s.apart (s.slot r) (8 * r.words) (s.fld 0x8220 51 12 * 4096) 4096

/-- The row that a taken entry is, by its opcode and, for LNK_CMD and XLT_RESUME, its action. -/
def rowOf (op : Nat) (e : Entry) : Option Instr :=
  if op = 0x44 then
    match bits e.w1 10 8 with
    | 0 => some (.lnkCmdTrain e)
    | 1 => some (.lnkCmdRetrain e)
    | 2 => some (.lnkCmdReset e)
    | 3 => some (.lnkCmdDisable e)
    | 4 => some (.lnkCmdEnable e)
    | _ => none
  else if op = 0x46 then some (if bit e.w1 16 then .xltAbort (.ring e) else .xltResume (.ring e))
  else (ringRows.find? fun p => decide (p.1 = op)).map fun p => p.2 e

/-- Command ring `i` once the command at its TAIL is taken: TAIL and its copy have moved, and the command counts in its tick. -/
def State.tailMoved (s : State) (i : Fin 4) : State :=
  let t := (s.fld (cmdTail i) 16 0 + 1) % (2 * s.cmdN i)
  let s := s.useFwSlots (s.fld (0x9200 + 0x40 * i.val) 51 12 * 4096 + s.fld (cmdTail i) 16 0 % s.cmdN i * 64) 64
  let s := (s.setReg (cmdTail i) (place 16 0 t)).shadow (0x20 * i + 8) t
  { s with fw := { s.fw with cmdUsed := s.fw.cmdUsed + 1 } }

/-! ### Requests -/

/-- The fabric requests of a port: opcode, row and step 1. -/
def fabricRows (p : Fin 32) : List (Nat × Instr × (State → Queued → Decided)) :=
  [(1, .read p, fun s q => s.decideRead p q), (2, .write p, fun s q => s.decideWrite p q), (3, .lookupBatch p, fun s q => s.decideBatch p q),
   (4, .push p, fun s q => s.decidePush p q), (5, .atomic p, fun s q => s.decideAtomic p q),
   (6, .bulkRead p, fun s q => s.decideBulk p false q), (7, .bulkCopy p, fun s q => s.decideBulk p true q)]

/-- The coherence requests of a home tile: message, row and decision (R285). -/
def cohRows (t : Fin 4) : List (Nat × Instr × (Word → Nat → Bool → List Nat → CohAct)) :=
  [(0, .rdS t, fun w m full _ => cohRdS w m full), (1, .rdX t, cohRdX), (2, .upg t, cohUpg), (3, .wb t, fun w m _ _ => cohWb w m false),
   (4, .wbs t, fun w m _ _ => cohWb w m true), (5, .evs t, fun w m _ _ => cohEvs w m)]

/-- A request is bound to its packet, to the tick of its admission, to the banks and the epoch of that tick, and to its PCT (R31, R71). -/
def State.boundTo (s : State) (k : Packet) (p : Nat) (r : Req) : Prop :=
  r.rid = s.adm.nextRid ∧ r.ctx = k.ctxid ∧ r.src = k.src ∧ r.tag = k.tag ∧ r.port = some p ∧ r.admitTick = s.tick ∧ r.banks = s.banks ∧
    r.epoch = BitVec.ofNat 32 (s.fld 0x5200 63 32) ∧ (r.cls ≠ .bulk → r.pct = tadd s.tick r.cls.pct)

/-- A request is admitted: it joins the outstanding ones, every charge of its map is reserved under its number, and no reservation is
lost (R81). -/
def State.took (s : State) (a : Ask) (k : Packet) (p : Nat) (t : State) : Prop :=
  let r := a.req s.adm.nextRid
  s.boundTo k p r ∧ t.adm.nextRid = s.adm.nextRid + 1 ∧ t.adm.reqs = s.adm.reqs ++ [r] ∧ (∀ c ∈ s.adm.claims, c ∈ t.adm.claims) ∧
    ∀ n ∈ mergeNeeds [] a.d.needs, ∃ c ∈ t.adm.claims, c.rid = r.rid ∧ c.res = n.res ∧ c.use' = n.use' ∧ c.units = n.units ∧ c.made = s.tick

/-- One reply packet joins the queue of a port. -/
def State.replies (s : State) (p : Nat) (pkt : Packet) (t : State) : Prop :=
  ∃ e, (t.sched p).queue = (s.sched p).queue ++ [e] ∧ e.pkt = pkt ∧ e.cls = .reply

/-- The response packets of a request join its egress queue, in SEQ order, FINAL on the last (R133, R305); nothing else changes. -/
def State.sends (s : State) (r : Req) (op status : Nat) (parts : List (List Byte × List Bool)) (t : State) : Prop :=
  s.changes [.fab] t ∧ ∃ p es, r.egress = some p ∧ (t.sched p).queue = (s.sched p).queue ++ es ∧
    es.map (fun e => (e.pkt.opcode, e.pkt.dst, e.pkt.tag, e.pkt.payload, e.pkt.osf, e.rid, e.last, e.use')) =
      parts.zipIdx.map (fun x => (BitVec.ofNat 8 op, r.src, r.tag, x.1.1, respField status r.admitTick x.2 (decide (x.2 + 1 = parts.length)),
        some r.rid, decide (x.2 + 1 = parts.length), s.tick))

/-- A transit packet has gone to port `p` (R314, R315): it is the last of that port's queue, on its link VC, and out of its buffer. -/
def State.forwarded (s : State) (x : TransitPkt) (bank : Bool) (p : Nat) (t : State) : Prop :=
  t.fab.transit.length + 1 = s.fab.transit.length ∧
    ∃ e, (t.sched p).queue = (s.sched p).queue ++ [e] ∧ e.pkt = x.pkt ∧ e.cls = .transit ∧
      e.linkVc = s.transitVc (s.rtt bank x.pkt.dst.toNat) x.vc p

/-- A route is at hand for a transit packet: its entry of a bank is valid, the filter of a bank lets the packet pass, and some candidate is
usable. -/
def State.routed (s : State) (x : TransitPkt) (bank tft : Bool) : Prop :=
  let r := s.rtt bank x.pkt.dst.toNat
  r.valid = true ∧ (r.filter = false ∨ s.filterPass x.pkt tft = true) ∧ s.usable r (some x.port) ≠ []

/-- A packet for this device, whole and undamaged, finds its port in UP and nothing that makes it wait on link VC 0 (R309). -/
def State.takes (s : State) (p : Nat) (k : Packet) : Prop :=
  s.linkState p = 4 ∧ s.portsStopped = false ∧ s.mustWait p 0 k = false ∧ k.lenOk = true ∧ k.crcOk = true

end Sys2Proof.Machine
end

