-- ==== Sys2Proof/Certificates/Slice0/Obligations.lean ====
section
/-! DEFINITION. The statements for the provers. -/

open Sys2Proof Sys2Proof.Machine

/-! ### The queue -/

/-- A step takes the command at the front of the queue and is that command's effect on the state with the queue's rest. -/
def Obligations.StepRunsTheFrontCommand : Prop :=
  ∀ (c : Instr) (s : State) (rest : List Instr), s.pending = c :: rest → step s = exec c { s with pending := rest }

/-- No command's effect reaches the queue: what is left of it after a step is what stood behind the command that ran, in its order. -/
def Obligations.CommandsLeaveTheQueue : Prop :=
  (∀ (c : Instr) (s t : State), exec c s = .next t → t.pending = s.pending) ∧
  ∀ (c : Instr) (s t : State) (rest : List Instr), s.pending = c :: rest → step s = .next t → t.pending = rest

/-- Every well-formed command runs to its end in every state: none is refused and none faults. -/
def Obligations.WellFormedCommandsComplete : Prop :=
  ∀ (c : Instr) (s : State), c.wf = true → ∃ t, exec c s = .next t

/-! ### What every ring command does first (R384, R385, R446) -/

/-- A ring command that firmware does not take now waits, and changes nothing else. One that it takes: without a variant licence every
command but NOP and the queries ends with ACCESS; with one, an entry with a nonzero bit in word 7, which no command uses, ends with
BAD_FORMAT, HOST_BULK apart. Either way the completion is all that happens (R384).
CTX_UNBIND, EXT_PIN, EXT_REVOKE, EXT_DESTROY, DOM_STOP, DOM_DESTROY and LNK_CMD, well formed, on an object that an earlier command still
holds are refused with that command's tick of effect as their retry-after tick, and change nothing else (R385). Model's readings here:
logs 9, 131. -/
def Obligations.CommonChecksRefuseCommands : Prop :=
  (∀ p ∈ ringRows, ∀ (e : Entry) (s : State),
    (s.serves p.1 = false → Completes (p.2 e) s fun t => t.fw.waiting.length = s.fw.waiting.length + 1 ∧ s.changes [.fw] t) ∧
    (s.serves p.1 = true → s.variant = 0 → p.1 ≠ 0 → isQuery p.1 = false → exec (p.2 e) s = .next (s.taken.endNow p.1 e stAccess)) ∧
    (s.serves p.1 = true → s.variant ≠ 0 → e.w7 ≠ 0 → p.1 ≠ 0x50 → exec (p.2 e) s = .next (s.taken.endNow p.1 e stBadFormat))) ∧
  (∀ (e : Entry) (s : State) (t : Nat), s.variant ≠ 0 →
    let no := fun (op : Nat) (c : Instr) => s.serves op = true → exec c s = .next ({ s.taken with fresh := s.fresh + 1 }.refuse op e t)
    (s.busyTick (.ctx e.arg.toNat) = some t → e.rsvOk 0xFFFF 0 0 0 0 0 0 0 = true → no 0x11 (.ctxUnbind e)) ∧
    (s.busyTick (.ext e.ext) = some t → e.onlyExt = true → no 0x22 (.extPin e) ∧ no 0x24 (.extRevoke e) ∧ no 0x25 (.extDestroy e)) ∧
    (s.busyTick (.dom (bits e.w1 11 0)) = some t → s.hasCoh = true → e.rsvOk 0 (mask 11 0) 0 0 0 0 0 0 = true →
      no 0x32 (.domStop e) ∧ no 0x33 (.domDestroy e)) ∧
    (s.busyTick (.port (bits e.w1 4 0)) = some t → e.rsvOk 0 (mask 4 0 ||| mask 10 8 ||| mask 23 16) 0 0 0 0 0 0 = true →
      no 0x44 (.lnkCmdTrain e) ∧ no 0x44 (.lnkCmdRetrain e) ∧ no 0x44 (.lnkCmdReset e) ∧ no 0x44 (.lnkCmdDisable e) ∧
      no 0x44 (.lnkCmdEnable e)))

/-! ### Ring commands that run (R386 to R391) -/

/-- R386, R388, R391: NOP and the queries end OK in the tick in which they are taken, PRG_CHECK with OK or BAD_PROGRAM as R120 says of
the entry; a query first writes its eight words to its buffer. DEV_QUERY's words tell the licence, the tenant, the tick and the period.
Commands that complete here: NOP, PRG_CHECK, DEV_QUERY, EXT_QUERY, PARCEL_QUERY. -/
def Obligations.NopAndQueriesEndInTheirTick : Prop :=
  ∀ (e : Entry) (s : State),
    (s.serves 0x00 = true → e.bare = true → exec (.nop e) s = .next (s.taken.endNow 0x00 e stOk)) ∧
    (s.admitsCommand 0x41 (e.rsvOk 0 (mask 10 0) 0 0 0 0 0 0) true .none false →
      exec (.prgCheck e) s = .next (s.taken.endCmd 0x41 e
        (if progOk (s.entryMem .prgt (bit e.w1 10) (bits e.w1 9 0)) then stOk else stBadProgram)
        (progWord0 (s.entryMem .prgt (bit e.w1 10) (bits e.w1 9 0))))) ∧
    (s.serves 0x70 = true → e.rsvOk 0 (mask 51 6) 0 0 0 0 0 0 = true → s.hostBuf (bits e.w1 51 6 * 64) 64 = true →
      ∃ ws : List Word, ws.length = 8 ∧ exec (.devQuery e) s = .next ((s.taken.writeWords (bits e.w1 51 6 * 64) ws).endNow 0x70 e stOk) ∧
        bits (ws.getD 0 0) 1 0 = s.variant ∧ bit (ws.getD 0 0) 2 = s.hasFlash ∧ bit (ws.getD 0 0) 3 = s.hasCoh ∧
        bit (ws.getD 0 0) 4 = s.hasAssured ∧ bits (ws.getD 0 0) 7 5 = s.fld 0x5200 2 0 ∧ bits (ws.getD 0 0) 63 32 = s.fld 0x1208 31 0 ∧
        bits (ws.getD 1 0) 31 0 = s.fld 0x5200 63 32 ∧ bits (ws.getD 2 0) 47 0 = s.tick % 2 ^ 48 ∧
        bits (ws.getD 2 0) 53 48 = s.tim.periodQ % 64 ∧ ws.getD 3 0 = s.reg 0x8200) ∧
    (s.serves 0x71 = true → e.rsvOk 0 (mask 17 0) (mask 51 6) 0 0 0 0 0 = true → s.hostBuf (bits e.w2 51 6 * 64) 64 = true →
      ∃ ws : List Word, ws.length = 8 ∧ exec (.extQuery e) s = .next ((s.taken.writeWords (bits e.w2 51 6 * 64) ws).endNow 0x71 e stOk) ∧
        bit (ws.getD 0 0) 0 = (s.exttNow e.ext).valid ∧ bit (ws.getD 0 0) 3 = (s.exttNow e.ext).pinned ∧
        bit (ws.getD 0 0) 6 = (s.drainOf e.ext).isSome ∧ ws.getD 3 0 = BitVec.ofNat 64 (s.extResident e.ext)) ∧
    (s.serves 0x72 = true → e.rsvOk 0 (mask 24 0) (mask 51 6) 0 0 0 0 0 = true → s.hostBuf (bits e.w2 51 6 * 64) 64 = true →
      ∃ ws : List Word, ws.length = 8 ∧
        exec (.parcelQuery e) s = .next ((s.taken.writeWords (bits e.w2 51 6 * 64) ws).endNow 0x72 e stOk) ∧
        bit (ws.getD 1 0) 31 = (s.pftOf (bits e.w1 24 0)).has ∧
        ((s.pftOf (bits e.w1 24 0)).has = false → (ws.drop 2) = List.replicate 6 0))

/-- R389, R377, R378: while the completion ring has room and holds nothing back, a command's ending is the entry at its HEAD, PHASE 1 while
HEAD is below N: the four words read back from the slot, and HEAD moves on by one modulo 2N. -/
def Obligations.CompletionsAreWrittenAtHead : Prop :=
  ∀ (s : State) (op : Nat) (e : Entry) (status : Nat) (r1 : Word),
    let r : RingId := .cpl e.ring
    let n := s.ringN r
    let h := s.fld r.head 16 0
    let slot := s.fld r.base 51 12 * 4096 + h % n * 32
    let area := s.fld 0x8220 51 12 * 4096
    s.cplRoom e.ring = true → (s.fw.held.any fun x => decide (x.1 = e.ring.val)) = false →
    s.placed slot 32 → s.apart slot 32 area 4096 →
    let t := s.endCmd op e status r1
    t.readWords slot 4 =
      [place 0 0 (if h < n then 1 else 0) ||| place 15 8 (status % 256) ||| place 23 16 (op % 256) ||| place 63 32 e.tag.toNat,
       place 47 0 s.tick, BitVec.ofNat 64 s.tick, r1] ∧
    t.fld r.head 16 0 = (h + 1) % (2 * n) ∧ s.changes postParts t

/-- R390: a completion that finds its ring full is held behind those already held, and posted when the ring has room again.
HELD_COMPLETION_POST (R390): with room for it, the first completion held for a ring is posted; the others of the ring stay in order when
there is room for no more.
Commands that complete here: HELD_COMPLETION_POST. -/
def Obligations.FullCompletionRingsHoldInOrder : Prop :=
  (∀ (s : State) (i : Fin 4) (c : Cpl), c.accepted = false → s.ringFull (.cpl i) = true →
    (∀ h ∈ s.fw.held, h.1 = i.val → h.2.accepted = true → ¬(h.2.tag = c.tag ∧ h.2.opcode = c.opcode)) →
    (s.postCpl i c).fw.held = s.fw.held ++ [(i.val, c)] ∧ (s.postCpl i c).hbm = s.hbm ∧
    exec (.heldCompletionPost i) (s.postCpl i c) = .next (s.postCpl i c)) ∧
  (∀ (s : State) (i : Fin 4) (c : Cpl) (rest : List (Nat × Cpl)), s.fw.held = (i.val, c) :: rest →
    s.cplRoom i = true → (({ s with fw := { s.fw with held := rest } }.putCpl i c).cplRoom i = false ∨ rest = []) →
    exec (.heldCompletionPost i) s = .next ({ s with fw := { s.fw with held := rest } }.putCpl i c))

/-! ### Contexts and tables (R32 to R36, R54, R55) -/

/-- R55: CTX_BIND and CTX_UNBIND on a table that can be switched request the switch at I + 2, leave the active bank as it is, and complete
in that tick: the journal holds them with S as RESULT1.
R54, R353: CTX_BIND ends with ACCESS for a fabric context with translation, XLT_MODE 3, HOSTVA without translation, CTXID 0 with HOST = 0
or SERVICE 7, and with EXTENT_INVALID when the list breaks R60; the table is not touched. Model's readings here: logs 10, 50.
Commands that complete here: CTX_BIND, CTX_UNBIND. -/
def Obligations.ContextsChangeBySwitch : Prop :=
  (∀ (e : Entry) (s : State),
    let S := s.effectTick
    let asked := fun (op : Nat) (t : State) => t.switchPending .ctxt = true ∧ t.fld 0x7218 63 16 = S ∧ t.activeBank .ctxt = s.activeBank .ctxt ∧
      t.fw.journal = s.fw.journal ++ [journalOf s op e (.ctx e.arg.toNat) (.sw .ctxt (some S)) (BitVec.ofNat 64 S)] ∧
      t.fw.held = s.fw.held ∧ s.changes lineParts t
    s.tableFree .ctxt →
    (s.admitsCommand 0x11 (e.rsvOk 0xFFFF 0 0 0 0 0 0 0) true (.ctx e.arg.toNat) false → Completes (.ctxUnbind e) s (asked 0x11)) ∧
    (let c := ctxtOf (s.readWords (bits e.w1 51 4 * 16) 16)
     s.admitsCommand 0x10 (e.rsvOk 0xFFFF (mask 51 4) (mask 51 4) 0 0 0 0 0 && s.hostBuf (bits e.w1 51 4 * 16) 128 &&
       (decide (c.eblCount = 0) || s.hostBuf (bits e.w2 51 4 * 16) (16 * c.eblCount))) true (.ctx e.arg.toNat) true →
     bindAccess e.arg.toNat c = false → c.eblCount ≤ 256 → eblOk (s.ebl { c with ebl := bits e.w2 51 4 * 16 }) c.xlt = true →
     Completes (.ctxBind e) s (asked 0x10))) ∧
  (∀ (e : Entry) (s : State),
    let c := ctxtOf (s.readWords (bits e.w1 51 4 * 16) 16)
    s.admitsCommand 0x10 (e.rsvOk 0xFFFF (mask 51 4) (mask 51 4) 0 0 0 0 0 && s.hostBuf (bits e.w1 51 4 * 16) 128 &&
       (decide (c.eblCount = 0) || s.hostBuf (bits e.w2 51 4 * 16) (16 * c.eblCount))) true (.ctx e.arg.toNat) true →
    ((c.host = false ∧ c.xlt ≠ 0) ∨ c.xlt = 3 ∨ (c.may 7 = true ∧ c.xlt = 0) ∨ (e.arg = 0 ∧ c.host = false) ∨ bits (c.sub.headD 0) 2 0 = 7 →
      exec (.ctxBind e) s = .next (s.taken.endNow 0x10 e stAccess)) ∧
    (bindAccess e.arg.toNat c = false → eblOk (s.ebl { c with ebl := bits e.w2 51 4 * 16 }) c.xlt = false →
      exec (.ctxBind e) s = .next (s.taken.endNow 0x10 e stInvalid)))

/-- R35: a SWITCH_REQ that arrives while a switch of its table is pending or while OLD_FREE is 0 is ignored, as is a write to the base register of the
active bank, or of the inactive one at such a time: BUSY_ERR is set, the EXT page's first-error capture records the attempt with the figures R35 gives (a
further one only counts, R439), and nothing else changes. A write of the inactive bank's base at any other time stores it.
Commands that complete here: TABLE_SWITCH_REQ, TABLE_BASE_WRITE. -/
def Obligations.IgnoredSwitchesAndBaseWrites : Prop :=
  ∀ (tb : Table) (v : Word) (cy : BitVec 14) (s : State),
    let ctrl := tb.group + 0x18
    let held := s.switchPending tb = true ∨ s.oldFree tb = false
    let ignored := fun (off : Nat) (t : State) => bit (t.reg ctrl) 3 = true ∧ (∀ i < 64, i ≠ 3 → bit (t.reg ctrl) i = bit (s.reg ctrl) i) ∧
      (∀ o, o ≠ ctrl → (∀ k < 8, o ≠ 0x7040 + 8 * k) → t.reg o = s.reg o) ∧ s.changes [.regs, .fresh, .out] t ∧
      (bit (s.reg 0x7040) 0 = true → bit (t.reg 0x7040) 1 = true ∧ t.fld 0x7040 63 48 = min 0xFFFF (s.fld 0x7040 63 48 + 1) ∧
        ∀ k < 8, 1 ≤ k → t.reg (0x7040 + 8 * k) = s.reg (0x7040 + 8 * k)) ∧
      (bit (s.reg 0x7040) 0 = false → t.fld 0x7040 31 24 = 0 ∧ t.fld 0x7040 23 8 = 0 ∧ t.fld 0x7040 39 32 = 0 ∧ t.fld 0x7040 63 48 = 1 ∧
        bit (t.reg 0x7040) 0 = true ∧ t.fld 0x7048 47 0 = s.tick % 2 ^ 48 ∧ t.fld 0x7048 61 48 = cy.toNat ∧ t.reg 0x7050 = 0 ∧
        (t.reg 0x7058).toNat = tb.num ∧ (t.reg 0x7060).toNat = off % 4096 ∧ t.reg 0x7068 = v ∧ t.reg 0x7070 = 0 ∧ t.reg 0x7078 = 0)
    (∀ by' : Agent, mayCtrl by' tb = true → bit v 1 = true → held → Completes (.tableSwitchReq by' tb v cy) s (ignored ctrl)) ∧
    ∀ bank : Bool,
      let off := tb.group + 8 * b2n bank
      (bank = s.activeBank tb ∨ held → Completes (.tableBaseWrite .firmware tb bank v cy) s (ignored off)) ∧
      (bank ≠ s.activeBank tb → ¬held → Completes (.tableBaseWrite .firmware tb bank v cy) s fun t =>
        t.bankBase tb bank = bits v 51 12 * 4096 ∧ s.changes [.regs] t ∧ s.regsBut [off] t)

/-- R32, R33: a switch request on a free table is accepted: SWITCH_TICK is S, at least I + 2 (I + 4,097 for SLT), SWITCH_REQ reads 1, the active bank is as
before; a write without the request stores its tick, and keeps the accepted one while a switch is pending.
R361: a port whose Z lies in the present tick or before runs its new list and keeps the old one beside its Z; before that, and while the switch itself is pending, nothing happens. Model's readings here: log 42.
Commands that complete here: TABLE_SWITCH_REQ, SLUICE_PORT_SWITCH. -/
def Obligations.SwitchRequests : Prop :=
  (∀ (by' : Agent) (tb : Table) (v : Word) (cy : BitVec 14) (s : State), mayCtrl by' tb = true →
    let o := tb.group + 0x18
    let least := tadd s.tick (if tb = .slt then 4097 else 2)
    (bit v 1 = true → s.switchPending tb = false → s.oldFree tb = true →
      Completes (.tableSwitchReq by' tb v cy) s fun t => t.switchPending tb = true ∧
        t.fld o 63 16 = (if later least (bits v 63 16) then least else bits v 63 16) ∧ t.activeBank tb = s.activeBank tb ∧
        s.changes (.fab :: raiseParts) t ∧ (tb ≠ .slt → s.changes [.regs, .out] t ∧ s.regsBut [o] t)) ∧
    (bit v 1 = false → s.switchPending tb = true → Completes (.tableSwitchReq by' tb v cy) s fun t => t.fld o 63 16 = s.fld o 63 16 ∧
      t.switchPending tb = true ∧ s.changes [.regs, .out] t ∧ s.regsBut [o] t) ∧
    (bit v 1 = false → s.switchPending tb = false →
      Completes (.tableSwitchReq by' tb v cy) s fun t => t.fld o 63 16 = bits v 63 16 ∧ t.switchPending tb = false ∧ s.changes [.regs, .out] t ∧
        s.regsBut [o] t)) ∧
  (∀ (p : Fin 32) (s : State) (n : SluiceList) (z : Nat), (s.sched p).next = some n → (s.sched p).z = some z →
    (s.switchPending .slt = false → z < (s.tick + 1) * s.periodNs → Completes (.sluicePortSwitch p) s fun t =>
      t.sched p = { s.sched p with list := n, next := none, z := none, prev := some ((s.sched p).list, z) } ∧ (∀ q, q ≠ p.val → t.sched q = s.sched q) ∧
      s.changes (.fab :: raiseParts) t) ∧
    (s.switchPending .slt = true ∨ (s.tick + 1) * s.periodNs ≤ z → exec (.sluicePortSwitch p) s = .next s))

/-! ### Extents (R50, R51, R58, R173, R218 to R220) -/

/-- R50: EXT_CREATE of a free extent for which parcels and frames suffice: with PLACE its mask and start as given, else all stacks from
firmware's start. One that is not coherent, on a device with flash, ends OK in its tick, its last write the valid entry with the format, size
and kind asked for; without flash it waits for its zero-fill, and a coherent one for its pin. Model's readings here: logs 4, 57.
Commands that complete here: EXT_CREATE. -/
def Obligations.ExtentsAreCreated : Prop :=
  ∀ (e : Entry) (s : State),
    s.admitsCommand 0x20 (createWf e) ((!bit e.w1 26 || s.hasCoh) && (!s.createAssured e || s.hasAssured)) (.ext e.ext) true →
    (s.exttNow e.ext).valid = false →
    let place' : Nat × Nat := if bit e.w3 31 then (bits e.w3 23 0, bits e.w3 28 24) else (0xFFFFFF, s.taken.startStack.1)
    s.taken.createFits (s.taken.createEntry e place'.1 place'.2 0) = true →
    let waits := fun (t : State) => s.journals (journalOf s 0x20 e (.ext e.ext) (.pin e.ext) 0) t ∧ t.pinPending e.ext = true ∧
      s.changes (.tier :: .coh :: lineParts) t
    (bit e.w1 26 = false → s.hasFlash = true →
      ∃ (u : State) (d : Extt), exec (.extCreate e) s = .next ((u.putBoth .extt e.ext d.words).endNow 0x20 e stOk) ∧
        d.valid = true ∧ d.state = 0 ∧ d.format = bits e.w1 23 20 ∧ d.rowElems = bits e.w1 51 39 ∧ d.rowLines = bits e.w1 58 52 ∧
        d.coherent = false ∧ d.assured = s.createAssured e ∧ d.pinned = false ∧ d.parcels = parcelCount (bits e.w2 23 0) ∧
        d.stackMask = place'.1 ∧ d.startStack = place'.2 ∧ s.changes (.tier :: lineParts) u) ∧
    (bit e.w1 26 = false → s.hasFlash = false → Completes (.extCreate e) s waits) ∧
    (bit e.w1 26 = true → (domtOf (s.entryMem .domt (s.activeBank .domt) (bits e.w1 38 27))).valid = true →
      s.busyTick (.dom (bits e.w1 38 27)) = none → Completes (.extCreate e) s waits)

/-- R50, R58: EXT_REVOKE writes STATE REVOKED and REVOKE_TICK B = I + 2 into both banks, invalidates the entry, begins its drain at B and
completes in B.
Commands that complete here: EXT_REVOKE. -/
def Obligations.RevocationsBeginADrain : Prop :=
  ∀ (e : Entry) (s : State), s.admitsCommand 0x24 e.onlyExt true (.ext e.ext) false →
    (s.exttNow e.ext).valid = true → (s.exttNow e.ext).revoked = false →
    ((s.exttNow e.ext).coherent = true → (s.dom (s.exttNow e.ext).domain).st = .quiet) →
    s.entryPlaced .extt e.ext →
    Completes (.extRevoke e) s fun t =>
      (∀ b, t.entryMem .extt b e.ext = { s.exttNow e.ext with state := 1, revoke := s.effectTick }.words) ∧
      t.tier.invals = s.tier.invals ++ [⟨.extt, e.ext, 1, s.effectTick⟩] ∧
      t.tier.drains = s.tier.drains ++ [{ ext := e.ext, kind := .revoke, b := s.effectTick }] ∧
      t.fw.journal = s.fw.journal ++ [journalOf s 0x24 e (.ext e.ext) (.tick s.effectTick) (BitVec.ofNat 64 s.effectTick)] ∧
      t.tier.parcels = s.tier.parcels ∧ t.tier.fht = s.tier.fht ∧ t.tier.lsm = s.tier.lsm ∧
      s.changes (.tier :: lineParts) t

/-- R50, R51, R58, R219: a shrink and an EXT_UNPIN take effect, complete and begin their drain at I + 2. Model's readings here: log 110.
Commands that complete here: EXT_RESIZE, EXT_UNPIN. -/
def Obligations.ShrinksAndUnpinsDrain : Prop :=
  ∀ (e : Entry) (s : State),
    let d := s.exttNow e.ext
    let waits := fun (op : Nat) (j : DrainJob) (t : State) => t.tier.drains = s.tier.drains ++ [j] ∧
      t.tier.invals = s.tier.invals ++ [⟨.extt, e.ext, 1, s.effectTick⟩] ∧
      t.fw.journal = s.fw.journal ++ [journalOf s op e (.ext e.ext) (.tick s.effectTick) (BitVec.ofNat 64 s.effectTick)] ∧
      t.tier.parcels = s.tier.parcels ∧ t.tier.fht = s.tier.fht ∧ t.tier.lsm = s.tier.lsm ∧ t.fw.held = s.fw.held
    d.valid = true → d.revoked = false →
    (s.admitsCommand 0x21 (e.rsvOk 0 0x3FFFF 0xFFFFFF 0 0 0 0 0 && decide (bits e.w2 23 0 < 0x800000)) true (.ext e.ext) true →
      parcelCount (bits e.w2 23 0) < d.parcels → (s.tier.drains.any fun j => decide (j.ext = e.ext ∧ j.kind = .shrink)) = false →
      (d.coherent = true → (s.dom d.domain).st = .quiet) → s.entryPlaced .extt e.ext →
      Completes (.extResize e) s fun t =>
        waits 0x21 { ext := e.ext, kind := .shrink, b := s.effectTick, oldCount := d.parcels, newCount := parcelCount (bits e.w2 23 0) } t ∧
        ∀ b, t.entryMem .extt b e.ext =
          { d with parcels := parcelCount (bits e.w2 23 0), prev := d.parcels, resize := s.effectTick }.words) ∧
    (s.admitsCommand 0x23 e.onlyExt s.hasFlash (.ext e.ext) false → d.coherent = false → d.pinned = true → s.pinPending e.ext = false →
      s.entryPlaced .extt e.ext →
      Completes (.extUnpin e) s fun t => waits 0x23 { ext := e.ext, kind := .unpin, b := s.effectTick } t ∧
        ∀ b, t.entryMem .extt b e.ext = { d with pinned := false }.words)

/-- R50, R218: EXT_PIN of an extent whose frames fit journals the command until its P and notes the pin; EXT_DESTROY of a drained revoked extent
writes VALID = 0, frees its parcels and completes in I + 2; while the revocation drains EXT_DESTROY is refused with D. Model's readings here: log 111.
Commands that complete here: EXT_PIN, EXT_DESTROY. -/
def Obligations.PinsAndDestroys : Prop :=
  ∀ (e : Entry) (s : State),
    let d := s.exttNow e.ext
    (s.admitsCommand 0x22 e.onlyExt true (.ext e.ext) true → d.valid = true → d.revoked = false → s.pinPending e.ext = false →
      s.taken.pinFits e.ext = true →
      Completes (.extPin e) s fun t => t.fw.journal = s.fw.journal ++ [journalOf s 0x22 e (.ext e.ext) (.pin e.ext) 0] ∧
        t.pinPending e.ext = true ∧ t.fw.held = s.fw.held ∧ t.tier.parcels = s.tier.parcels) ∧
    (s.admitsCommand 0x25 e.onlyExt true (.ext e.ext) false → d.valid = true → d.revoked = true →
      (e.ext ∈ s.tier.revDrained →
        Completes (.extDestroy e) s fun t =>
          s.journals (journalOf s 0x25 e (.ext e.ext) (.tick s.effectTick) (BitVec.ofNat 64 s.effectTick)) t ∧
          (∀ ip ∈ s.extParcels e.ext, (sget (fun _ => ({} : ParcelOwner)) t.tier.parcels ip.2).allocated = false) ∧
          e.ext ∉ t.tier.revDrained ∧ s.changes (.tier :: lineParts) t) ∧
      (e.ext ∉ s.tier.revDrained → ∀ j D, s.tier.drains.find? (fun j => decide (j.ext = e.ext ∧ j.kind = .revoke)) = some j → j.due = some D →
        exec (.extDestroy e) s = .next (s.taken.refuse 0x25 e D)))

/-- R172, R173: a descriptor that fits goes into words 5 and 6 of the entry, to be seen from I + 2 on; one that does not fit ends with
BAD_FORMAT.
R50: an extent command on an entry that is not valid ends with EXTENT_INVALID, and any but EXT_DESTROY on a revoked one with REVOKED.
Commands that complete here: EXT_UPDATE_SET. -/
def Obligations.ExtentsUpdateOrRefuse : Prop :=
  (∀ (e : Entry) (s : State),
    let u := updDesc e.w2 e.w3 (bits e.w4 15 0)
    let d := s.exttNow e.ext
    s.admitsCommand 0x26 (e.rsvOk 0 0x3FFFF (place 3 0 15 ||| place 49 8 (2 ^ 42 - 1)) (~~~0) 0xFFFF 0 0 0) true (.ext e.ext) true →
    d.valid = true → d.revoked = false →
    (s.updFits e.ext d u = true → u.usesComp = false → s.entryPlaced .extt e.ext →
      Completes (.extUpdateSet e) s fun t =>
        (∀ b, t.entryMem .extt b e.ext = { d with upd5 := e.w2, upd6 := e.w3 }.words) ∧
        t.tier.stale.head? = some ⟨.extt, s.activeBank .extt, e.ext, s.entryMem .extt (s.activeBank .extt) e.ext, s.effectTick, false⟩ ∧
        t.fw.journal = s.fw.journal ++ [journalOf s 0x26 e (.ext e.ext) (.tick s.effectTick) (BitVec.ofNat 64 s.effectTick)]) ∧
    (s.updFits e.ext d u = false → exec (.extUpdateSet e) s = .next (s.taken.endNow 0x26 e stBadFormat))) ∧
  (∀ (e : Entry) (s : State), s.variant ≠ 0 → s.hasFlash = true → s.tenantActive = true → s.busyTick (.ext e.ext) = none → e.onlyExt = true →
    s.serves 0x26 = true → s.taskDown 2 = false →
    ((s.exttNow e.ext).valid = false →
      exec (.extPin e) s = .next (s.taken.endNow 0x22 e stInvalid) ∧ exec (.extUnpin e) s = .next (s.taken.endNow 0x23 e stInvalid) ∧
      exec (.extRevoke e) s = .next (s.taken.endNow 0x24 e stInvalid) ∧ exec (.extDestroy e) s = .next (s.taken.endNow 0x25 e stInvalid) ∧
      exec (.extResize e) s = .next (s.taken.endNow 0x21 e stInvalid) ∧ exec (.extUpdateSet e) s = .next (s.taken.endNow 0x26 e stInvalid)) ∧
    ((s.exttNow e.ext).valid = true → (s.exttNow e.ext).revoked = true →
      exec (.extPin e) s = .next (s.taken.endNow 0x22 e stRevoked) ∧ exec (.extUnpin e) s = .next (s.taken.endNow 0x23 e stRevoked) ∧
      exec (.extRevoke e) s = .next (s.taken.endNow 0x24 e stRevoked) ∧ exec (.extResize e) s = .next (s.taken.endNow 0x21 e stRevoked) ∧
      exec (.extUpdateSet e) s = .next (s.taken.endNow 0x26 e stRevoked)))

/-! ### Domains (R280 to R282, R292) -/

/-- R282: DOM_CREATE of an UNUSED domain, DOM_FORM of a QUIET one with an ordered member list and every coherent extent at its P, and
DOM_DESTROY of a QUIET one without extents switch DOMT at S = I + 2, keep the new state for that tick and complete in it (DOM_FORM with its
EPOCH, one higher, 65,535 wrapping to 1, in the top bits of RESULT1); DOM_STOP of an ACTIVE one takes it DOWN at I + 2 with cause STOP.
R282: DOM_CREATE of a domain in use, DOM_STOP of one that is not ACTIVE, DOM_DESTROY of one that is not QUIET or still has an extent are
refused, and change nothing but the completion. Model's readings here: log 129.
Commands that complete here: DOM_CREATE, DOM_FORM, DOM_STOP, DOM_DESTROY. -/
def Obligations.DomainsChange : Prop :=
  (∀ (e : Entry) (s : State),
    let d := bits e.w1 11 0
    let S := s.effectTick
    let asked := fun (op : Nat) (r1 : Word) (st : DomSt) (t : State) => s.switchAsked .domt S t ∧ (t.dom d).forming = some st ∧
      s.journals (journalOf s op e (.dom d) (.sw .domt (some S)) (r1 ||| BitVec.ofNat 64 S)) t ∧
      s.changes (.coh :: lineParts) t
    let ep := nextEpoch (domtOf (s.domWords d)).epoch
    (s.tableFree .domt →
      (s.admitsCommand 0x30 (e.rsvOk 0 (mask 11 0 ||| mask 23 16) (mask 15 0) 0 0 0 0 0) s.hasCoh (.dom d) true → (s.dom d).st = .unused →
        Completes (.domCreate e) s (asked 0x30 0 .quiet)) ∧
      (s.admitsCommand 0x31 (e.rsvOk 0 (mask 11 0) (mask 51 12) (mask 10 0) 0 0 0 0 && decide (bits e.w3 10 0 ≤ 1024) &&
          s.hostBuf (bits e.w2 51 12 * 4096) 4096) s.hasCoh (.dom d) true →
        memberListOk (s.readRegion (bits e.w2 51 12 * 4096) 4096) (bits e.w3 10 0) = true → (s.dom d).st = .quiet → s.domUnpinned d = false →
        Completes (.domForm e) s (asked 0x31 (place 63 48 ep) .active)) ∧
      (s.admitsCommand 0x33 (e.rsvOk 0 (mask 11 0) 0 0 0 0 0 0) s.hasCoh (.dom d) false → (s.dom d).st = .quiet → s.domExtents d = [] →
        Completes (.domDestroy e) s (asked 0x33 0 .unused))) ∧
    (s.admitsCommand 0x32 (e.rsvOk 0 (mask 11 0) 0 0 0 0 0 0) s.hasCoh (.dom d) false → (s.dom d).st = .active → (s.dom d).goingDown = none →
      Completes (.domStop e) s fun t => (t.dom d).goingDown = some (S, 4, 0) ∧
        s.journals (journalOf s 0x32 e (.dom d) (.tick S) (BitVec.ofNat 64 S)) t ∧ s.changes [.regs, .fw, .coh] t)) ∧
  (∀ (e : Entry) (s : State),
    let d := bits e.w1 11 0
    (s.admitsCommand 0x30 (e.rsvOk 0 (mask 11 0 ||| mask 23 16) (mask 15 0) 0 0 0 0 0) s.hasCoh (.dom d) true → (s.dom d).st ≠ .unused →
      exec (.domCreate e) s = .next (s.taken.refuse 0x30 e 0)) ∧
    (s.admitsCommand 0x32 (e.rsvOk 0 (mask 11 0) 0 0 0 0 0 0) s.hasCoh (.dom d) false →
      (s.dom d).st ≠ .active → exec (.domStop e) s = .next (s.taken.refuse 0x32 e 0)) ∧
    (s.admitsCommand 0x33 (e.rsvOk 0 (mask 11 0) 0 0 0 0 0 0) s.hasCoh (.dom d) false →
      (s.dom d).st ≠ .quiet ∨ s.domExtents d ≠ [] → exec (.domDestroy e) s = .next (s.taken.refuse 0x33 e 0)))

/-! ### Invalidation, the period and policies (R36, R68, R387) -/

/-- R36, R68, R387: TABLE_INVALIDATE names its entries for I + 2; TICK_SET is refused while a switch is pending, and else starts its sequence
with admission to stop at I + 1, or waits for the sequence that runs; POLICY_SET of a register and fields that its table allows is kept for I + 2, and ends with ACCESS where the table allows none. Model's readings here: logs 74, 128.
Commands that complete here: TABLE_INVALIDATE, TICK_SET, POLICY_SET. -/
def Obligations.TableTickAndPolicyCommands : Prop :=
  ∀ (e : Entry) (s : State),
    let S := s.effectTick
    (∀ tb, bits e.w1 3 0 = tb.num →
      s.admitsCommand 0x40 (e.rsvOk 0 (mask 3 0) (mask 31 0) (mask 31 0) 0 0 0 0 && decide (1 ≤ bits e.w3 31 0) &&
        decide (bits e.w2 31 0 + bits e.w3 31 0 ≤ tb.entries)) true .none false →
      Completes (.tableInvalidate e) s fun t => t.tier.invals = s.tier.invals ++ [⟨tb, bits e.w2 31 0, bits e.w3 31 0, S⟩] ∧
        s.journals (journalOf s 0x40 e .none (.tick S) (BitVec.ofNat 64 S)) t ∧ s.changes [.regs, .fw, .tier] t) ∧
    (s.admitsCommand 0x42 (e.rsvOk 0 (mask 5 0) 0 0 0 0 0 0 && decide (4 ≤ bits e.w1 5 0 ∧ bits e.w1 5 0 ≤ 32)) true .none false →
      (s.anySwitch = false → s.tim.period = none →
        Completes (.tickSet e) s fun t => t.tim = { s.tim with period := some ⟨bits e.w1 5 0, tadd s.tick 1⟩ } ∧
          s.journals (journalOf s 0x42 e .none .tickSet 0) t ∧ s.changes [.regs, .fw, .tim] t) ∧
      (s.anySwitch = false → s.tim.period ≠ none →
        Completes (.tickSet e) s fun t => t.tim = { s.tim with periodNext := s.tim.periodNext ++ [bits e.w1 5 0] } ∧
          s.journals (journalOf s 0x42 e .none .tickSet 0) t ∧ s.changes [.regs, .fw, .tim] t) ∧
      (s.anySwitch = true → exec (.tickSet e) s = .next (s.taken.refuse 0x42 e 0))) ∧
    (s.serves 0x43 = true → e.rsvOk 0 (mask 31 0) (~~~0) (~~~0) 0 0 0 0 = true → s.variant ≠ 0 →
      (∀ b n m, policyReg (bits e.w1 23 16) (bits e.w1 15 0) = some (b, n, m) → (bits e.w1 31 24 = 0xFF ∨ bits e.w1 31 24 < n) →
        (e.w3 &&& ~~~m = 0 →
          Completes (.policySet e) s fun t =>
            t.fw.policies = s.fw.policies ++ [⟨S, policyOffsets b (bits e.w1 15 0) (bits e.w1 31 24), e.w2, e.w3⟩] ∧
            s.journals (journalOf s 0x43 e .none (.tick S) (BitVec.ofNat 64 S)) t ∧ s.changes [.regs, .fw] t) ∧
        (e.w3 &&& ~~~m ≠ 0 → exec (.policySet e) s = .next (s.taken.endNow 0x43 e stAccess))) ∧
      (policyReg (bits e.w1 23 16) (bits e.w1 15 0) = none → exec (.policySet e) s = .next (s.taken.endNow 0x43 e stAccess)))

/-! ### LNK_CMD (R345, R386, R420) -/

/-- R345, R420: TRAIN takes a DOWN port to TRAIN and RETRAIN a port in UP to RETRAIN, each journaled until the port stands; RESET takes any
port that is not DISABLED to DOWN with cause DRIVER, DISABLE to DISABLED, and both complete at once; ENABLE clears DISABLE and, with a valid
boot configuration, takes a licensed DISABLED port through DOWN to TRAIN. Without the licence ENABLE ends with ACCESS. Model's readings here: logs 126, 127.
Commands that complete here: LNK_CMD_TRAIN, LNK_CMD_RETRAIN, LNK_CMD_RESET, LNK_CMD_DISABLE, LNK_CMD_ENABLE. -/
def Obligations.LinkCommands : Prop :=
  ∀ (e : Entry) (s : State),
    let p := bits e.w1 4 0
    let dis := fun (t : State) => bit (t.reg (rOff .lnk p 0x208)) 3
    let waits := fun (t : State) => journalOf s 0x44 e (.port p) (.port p) 0 ∈ t.fw.journal
    let over' := fun (t : State) => ∀ j ∈ t.fw.journal, j.wait ≠ .port p
    s.admitsCommand 0x44 (e.rsvOk 0 (mask 4 0 ||| mask 10 8 ||| mask 23 16) 0 0 0 0 0 0) true (.port p) false →
    (dis s = false →
      (s.linkState p = 1 → Completes (.lnkCmdTrain e) s fun t => t.linkState p = 2 ∧ waits t ∧
        t.fld (rOff .lnk p 0x208) 11 4 = bits e.w1 23 16 ∧ s.changes [.regs, .fw, .fab] t) ∧
      (s.linkState p = 4 → Completes (.lnkCmdRetrain e) s fun t => t.linkState p = 5 ∧ waits t ∧
        t.fld (rOff .lnk p 0x208) 11 4 = bits e.w1 23 16) ∧
      (s.linkState p ≠ 0 → Completes (.lnkCmdReset e) s fun t => t.linkState p = 1 ∧ t.fld (rOff .lnk p 0x210) 43 40 = 6 ∧ over' t)) ∧
    (s.linkState p ≠ 0 → Completes (.lnkCmdDisable e) s fun t => t.linkState p = 0 ∧ dis t = true ∧ over' t) ∧
    (s.portLicensed p = true → s.portsHeld = false → s.linkState p = 0 → Completes (.lnkCmdEnable e) s fun t => t.linkState p = 2 ∧ dis t = false ∧ waits t) ∧
    (s.portLicensed p = false → exec (.lnkCmdEnable e) s = .next (s.taken.endNow 0x44 e stAccess))

/-! ### Translation commands (R206, R207, R209) -/

/-- An invalidation by the ring command joins the pending ones, whatever they are, and its command completes at I + 3; one by a write of a
tile's page becomes the pending one where none is, with REQ 1 and DONE 0; a write while one is pending, or with SCOPE 3, sets ERR and leaves
the invalidations alone (from R207, R209). Model's readings here: log 43.
Commands that complete here: XLT_INVALIDATE. -/
def Obligations.TranslationInvalidates : Prop :=
  ∀ (s : State),
    (∀ e : Entry, s.admitsCommand 0x45 (e.rsvOk 0 (mask 31 16 ||| mask 1 0) (mask 56 12) 0 0 0 0 0 && decide (bits e.w1 1 0 ≠ 3)) true .none false →
      Completes (.xltInvalidate (.ring e)) s fun t =>
        t.xlt = { s.xlt with inv := s.xlt.inv ++
          [{ taken := s.tick, byPage := none, scope := bits e.w1 1 0, asid := bits e.w1 31 16, page := bits e.w2 56 12 }] } ∧
        s.journals (journalOf s 0x45 e .none (.tick (tadd s.tick 3)) (BitVec.ofNat 64 (tadd s.tick 3))) t ∧ s.changes [.regs, .fw, .xlt] t) ∧
    (∀ (tile : Fin 4) (v : Word), s.blockReset .xlt = false → bit v 4 = true →
      (s.xlt.inv = [] → bits v 1 0 ≠ 3 → Completes (.xltInvalidate (.reg tile v)) s fun t =>
        t.xlt = { s.xlt with inv := [{ taken := s.tick, byPage := some tile.val, scope := bits v 1 0, asid := bits v 31 16,
                                       page := s.fld (rOff .xlt tile 0x220) 56 12 }] } ∧
        bit (t.reg (rOff .xlt tile 0x228)) 4 = true ∧ bit (t.reg (rOff .xlt tile 0x228)) 5 = false ∧ s.changes [.regs, .xlt, .out] t) ∧
      (s.xlt.inv ≠ [] ∨ bits v 1 0 = 3 → Completes (.xltInvalidate (.reg tile v)) s fun t =>
        t.xlt = s.xlt ∧ bit (t.reg (rOff .xlt tile 0x228)) 6 = true ∧ s.changes [.regs, .out] t))

/-- From R32 and R34: at S or later the other bank becomes active, OLD_FREE reads 0 and the commands that wait for this switch leave the
journal; with no switch pending nothing happens. Once nothing holds the old bank of a table without waiting changes, OLD_FREE reads 1;
while something holds it nothing happens.
From R36 and R49: no old value or invalidation whose tick has come is left, every later invalidation is; no freed parcel whose tick has come
is left, every allocated one is; every TABLE_INVALIDATE whose tick has come leaves the journal.
From R387: the one POLICY_SET due writes its masked value into each of its registers and leaves every other bit and register.
From R207: before I + 2 nothing happens; the cached entries in the scope of an invalidation from its I + 2 on leave the caches, and no others;
at I + 3 the only invalidation is over, REQ 0 and DONE 1, and the XLT_INVALIDATE commands due leave the journal. Model's readings here: logs
14, 27, 43.
Commands that complete here: TABLE_SWITCH, OLD_FREE_SET, INVALIDATE_EFFECT, XLT_INV_EFFECT, POLICY_SET_EFFECT. -/
def Obligations.RequestedChangesTakeEffect : Prop :=
  (∀ (tb : Table) (s : State),
    let o := tb.group + 0x18
    (s.switchPending tb = true → tle (s.fld o 63 16) s.tick = true →
      Completes (.tableSwitch tb) s fun t => t.activeBank tb = (!s.activeBank tb) ∧ t.switchPending tb = false ∧ t.oldFree tb = false ∧
        (∀ o' : Table, o' ≠ tb → t.activeBank o' = s.activeBank o') ∧ (∀ j ∈ t.fw.journal, j.wait ≠ .sw tb (some (s.fld o 63 16))) ∧
        t.island = s.island ∧ t.adm = s.adm ∧ t.boot = s.boot ∧ t.xlt = s.xlt ∧ (tb ≠ .rtt → t.fab = s.fab)) ∧
    (s.switchPending tb = false → exec (.tableSwitch tb) s = .next s) ∧
    (s.oldFree tb = false → s.bankHeld tb = false →
      (s.fw.deferred.any fun w => decide (w.table = tb)) = false →
      Completes (.oldFreeSet tb) s fun t => t.oldFree tb = true ∧ t.activeBank tb = s.activeBank tb ∧ t.adm = s.adm ∧ t.tier = s.tier) ∧
    (s.bankHeld tb = true → exec (.oldFreeSet tb) s = .next s)) ∧
  ((∀ s : State, Completes .invalidateEffect s fun t =>
    (∀ e ∈ t.tier.stale, later e.effect s.tick = true) ∧ (∀ v ∈ t.tier.invals, later v.effect s.tick = true) ∧
    (∀ v ∈ s.tier.invals, later v.effect s.tick = true → v ∈ t.tier.invals) ∧
    (∀ p ∈ t.tier.parcels, p.2.allocated = true ∨ later p.2.index s.tick = true) ∧
    (∀ p ∈ s.tier.parcels, p.2.allocated = true → p ∈ t.tier.parcels) ∧
    (∀ j ∈ t.fw.journal, ∀ k, j.opcode = 0x40 → j.wait = .tick k → later k s.tick = true) ∧
    s.changes (.tier :: .fab :: postParts) t) ∧
  ∀ (s : State) (j : PolicyJob), s.fw.policies = [j] → tle j.effect s.tick = true → (∀ k ∈ s.fw.journal, k.opcode ≠ 0x43) →
    Completes .policySetEffect s fun t => (∀ o ∈ j.offsets, t.reg o = (s.reg o &&& ~~~j.mask) ||| (j.value &&& j.mask)) ∧
      s.regsBut j.offsets t ∧ t.fw = { s.fw with policies := [] } ∧ s.changes [.regs, .fw] t) ∧
  (∀ s : State,
    ((∀ i ∈ s.xlt.inv, later (tadd i.taken 2) s.tick = true ∧ later (tadd i.taken 3) s.tick = true) →
      (∀ j ∈ s.fw.journal, j.opcode ≠ 0x45) → exec .xltInvEffect s = .next s) ∧
    ((∀ i ∈ s.xlt.inv, i.dropped = false) → Completes .xltInvEffect s fun t =>
      (∀ p, p ∈ t.xlt.cache ↔ p ∈ s.xlt.cache ∧ ∀ i ∈ s.xlt.inv, tle (tadd i.taken 2) s.tick = true → i.hits p = false) ∧
      (∀ p, p ∈ t.xlt.leafs ↔ p ∈ s.xlt.leafs ∧ ∀ i ∈ s.xlt.inv, tle (tadd i.taken 2) s.tick = true → i.hits p.2 = false) ∧
      t.xlt.groups = s.xlt.groups ∧ t.xlt.parked = s.xlt.parked) ∧
    ∀ i : XltInv, s.xlt.inv = [i] → tle (tadd i.taken 3) s.tick = true → i.byPage.getD 0 < 4 → Completes .xltInvEffect s fun t => t.xlt.inv = [] ∧
      bit (t.reg (rOff .xlt (i.byPage.getD 0) 0x228)) 4 = false ∧ bit (t.reg (rOff .xlt (i.byPage.getD 0) 0x228)) 5 = true ∧
      (∀ j ∈ t.fw.journal, ∀ k, j.opcode = 0x45 → j.wait = .tick k → later k s.tick = true))

/-- From R206 and R209: a resume or an abort that names a group by its tile, index and GEN marks it, while nothing has closed it before, to
close at the next boundary, by the ring command (which then completes) and by a write of a tile's page; with another GEN, or where no group
has that index, RESUME_ERR of the tile reads 1 and every group is as before. Model's readings here: log 44.
Commands that complete here: XLT_RESUME, XLT_ABORT. -/
def Obligations.GroupsResumeAndAbort : Prop :=
  ∀ (s : State),
    let named := fun (tile index : Nat) => s.xlt.groups.find? fun x => decide (x.tile = tile ∧ x.index = index)
    let marked := fun (g : FaultGroup) (abort : Bool) (t : State) => t.xlt = { s.xlt with groups := s.xlt.groups.map fun x =>
      if x = g then { x with closing := some (abort, s.tick) } else x }
    let wrong := fun (tile : Nat) (t : State) => t.xlt = s.xlt ∧ bit (t.reg (rOff .xlt tile 0x230)) 18 = true
    (∀ e : Entry, s.admitsCommand 0x46 (e.rsvOk 0 (mask 21 20 ||| mask 16 0) 0 0 0 0 0 0) true .none false →
      let done := fun (t : State) => s.journals (journalOf s 0x46 e (.group (bits e.w1 21 20) (bits e.w1 11 0)) (.tick (tadd s.tick 1))
        (BitVec.ofNat 64 (tadd s.tick 1))) t ∧ s.changes [.regs, .fw, .xlt] t
      (∀ g, named (bits e.w1 21 20) (bits e.w1 11 0) = some g → g.gen.toNat = bits e.w1 15 12 → g.closing = none →
        Completes (.xltResume (.ring e)) s (fun t => marked g (bit e.w1 16) t ∧ done t) ∧
        Completes (.xltAbort (.ring e)) s (fun t => marked g true t ∧ done t)) ∧
      ((∀ g, named (bits e.w1 21 20) (bits e.w1 11 0) = some g → g.gen.toNat ≠ bits e.w1 15 12) →
        Completes (.xltResume (.ring e)) s (wrong (bits e.w1 21 20)) ∧ Completes (.xltAbort (.ring e)) s (wrong (bits e.w1 21 20)))) ∧
    (∀ (tile : Fin 4) (v : Word), s.blockReset .xlt = false → bit v 17 = true →
      (∀ g, named tile (bits v 11 0) = some g → g.gen.toNat = bits v 15 12 → g.closing = none →
        Completes (.xltResume (.reg tile v)) s (fun t => marked g (bit v 16) t ∧ s.changes [.regs, .out, .xlt] t) ∧
        Completes (.xltAbort (.reg tile v)) s (fun t => marked g true t ∧ s.changes [.regs, .out, .xlt] t)) ∧
      ((∀ g, named tile (bits v 11 0) = some g → g.gen.toNat ≠ bits v 15 12) →
        Completes (.xltResume (.reg tile v)) s (wrong tile) ∧ Completes (.xltAbort (.reg tile v)) s (wrong tile)))

/-! ### Flush and compute reset (R239, R417, R418) -/

/-- R239, R417, R418: TIER_FLUSH stops admission, begins its drain in F0 = I and stays journaled; ADMIT_RESUME after a completed flush opens a new
checkpoint and completes at I + 1; COMPUTE_RESET takes C = I + 2. During a drain TIER_FLUSH and COMPUTE_RESET are refused, and ADMIT_RESUME
without a completed flush. Model's readings here: log 130.
Commands that complete here: TIER_FLUSH, ADMIT_RESUME, COMPUTE_RESET. -/
def Obligations.FlushResumeAndReset : Prop :=
  ∀ (e : Entry) (s : State),
    (s.admitsCommand 0x60 e.bare s.hasFlash .none false →
      (s.draining = false → Completes (.tierFlush e) s fun t => t.stopped = true ∧
        t.rsv = { s.rsv with drain := some { why := .flush, f0 := s.tick } } ∧ bit (t.reg 0x4248) 7 = true ∧
        journalOf s 0x60 e .none .flush (BitVec.ofNat 64 s.tick) ∈ t.fw.journal ∧ t.tier.fetches = []) ∧
      (s.draining = true → exec (.tierFlush e) s = .next (s.taken.refuse 0x60 e 0))) ∧
    (s.admitsCommand 0x61 e.bare true .none false →
      (s.creset = none → s.rsv.flushed = true → Completes (.admitResume e) s fun t =>
        s.journals (journalOf s 0x61 e .none (.tick (tadd s.tick 1)) (BitVec.ofNat 64 (tadd s.tick 1))) t ∧
        ((t.tier.slotA.closed = false ∧ t.tier.slotB = s.tier.slotB) ∨ (t.tier.slotB.closed = false ∧ t.tier.slotA = s.tier.slotA)) ∧
        s.changes [.regs, .fw, .tier] t) ∧
      (s.creset = none → s.rsv.flushed = false → exec (.admitResume e) s = .next (s.taken.refuse 0x61 e 0))) ∧
    (s.admitsCommand 0x62 e.bare true .none false →
      (s.draining = false → s.creset = none → Completes (.computeReset e) s fun t =>
        t.creset = some { c := s.effectTick, tile := false, third := false } ∧
        s.journals (journalOf s 0x62 e .none .reset (BitVec.ofNat 64 s.effectTick)) t ∧ s.changes [.regs, .fw, .creset] t) ∧
      (s.draining = true → exec (.computeReset e) s = .next (s.taken.refuse 0x62 e 0)))

/-! ### Firmware takes commands (R377, R382, R383, R384) -/

/-- From R377, R383 and R384: with no ring that firmware can take from, and no command that had to wait, nothing happens; with one command left
in the tick's budget it takes the command at TAIL of the first such ring from ring I mod 4 on. Taking a command moves TAIL and its copy and is
the row that its opcode names; an opcode or an action that the table does not give ends with BAD_FORMAT. A command that had to wait is, with the
budget used up, all that runs. Model's readings here: logs 75, 131.
Commands that complete here: COMMAND_TAKE. -/
def Obligations.CommandsAreTakenInTurn : Prop :=
  (∀ s : State, s.fw.waiting = [] → (∀ i < 4, s.canTake i = false) → exec .commandTake s = .next s) ∧
  (∀ (s : State) (k : Nat), s.fw.waiting = [] → s.cmdPerTick = s.fw.cmdUsed + 1 → k < 4 → s.canTake ((s.tick % 4 + k) % 4) = true →
    (∀ j < k, s.canTake ((s.tick % 4 + j) % 4) = false) → exec .commandTake s = .next (s.takeOne (ringOf (s.tick % 4 + k)))) ∧
  (∀ (s : State) (op : Nat) (e : Entry) (c : Instr), s.fw.waiting = [(op, e)] → s.cmdPerTick ≤ s.fw.cmdUsed → rowOf op e = some c →
    exec .commandTake s = exec c { s with fw := { s.fw with waiting := [] } }) ∧
  ∀ (s : State) (i : Fin 4),
    let ws := s.cmdWords i
    let op := bits (ws.headD 0) 7 0
    let e := entryOf i ws
    (∀ c, rowOf op e = some c → exec c (s.tailMoved i) = .next (s.takeOne i)) ∧
    (rowOf op e = none → (s.tailMoved i).serves op = true → (s.tailMoved i).variant ≠ 0 → s.takeOne i = (s.tailMoved i).taken.endNow op e stBadFormat)

/-! ### Firmware's rings (R376 to R381, R392 to R396) -/

/-- R392, R393: an event whose ring is enabled, has room and holds none back is written at HEAD with its PHASE while MSG runs; otherwise it joins
the 1,024 held in SRAM with its tick, and beyond those it is dropped and counted. The one event held is written later with that tick.
R394 to R396: a log record of the level in force or above, and a trace record of an enabled point within the tick's 256, are written at HEAD
of their rings with room, LOST of the first word telling of a drop before; without room they are dropped and the next is marked; a record
below the level or of a point that is off is nothing. The time that a record shows is an instant of the tick (log 3). Model's readings here: logs 3, 18, 19.
Commands that complete here: EVENT_POST, HELD_EVENT_POST, LOG_RECORD, TRACE_RECORD. -/
def Obligations.EventLogAndTraceRecords : Prop :=
  (∀ (ev : EventRec) (s : State),
    (s.ringOn RingId.evt.cfg = true → s.ringFull .evt = false → s.taskDown 7 = false → s.fw.evtHeld = [] → s.slotPlaced .evt →
      Completes (.eventPost ev) s fun t => s.wrote .evt (match ev.words s.tick with
        | w :: r => (s.phase .evt ||| w) :: r
        | [] => []) t ∧ s.changes postParts t) ∧
    (s.ringOn RingId.evt.cfg = false ∨ s.ringFull .evt = true ∨ s.taskDown 7 = true ∨ s.fw.evtHeld ≠ [] →
      (s.fw.evtHeld.length < 1024 → exec (.eventPost ev) s = .next { s with fw := { s.fw with evtHeld := s.fw.evtHeld ++ [(ev, s.tick)] } }) ∧
      (1024 ≤ s.fw.evtHeld.length → Completes (.eventPost ev) s fun t => t.fw = { s.fw with evtLost := s.fw.evtLost + 1 } ∧
        bit (t.reg 0x8020) 2 = true ∧ s.changes [.regs, .fw, .out, .signalled] t)) ∧
    (∀ n, s.ringOn RingId.evt.cfg = true → s.ringFull .evt = false → s.taskDown 7 = false → s.fw.evtHeld = [(ev, n)] → s.fw.evtLost = 0 →
      s.slotPlaced .evt → Completes .heldEventPost s fun t => t.fw.evtHeld = [] ∧ s.wrote .evt (match ev.words n with
        | w :: r => (s.phase .evt ||| w) :: r
        | [] => []) t ∧ s.changes postParts t) ∧
    (s.ringOn RingId.evt.cfg = false ∨ s.ringFull .evt = true ∨ s.taskDown 7 = true → exec .heldEventPost s = .next s)) ∧
  (∀ (r : LogRec) (s : State), r.wf = true →
    let level := min 5 (s.fld 0x8228 2 0)
    (r.severity.toNat < level → exec (.logRecord r) s = .next s) ∧
    (level ≤ r.severity.toNat →
      (s.ringOn RingId.log.cfg = true → s.ringFull .log = false → s.slotPlaced .log → Completes (.logRecord r) s fun t =>
        (∃ w, s.wrote .log ([w, place 47 0 s.tick, BitVec.ofNat 64 s.instant] ++ (List.range 5).map fun i => r.args.getD i 0) t ∧
          bit w 0 = decide (s.fld RingId.log.head 16 0 < s.ringN .log) ∧ bits w 3 1 = r.severity.toNat ∧ bits w 15 8 = r.block.toNat ∧
          bits w 23 16 = r.inst'.toNat ∧ bits w 39 24 = r.code.toNat ∧ bits w 42 40 = r.core ∧ bit w 63 = s.fw.logLost) ∧
        t.fw.logLost = false ∧ t.tim = { s.tim with shown := s.instant } ∧ s.changes (.tim :: postParts) t) ∧
      (s.ringOn RingId.log.cfg = false ∨ s.ringFull .log = true → Completes (.logRecord r) s fun t => t.fw.logLost = true ∧
        bit (t.reg 0x8020) 4 = true))) ∧
  ∀ (tp : BitVec 10) (core : Fin 8) (a0 : BitVec 48) (a1 a2 : Word) (s : State),
    let on := bit (s.reg (0xA300 + tp.toNat / 64 * 8)) (tp.toNat % 64)
    (on = false → exec (.traceRecord tp core a0 a1 a2) s = .next s) ∧
    (on = true →
      (s.fw.trcUsed < 256 → s.ringOn RingId.trc.cfg = true → s.ringFull .trc = false → s.slotPlaced .trc →
        Completes (.traceRecord tp core a0 a1 a2) s fun t =>
          (∃ w, s.wrote .trc [w, BitVec.ofNat 64 s.instant, a1, a2] t ∧ bit w 0 = decide (s.fld RingId.trc.head 16 0 < s.ringN .trc) ∧
            bits w 10 1 = tp.toNat ∧ bits w 13 11 = core ∧ bit w 14 = s.fw.trcLost ∧ bits w 63 16 = a0.toNat) ∧
          t.fw.trcLost = false ∧ t.fw.trcUsed = s.fw.trcUsed + 1 ∧ t.tim = { s.tim with shown := s.instant } ∧ s.changes (.tim :: postParts) t) ∧
      (256 ≤ s.fw.trcUsed ∨ s.ringOn RingId.trc.cfg = false ∨ s.ringFull .trc = true →
        Completes (.traceRecord tp core a0 a1 a2) s fun t => t.fw.trcLost = true ∧ bit (t.reg 0x8020) 5 = true))

/-- R379, R380: a pointer written to a ring is stored and copied to the shadow block; one that leaves HEAD at most N ahead of TAIL leaves the ring
as it is, and one that leaves it further ahead disables the ring and sets ERR.
R376, R380: ENABLE going from 0 to 1 sets HEAD and TAIL of the ring, of both rings of a pair, to 0; a write with the ring enabled keeps them.
A BASE is stored while its ring is off and it lies in the ring area beyond the shadow block, aligned to its size; otherwise it keeps its
value, with ERR unless the ring is on. Model's readings here: log 81.
Commands that complete here: CMD_HEAD_WRITE, RING_TAIL_WRITE, RING_ENABLE, RING_BASE_WRITE. -/
def Obligations.RingPointersAndConfiguration : Prop :=
  (∀ (v : Word) (s : State),
    let p := bits v 16 0
    let area := s.fld 0x8220 51 12 * 4096
    (∀ i : Fin 4,
      let cfg := 0x9208 + 0x40 * i.val
      Completes (.cmdHeadWrite i v) s fun t => t.fld (cmdHead i) 16 0 = p ∧
        (s.placed (area + 0x20 * i) 8 → s.ringOn cfg = false ∨ ringDist (s.cmdN i) p (s.fld (cmdTail i) 16 0) ≤ s.cmdN i →
          t.readWords (area + 0x20 * i) 1 = [BitVec.ofNat 64 p]) ∧
        (ringDist (s.cmdN i) p (s.fld (cmdTail i) 16 0) ≤ s.cmdN i →
          t.reg cfg = s.reg cfg ∧ t.out = s.out ++ [.hostDone] ∧ s.changes postParts t) ∧
        (s.ringOn cfg = true → s.cmdN i < ringDist (s.cmdN i) p (s.fld (cmdTail i) 16 0) →
          t.ringOn cfg = false ∧ bit (t.reg cfg) 6 = true ∧ s.changes raiseParts t)) ∧
    ∀ r : RingId, Completes (.ringTailWrite r v) s fun t => t.fld r.tail 16 0 = p ∧
      (s.placed (area + r.shadow + 8) 8 → s.ringOn r.cfg = false ∨ ringDist (s.ringN r) (s.fld r.head 16 0) p ≤ s.ringN r →
        t.readWords (area + r.shadow + 8) 1 = [BitVec.ofNat 64 p]) ∧
      (ringDist (s.ringN r) (s.fld r.head 16 0) p ≤ s.ringN r →
        t.reg r.cfg = s.reg r.cfg ∧ t.out = s.out ++ [.hostDone] ∧ s.changes postParts t) ∧
      (s.ringOn r.cfg = true → s.ringN r < ringDist (s.ringN r) (s.fld r.head 16 0) p →
        t.ringOn r.cfg = false ∧ bit (t.reg r.cfg) 6 = true ∧ s.changes raiseParts t)) ∧
  ((∀ (c : CfgId) (v : Word) (s : State), Completes (.ringEnable c v) s fun t =>
    t.ringOn c.off = bit v 5 ∧ bits (t.reg c.off) 4 0 = bits v 4 0 ∧ bits (t.reg c.off) 40 32 = bits v 40 32 ∧
    bits (t.reg c.off) 63 56 = bits v 63 56 ∧ t.out = s.out ++ [.hostDone] ∧ s.changes postParts t ∧
    (bit v 5 = true → s.ringOn c.off = false →
      match c with
      | .pair i => t.reg (cmdHead i) = 0 ∧ t.reg (cmdTail i) = 0 ∧ t.reg (RingId.cpl i).head = 0 ∧ t.reg (RingId.cpl i).tail = 0
      | .evt => t.reg RingId.evt.head = 0 ∧ t.reg RingId.evt.tail = 0
      | .log => t.reg RingId.log.head = 0 ∧ t.reg RingId.log.tail = 0
      | .trc => t.reg RingId.trc.head = 0 ∧ t.reg RingId.trc.tail = 0) ∧
    (s.ringOn c.off = true ∨ bit v 5 = false → s.regsBut [c.off] t)) ∧
  ∀ (b : BaseId) (v : Word) (s : State),
    let a := bits v 51 12 * 4096
    let size := ringSize (s.reg b.cfg) b.maxLog * b.entry
    let area := s.fld 0x8220 51 12 * 4096
    let fits := area + 4096 ≤ a ∧ a + size ≤ area + 2 ^ 24 ∧ a % size = 0
    Completes (.ringBaseWrite b v) s fun t => s.changes [.regs, .out] t ∧ t.out = s.out ++ [.hostDone] ∧
      (s.ringOn b.cfg = true → t.regs = s.regs) ∧
      (s.ringOn b.cfg = false → fits → t.fld b.off 51 12 = bits v 51 12 ∧ s.regsBut [b.off] t) ∧
      (s.ringOn b.cfg = false → ¬ fits → bit (t.reg b.cfg) 6 = true ∧ s.regsBut [b.cfg] t))

/-- R378, R381: an entry of any ring is written with PHASE 1 while HEAD is below N, else 0; HEAD's advance signals VECTOR (a message, or its pending bit
where it is masked) when MOD_TICKS + 1 ticks have passed since the last signal, and at that window's end otherwise. The signal due at the end of a window is
given then, and another not before; with no signal due nothing happens.
Commands that complete here: RING_VECTOR_SIGNAL. -/
def Obligations.VectorsAreModerated : Prop :=
  (∀ (r : RingId) (ws : List Word) (s : State), s.slotPlaced r → ws.length = r.words →
    let last := sget (fun _ => 0) s.fw.sigLast r.num
    let window := s.fld r.cfg 63 56
    let v := s.fld r.cfg 40 32
    let masked := bit (s.reg (rOff .uci 0 (0x240 + v / 64 * 8))) (v % 64)
    let t := s.ringPut r ws
    s.wrote r (setBits (ws.headD 0) 0 0 (s.phase r).toNat :: ws.drop 1) t ∧ bits (s.phase r) 0 0 = b2n (decide (s.fld r.head 16 0 < s.ringN r)) ∧
    (last = 0 ∨ later s.tick (tadd (last - 1) window) = true → sget (fun _ => 0) t.fw.sigLast r.num = s.tick + 1 ∧
      (masked = false → t.out = s.out ++ [.msi v]) ∧
      (masked = true → t.out = s.out ∧ bit (t.reg (rOff .uci 0 (0x280 + v / 64 * 8))) (v % 64) = true)) ∧
    (¬(last = 0 ∨ later s.tick (tadd (last - 1) window) = true) → t.out = s.out ∧ sget (fun _ => 0) t.fw.sigLast r.num = last ∧
      sget (fun _ => 0) t.fw.sigDue r.num = tadd (last - 1) (window + 1) + 1)) ∧
  (∀ (r : RingId) (s : State),
    let due := sget (fun _ => 0) s.fw.sigDue r.num
    let v := s.fld r.cfg 40 32
    (due = 0 ∨ later (due - 1) s.tick = true → exec (.ringVectorSignal r) s = .next s) ∧
    (due ≠ 0 → tle (due - 1) s.tick = true → Completes (.ringVectorSignal r) s fun t =>
      sget (fun _ => 0) t.fw.sigDue r.num = 0 ∧ sget (fun _ => 0) t.fw.sigLast r.num = s.tick + 1 ∧
      (bit (s.reg (rOff .uci 0 (0x240 + v / 64 * 8))) (v % 64) = true →
        bit (t.reg (rOff .uci 0 (0x280 + v / 64 * 8))) (v % 64) = true ∧ t.out = s.out) ∧
      (bit (s.reg (rOff .uci 0 (0x240 + v / 64 * 8))) (v % 64) = false → t.out = s.out ++ [.msi v]) ∧ s.changes [.regs, .fw, .out] t))

/-! ### Cores and tasks (R374, R397, R399) -/

/-- R374, R397: EPOCH_POLICY acts at ticks that 1,024 divides, takes the lease policy and gives each live core the task of its number; a live core that
misses its watchdog leaves LIVE, and is FAILED when that is its RESTART_LIMIT-th restart within 1,000 ms; after that tick TASK_REASSIGN lets a
core that is not FAILED and whose image checks rejoin. Model's readings here: logs 45, 46.
Commands that complete here: EPOCH_POLICY, WATCHDOG_RESET, TASK_REASSIGN. -/
def Obligations.CoresAndTasks : Prop :=
  (∀ s : State, (s.tick % 1024 ≠ 0 → exec .epochPolicy s = .next s) ∧
    (s.tick % 1024 = 0 → Completes .epochPolicy s fun t => t.fw = { s.fw with epochPolicy := (s.reg (rOff .hdg 0 0x210)).toNat } ∧
      (∀ k ∈ s.liveCores, t.tasksOf k / 2 ^ k % 2 = 1) ∧ s.changes [.regs, .fw] t)) ∧
  (∀ (k : Fin 8) (s : State), (bit (s.reg 0x8208) k = false → exec (.watchdogReset k) s = .next s) ∧
    (bit (s.reg 0x8208) k = true →
      let recent := s.fw.restarts.filter fun r => decide (r.1 = k.val) && decide (tsub s.tick r.2 * s.periodNs ≤ 10 ^ 9)
      let failed := decide (max 1 (s.fld 0x8210 23 16) ≤ recent.length + 1)
      Completes (.watchdogReset k) s fun t => bit (t.reg 0x8208) k = false ∧ t.fld (coreReg k) 57 56 = (if failed then 2 else 1) ∧
        bit (t.reg 0x8208) (if failed then 16 + k else 8 + k) = true ∧ t.fw.restarts = s.fw.restarts ++ [(k.val, s.tick)] ∧
        t.fw.moving = s.fw.moving ++ [(k.val, s.tick)])) ∧
  ∀ (k : Fin 8) (w : Nat) (s : State), s.fw.moving = [(k.val, w)] → later s.tick w = true → s.liveCores ≠ [] → s.fld (coreReg k) 57 56 ≠ 2 →
    s.sramOk = true →
    Completes .taskReassign s fun t => t.fw.moving = [] ∧ bit (t.reg 0x8208) k = true ∧ t.fld (coreReg k) 57 56 = 0 ∧
      s.changes raiseParts t

/-! ### Sluice lists, drains and pins (R58, R218, R219, R238, R361) -/

/-- R58, R219: at D a drain is over: a revoked extent is drained, the parcels that a shrink removed are free, the frames of an unpinned one
are no longer PINNED unless it has been pinned again (the model's reading, log 49). Before D nothing happens.
R218, R238: a pin whose lines are all there, with no line left to copy, takes P = I + 2, sets PINNED in both banks of the entry and ends at P with
its commands; before that nothing happens. A zero-fill that has written every line ends with VALID in both banks (R254). REPIN begins the pin of a
restored extent whose frames suffice, once admission has opened.
Commands that complete here: EXTENT_DRAINED, PIN_DONE, REPIN. -/
def Obligations.DrainsAndPinsComplete : Prop :=
  (∀ (x : BitVec 18) (s : State) (j : DrainJob) (d : Nat), s.drainOf x.toNat = some j → j.due = some d →
    (later d s.tick = true → exec (.extentDrained x) s = .next s) ∧
    (tle d s.tick = true → (∀ k ∈ s.fw.journal, k.obj ≠ .ext x.toNat) → Completes (.extentDrained x) s fun t =>
      t.tier.drains = s.tier.drains.erase j ∧
      (j.kind = .revoke → x.toNat ∈ t.tier.revDrained ∧ t.tier.parcels = s.tier.parcels ∧ t.tier.fht = s.tier.fht) ∧
      (j.kind = .shrink → ∀ ip ∈ s.extParcels x.toNat, j.newCount ≤ ip.1 →
        (sget (fun _ => ({} : ParcelOwner)) t.tier.parcels ip.2).allocated = false) ∧
      (j.kind = .unpin → t.tier.parcels = s.tier.parcels ∧ ((s.exttNow x.toNat).pinned = false → s.pinPending x.toNat = false →
        ∀ ip ∈ s.extParcels x.toNat, ∀ f, s.frameOf ip.2 = some f → (t.fhtOf f).st ≠ .pinned)) ∧
      s.changes (.tier :: raiseParts) t)) ∧
  ((∀ (x : BitVec 18) (s : State) (j : PinJob), s.tier.pins.find? (fun k => decide (k.ext = x.toNat)) = some j →
    (j.zero = false →
      (j.p = none → s.allResident x.toNat = false → exec (.pinDone x) s = .next s) ∧
      (j.p = none → s.allResident x.toNat = true → j.copy.getD (s.cleanLines x.toNat) = [] → Completes (.pinDone x) s fun t =>
        { j with p := some s.effectTick, copy := some [] } ∈ t.tier.pins ∧ x.toNat ∈ t.tier.pinOrder ∧
        (s.entryPlaced .extt x.toNat →
          (∀ b, t.entryMem .extt b x.toNat = { s.exttNow x.toNat with pinned := true }.words) ∧
          t.tier.invals = s.tier.invals ++ [⟨.extt, x.toNat, 1, s.effectTick⟩] ∧ s.changes (.tier :: lineParts) t)) ∧
      (∀ p, j.p = some p → later p s.tick = true → exec (.pinDone x) s = .next s) ∧
      (∀ p, j.p = some p → tle p s.tick = true → Completes (.pinDone x) s fun t => t.pinPending x.toNat = false ∧
        (∀ k ∈ t.fw.journal, k.wait ≠ .pin x.toNat) ∧ s.changes (.tier :: raiseParts) t)) ∧
    (j.zero = true → j.copy = some [] → (∀ k ∈ s.fw.journal, k.wait ≠ .pin x.toNat) → Completes (.pinDone x) s fun t =>
      t.pinPending x.toNat = false ∧ s.changes (.tier :: lineParts) t ∧
      (s.entryPlaced .extt x.toNat → ∀ b, t.entryMem .extt b x.toNat = { s.exttNow x.toNat with valid := true }.words))) ∧
  (∀ s : State, s.opened = false ∨ s.stopped = true ∨ s.tier.repins = [] → exec .repin s = .next s) ∧
  ∀ (x : Nat) (s : State), s.opened = true → s.stopped = false → s.tier.repins = [x] → s.pinFits x = true →
    Completes .repin s fun t => t.tier.repins = [] ∧ t.pinPending x = true ∧ s.changes [.tier, .fresh] t)

/-! ### Ticks and shares (R67 to R70, R96, R97, R223) -/

/-- R67, R15, R96, R97, R223, R68 to R70: while the main rails stand a boundary moves network time to the next whole multiple of the period, numbers the tick by it and starts the
tick's counts at 0; a demand report hands over the demand; every owner's shares for a class add up to 64; EBB_BOOK books f x B_full bytes for
tick n + 49; a period change waits until admission has stopped and every PCT has passed, then moves time to a whole multiple of the new
period, completes its TICK_SET and begins the sequence of the next one that waits. Model's readings here: logs 28, 54, 78.
Commands that complete here: TICK_PERIOD_APPLY, TICK_BOUNDARY, DEMAND_REPORT, SHARE_MESSAGE, EBB_BOOK. -/
def Obligations.TicksAndShares : Prop :=
  (∀ (env : TickEnv) (s : State), s.pins.mainPg = false → exec (.tickBoundary env) s = .next s) ∧
  (∀ (env : TickEnv) (s : State), s.pins.mainPg = true → s.adm.ingress = [] → Completes (.tickBoundary env) s fun t =>
    t.tim.netTime = (s.tim.netTime / s.periodNs + 1) * s.periodNs ∧ t.tick = (s.tim.netTime / s.periodNs + 1) % 2 ^ 48 ∧
    t.tim.periodQ = s.tim.periodQ ∧ t.fw.cmdUsed = 0 ∧ t.fw.trcUsed = 0 ∧ t.coh.snoopUsed = []) ∧
  (∀ s : State, exec .demandReport s = .next { s with adm := { s.adm with report := s.adm.demand, demand := [] } }) ∧
  (∀ (lost : List (Fin 4 × Fin 4)) (s : State), Completes (.shareMessage lost) s fun t =>
    (∀ o < 4, ∀ c < 8, sget (fun _ => []) t.adm.nextShares (o * 8 + c) = s.sharesOf o c ∧ (s.sharesOf o c).length = 4 ∧
      (s.sharesOf o c).sum = 64) ∧ s.changes [.adm] t) ∧
  (∀ (tile : Fin 4) (s : State),
    let f := s.ebbFraction
    let n := f.1 * s.bFull / f.2
    s.bFull = 12000 * s.tim.periodQ / 4 ∧ 0 < f.2 ∧ f.1 ≤ f.2 ∧ (s.hasFlash = false → exec (.ebbBook tile) s = .next s) ∧
    (s.hasFlash = true → s.blockReset .tier = false → Completes (.ebbBook tile) s fun t => t.reg (rOff .tier tile 0x230) = (place 31 24 (100 * f.1 / f.2) ||| place 23 0 n) ∧
      sget (fun _ => 0) t.tier.ebbLevel (tile * tickMod + tadd s.tick 49) = n ∧ s.regsBut [rOff .tier tile 0x230] t ∧
      s.changes [.regs, .tier, .hmc] t)) ∧
  (∀ s : State, s.tim.period = none → exec .tickPeriodApply s = .next s) ∧
  ∀ (s : State) (j : PeriodJob), s.tim.period = some j →
    (later j.stopAt s.tick = true ∨ s.stopped = false ∨ (∃ m, s.latestPct = some m ∧ later s.tick m = false) →
      exec .tickPeriodApply s = .next s) ∧
    (tle j.stopAt s.tick = true → s.stopped = true → (∀ m, s.latestPct = some m → later s.tick m = true) → j.q ≠ 0 →
      (s.fw.journal.filter fun k => decide (k.wait = .tickSet)).length ≤ 1 → Completes .tickPeriodApply s fun t =>
        t.tim.period = (s.tim.periodNext.head?.map fun q => ⟨q, tadd t.tick 1⟩) ∧ t.tim.periodNext = s.tim.periodNext.tail ∧ t.tim.periodQ = j.q ∧ t.tim.netTime % (j.q * 250) = 0 ∧
        t.tick = t.tim.netTime / (j.q * 250) % 2 ^ 48 ∧ ∀ k ∈ t.fw.journal, k.wait ≠ .tickSet)

/-! ### Packets (R308 to R318) -/

/-- R308 to R310: a port that is not in UP takes no packet; on one that is, a packet that must wait behind others of its VC, or for a reply of the
port's allowance, joins those that wait; else a transit packet joins its ingress VC with the banks of the route
table and the filter of the moment, a READ, WRITE, PUSH or Bulk request that passes check 1 joins the intake queue of its port, an ECHO of at most 64 bytes is answered
with ECHO_REPLY and its own bytes. Model's readings here: logs 33, 62.
Commands that complete here: PACKET_ARRIVAL, ECHO. -/
def Obligations.PacketsArrive : Prop :=
  ∀ (p : Fin 32) (k : Packet) (s : State),
    (∀ vc : Fin 8, s.linkState p ≠ 4 ∨ s.portsStopped = true →
      exec (.packetArrival p vc k) s = .next { s with fresh := s.fresh + 1 }) ∧
    (∀ vc : Fin 8, s.linkState p = 4 → s.portsStopped = false → s.mustWait p vc k = true → Completes (.packetArrival p vc k) s fun t =>
      t.adm.ingress = s.adm.ingress ++ [(p.val, vc.val, k)] ∧ s.changes [.adm, .fab, .fresh] t) ∧
    (∀ vc : Fin 8, s.linkState p = 4 → s.portsStopped = false → s.mustWait p vc k = false → k.lenOk = true →
      k.dst ≠ s.devEid → k.dst ≠ 0xFFFFF → Completes (.packetArrival p vc k) s fun t =>
        t.fab.transit = s.fab.transit ++ [⟨k, p, vc, s.tick, false, s.activeBank .rtt, s.activeBank .tft, false, false⟩] ∧ s.changes [.fab, .fresh] t) ∧
    (s.takes p k → k.dst = s.devEid → k.dst ≠ 0xFFFFF → k.opcode ∈ ([1, 2, 4, 6, 7] : List Byte) → s.arrivalStatus k = none →
      Completes (.packetArrival p 0 k) s fun t => t.adm.intake = s.adm.intake ++ [⟨k, none, p, s.tick⟩] ∧
        s.changes [.regs, .adm, .fab, .fresh] t) ∧
    (s.takes p k → k.dst = s.devEid ∨ k.dst = 0xFFFFF → k.opcode = 0x31 → k.payload.length ≤ 64 → Completes (.echo p k) s fun t =>
      (∃ e, (t.sched p).queue = (s.sched p).queue ++ [e] ∧ e.cls = .reply ∧ e.pkt.opcode = 0x32 ∧ e.pkt.dst = k.src ∧ e.pkt.tag = k.tag ∧
        e.pkt.payload = k.payload) ∧ s.changes [.regs, .fab] t)

/-- From R312 to R315, R317 and R426, on ports on which nothing else waits: the head of an ingress VC whose route is cached, undamaged, leaves for
a usable candidate, the first one when it is ordered, where the links between tiles have room for it, and otherwise waits for them; without the
cached entry it waits for the route, which the slice then remembers, and leaves. From R310: a held packet is taken again in its next tick with the
banks then active, by its cached route where it has one; one that the filter still refuses is answered ACCESS once the filter has a reply to
spend. A route whose read fails its check drops the packet (R255). Model's readings here: log 25.
Commands that complete here: TRANSIT_FORWARD, FILTER_HELD_RETRY, ROUTE_MISS_FILL. -/
def Obligations.TransitPacketsAreForwarded : Prop :=
  ∀ (p : Fin 32) (vc : Fin 8) (s : State), s.adm.ingress = [] →
    (s.transitHead p vc = none →
      exec (.transitForward p vc) s = .next s ∧ exec (.filterHeldRetry p vc) s = .next s ∧ exec (.routeMissFill p vc) s = .next s) ∧
    ∀ x : TransitPkt, s.transitHead p vc = some x →
      let m := fun (bank : Bool) => s.memo (p / 8) bank x.pkt.dst
      let hit := fun (bank : Bool) => (m bank).valid = true ∧ (m bank).bad = false
      let fits := fun (o : Nat) => s.crossFits (p / 8) (o / 8) (20 + x.pkt.payload.length) = true
      let turned := fun (y : TransitPkt) (t : State) => t.fab.transit = s.fab.transit.map fun z => if z = x then y else z
      let goes := fun (bank : Bool) (t : State) => ∃ o, s.forwarded x bank o t ∧ o ∈ s.usable (s.rtt bank x.pkt.dst.toNat) (some x.port) ∧
        (x.pkt.ordered = true → (s.usable (s.rtt bank x.pkt.dst.toNat) (some x.port)).head? = some o)
      let room := (s.fab.transit.filter fun y => y.waiting && decide (y.port / 8 = p.val / 8)).length < 64
      (x.waiting = false → x.held = false →
        (x.crossing = true ∨ hit x.bank → s.routed x x.bank x.tft →
          ((∀ o, fits o) → Completes (.transitForward p vc) s (goes x.bank)) ∧
          ((∀ o ∈ s.usable (s.rtt x.bank x.pkt.dst.toNat) (some x.port), ¬ fits o) →
            Completes (.transitForward p vc) s (turned { x with crossing := true }))) ∧
        (x.crossing = false → ¬ hit x.bank → room → Completes (.transitForward p vc) s fun t => turned { x with waiting := true } t ∧
          (t.memo (p / 8) x.bank x.pkt.dst).valid = false ∧ s.changes [.regs, .fab, .fresh] t)) ∧
      (x.held = true → tle x.arrived s.tick = true →
        let b := s.activeBank .rtt
        let f := s.activeBank .tft
        (hit b → s.routed x b f → (∀ o, fits o) → Completes (.filterHeldRetry p vc) s (goes b)) ∧
        (hit b → (s.rtt b x.pkt.dst.toNat).valid = true → (s.rtt b x.pkt.dst.toNat).filter = true → s.filterPass x.pkt f = false →
          s.filterRoom x.port = true → s.linkState x.port = 4 → Completes (.filterHeldRetry p vc) s fun t =>
            s.replies x.port (s.statusPkt x.pkt.src x.pkt.dst x.pkt.ctxid x.pkt.tag stAccess 0 0) t ∧
            t.fab.transit.length + 1 = s.fab.transit.length)) ∧
      (x.waiting = true →
        let i := x.pkt.dst.toNat
        let ln := (s.regionPhys (s.entryAddr .rtt x.bank i)).getD 0 / 256
        (s.fetchLine ln = none → exec (.routeMissFill p vc) s = .next s) ∧
        (s.fetchLine ln ≠ none → s.regionLineBad ln = false → (s.rtt x.bank i).valid = true → s.olds .rtt x.bank i = [] → (∀ o, fits o) →
          s.routed x x.bank x.tft → Completes (.routeMissFill p vc) s fun t => (t.memo (p / 8) x.bank x.pkt.dst).valid = true ∧ goes x.bank t) ∧
        (s.fetchLine ln ≠ none → s.regionLineBad ln = true → Completes (.routeMissFill p vc) s fun t =>
          t.fab.transit.length + 1 = s.fab.transit.length ∧ bit (t.reg (rOff .rtr (p / 8) 0x20)) 4 = true))

/-! ### Time (R308, R492, R493) -/

/-- R492, R493: a beacon is kept with its stratum and its time; a PPS edge counts while PPS_EN is set, 0.9 s or more after the last one, and steps time to its whole second as the
first offset before admission opens; beacons go out on every port in UP once per BEACON_US; with no edge and no candidate for their times the
device is in HOLDOVER with stratum 255. Model's readings here: logs 30, 31.
Commands that complete here: TIME_BEACON, BEACON_SEND, PPS_EDGE, HOLDOVER. -/
def Obligations.TimeIsKept : Prop :=
  (∀ (p : Fin 32) (k : Packet) (ns : Nat) (s : State), s.takes p k → k.opcode = 0x30 → k.dst = 0xFFFFF →
    Completes (.timeBeacon p k ns) s fun t => (t.beacon p).seen = true ∧ (t.beacon p).stratum = bits (k.word 1) 7 0 ∧
      (s.opened = true ∨ s.tim.gotTime = true → (t.beacon p).at' = ns) ∧ (t.beacon p).offset = ((k.word 0).toNat : Int) + (s.fld (rOff .lnk p 0x218) 15 0 / 2 : Nat) - (ns : Nat) ∧
      s.changes (.tim :: .fab :: .fresh :: raiseParts) t) ∧
  (∀ (ns : Nat) (s : State), (bit (s.reg 0x2210) 0 = false ∨ s.ppsSpaced ns = false → exec (.ppsEdge ns) s = .next s) ∧
    (bit (s.reg 0x2210) 0 = true → s.ppsSpaced ns = true → Completes (.ppsEdge ns) s fun t => t.tim.gotTime = true ∧
      (s.opened = true ∨ s.tim.gotTime = true → t.tim.lastPps = some ns) ∧
      (s.opened = false → s.tim.gotTime = false →
        t.tim.netTime = (Int.ofNat s.tim.netTime + ((((ns + 10 ^ 9 / 2) / 10 ^ 9 * 10 ^ 9 : Nat) : Int) - (ns : Nat))).toNat) ∧
      s.changes (.tim :: .fresh :: raiseParts) t)) ∧
  (∀ s : State, (bit (s.reg 0x2210) 1 = false ∨ s.tim.netTime < s.tim.lastSend + s.beaconUs * 1000 → exec .beaconSend s = .next s) ∧
    (bit (s.reg 0x2210) 1 = true → s.tim.lastSend + s.beaconUs * 1000 ≤ s.tim.netTime → Completes .beaconSend s fun t =>
      t.tim = { s.tim with lastSend := s.tim.netTime } ∧
      (∀ p < 32, (t.sched p).queue.length = (s.sched p).queue.length + (if s.linkState p = 4 then 1 else 0)) ∧
      s.changes [.tim, .fab, .regs, .fresh] t)) ∧
  ∀ s : State,
    let lost := s.noPps = true ∧ s.bestSource = none ∧ s.tim.noCand + 3 * s.beaconUs * 1000 ≤ s.tim.netTime
    (¬ lost → exec .holdover s = .next s) ∧
    (lost → Completes .holdover s fun t => bit (t.reg 0x2218) 8 = true ∧ bit (t.reg 0x2218) 9 = false ∧ t.tim.ownStratum = 255 ∧
      s.changes (.tim :: raiseParts) t)

/-! ### Admission (R31, R56, R71, R78, R81, R109, R284, R432) -/

/-- R81, R31, R71: a request that its Headgate takes (READ, WRITE, LOOKUP_BATCH, PUSH, ATOMIC, BULK_READ and BULK_COPY at the tile of their
port, RD_S, RD_X, UPG, WB, WBS, EVS and an ATOMIC on a coherent extent at their home), whose step 1 leaves a demand map and every charge of
which fits, is admitted whole: it is bound to its packet, tick, banks, epoch and PCT, and every charge is reserved; of one whose map does
not fit no request and no claim is kept; one of a port that step 1 itself ends is ended so. Model's readings here: logs 24, 32, 135.
Commands that complete here: LOOKUP_BATCH, READ, WRITE, PUSH, ATOMIC, BULK_READ, BULK_COPY, RD_S, RD_X, UPG, WB, WBS, EVS. -/
def Obligations.RequestsAreAdmittedWhole : Prop :=
  (∀ (p : Fin 32) (s : State) (q : Queued) (a : Ask), s.aged q = false → s.stopped = false →
    let u := (s.unqueue q).countHead (p / 8)
    let whole := fun (row : Instr) =>
      (a.d.fits (p / 8) = true → Completes row s fun t => s.took a q.pkt p t ∧ t.adm.intake = s.adm.intake.erase q) ∧
      (a.d.fits (p / 8) = false → Completes row s fun t => t.adm.reqs = s.adm.reqs ∧ t.adm.claims = s.adm.claims ∧
        t.adm.nextRid = s.adm.nextRid ∧ t.adm.intake = s.adm.intake.erase q)
    (s.headOf p 1 = some q → u.decideRead p q = .inr a → whole (.read p)) ∧
    (s.headOf p 2 = some q → u.decideWrite p q = .inr a → whole (.write p)) ∧
    (s.headOf p 3 = some q → u.decideBatch p q = .inr a → whole (.lookupBatch p)) ∧
    (s.headOf p 4 = some q → u.decidePush p q = .inr a → whole (.push p)) ∧
    (s.headOf p 5 = some q → u.decideAtomic p q = .inr a → whole (.atomic p)) ∧
    (s.headOf p 6 = some q → u.decideBulk p false q = .inr a → whole (.bulkRead p)) ∧
    (s.headOf p 7 = some q → u.decideBulk p true q = .inr a → whole (.bulkCopy p))) ∧
  (∀ (p : Fin 32), ∀ row ∈ fabricRows p, ∀ (s : State) (q : Queued) (t : State), s.headOf p row.1 = some q → s.aged q = false →
    s.stopped = false → row.2.2 ((s.unqueue q).countHead (p / 8)) q = .inl t → exec row.2.1 s = .next t) ∧
  ∀ (tile : Fin 4) (s : State) (q : Queued) (a : Ask), s.aged q = false → s.stopped = false →
    let u := { s with adm := { s.adm with homeQ := s.adm.homeQ.erase (tile.val, q) } }.countHead tile
    let whole := fun (row : Instr) =>
      (a.d.fits tile = true → Completes row s fun t => s.took a q.pkt q.port t ∧ t.adm.homeQ = s.adm.homeQ.erase (tile.val, q)) ∧
      (a.d.fits tile = false → Completes row s fun t => t.adm.reqs = s.adm.reqs ∧ t.adm.claims = s.adm.claims ∧
        t.adm.nextRid = s.adm.nextRid ∧ t.adm.homeQ = s.adm.homeQ.erase (tile.val, q))
    let home := fun (msg : Nat) => s.homeHead tile (cohIs msg) = some q
    (home 0 → u.decideCoh tile 0 (fun w m full _ => cohRdS w m full) q = .inr a → whole (.rdS tile)) ∧
    (home 1 → u.decideCoh tile 1 cohRdX q = .inr a → whole (.rdX tile)) ∧
    (home 2 → u.decideCoh tile 2 cohUpg q = .inr a → whole (.upg tile)) ∧
    (home 3 → u.decideCoh tile 3 (fun w m _ _ => cohWb w m false) q = .inr a → whole (.wb tile)) ∧
    (home 4 → u.decideCoh tile 4 (fun w m _ _ => cohWb w m true) q = .inr a → whole (.wbs tile)) ∧
    (home 5 → u.decideCoh tile 5 (fun w m _ _ => cohEvs w m) q = .inr a → whole (.evs tile)) ∧
    (∀ (p : Fin 32), p.val / 8 = tile.val → s.headOf p 5 = none → s.homeHead tile (fun k => decide (k.opcode = 5)) = some q →
      u.decideHomeAtomic tile q = .inr a → whole (.atomic p))

/-- R78, R432, R109: with no head that the Headgate may take a row does nothing; one that has waited ceil(64 / P) ticks is refused LATE, and one
that finds admission stopped STOPPED. Fragment 0 of a batch opens its assembly, and ends it when it is the only one; an assembly that is not
complete within ceil(8 / P) ticks goes. Model's readings here: log 24.
Commands that complete here: BATCH, ASSEMBLY_TIMEOUT. -/
def Obligations.IntakeQueues : Prop :=
  (∀ (p : Fin 32), ∀ row ∈ fabricRows p, ∀ (s : State), (s.headOf p row.1 = none → row.1 ≠ 5 → exec row.2.1 s = .next s) ∧
    ∀ q, s.headOf p row.1 = some q →
      (s.aged q = true → exec row.2.1 s = .next ((((s.unqueue q).countHead (p / 8)).freeAsm q).refusePkt (p / 8) p q.pkt 0xC)) ∧
      (s.aged q = false → s.stopped = true → exec row.2.1 s = .next ((((s.unqueue q).countHead (p / 8)).freeAsm q).refusePkt (p / 8) p q.pkt 0xE))) ∧
  (∀ (p : Fin 32) (k : Packet) (s : State), s.takes p k → k.dst = s.devEid → k.dst ≠ 0xFFFFF → k.opcode = 3 → bits (k.word 0) 6 0 = 0 →
    s.arrivalStatus k = none → (s.adm.asm.find? fun a => asmMatch p k a && !a.2.complete) = none →
    s.asmUsed p + bits (k.word 0) 14 8 + 1 ≤ 128 →
    Completes (.batch p k) s fun t => ∃ b : Assembly, t.adm.asm = s.adm.asm ++ [(p.val, b)] ∧ b.next = 1 ∧ b.data = k.payload.drop 8 ∧
      b.first = k ∧ b.opened = s.tick ∧ b.complete = decide (bits (k.word 0) 14 8 = 0) ∧
      (bits (k.word 0) 14 8 = 0 → t.adm.intake = s.adm.intake ++ [⟨k, some (b.data, b.poison), p, s.tick⟩]) ∧
      (bits (k.word 0) 14 8 ≠ 0 → t.adm.intake = s.adm.intake)) ∧
  ∀ (p : Fin 32) (s : State),
    let dead := fun (a : Nat × Assembly) => decide (a.1 = p.val) && !a.2.complete && later s.tick (tadd a.2.opened s.asmTicks)
    ((∀ a ∈ s.adm.asm, dead a = false) → exec (.assemblyTimeout p) s = .next s) ∧
    Completes (.assemblyTimeout p) s fun t => t.adm.asm = s.adm.asm.filter (fun a => !dead a) ∧ t.adm.intake = s.adm.intake

/-! ### Coherence (R279, R285 to R288, R292, R293) -/

/-- R285: a request that is granted E or M finds the line in I or held by the requester alone at the head of its entry, and leaves an entry in which
the requester is the one holder; a write back is admitted of the owner only; at the tile's limit RD_X and UPG are not granted. Model's readings
here: log 34. -/
def Obligations.ExclusiveGrantsHaveOneHolder : Prop :=
  ∀ (w : Word) (m : Nat) (full : Bool) (others : List Nat) (new : Word) (g : Nat) (wd wr : Bool), m < 1024 →
    (∀ act ∈ [cohRdS w m full, cohRdX w m full others, cohUpg w m full others], act = .allows new g wd wr →
      (2 ≤ g → (dState w = 0 ∨ (dPtrs w).headD 0 = m) ∧ (dState w = 1 → dPtrs w = [m] ∧ dOvf w = false) ∧ dState new = g ∧ dPtrs new = [m]) ∧
      (g < 2 → dState new = 1) ∧ wr = false) ∧
    (∀ keep, cohWb w m keep = .allows new g wd wr → 2 ≤ dState w ∧ (dPtrs w).headD 0 = m ∧ dState new = (if keep then 1 else 0) ∧ wr = true) ∧
    (full = true → cohRdX w m full others = .limit ∧ cohUpg w m full others = .limit)

/-- From R286 to R288 and R292: a member's response that no earlier packet of its stream waits before (RSP_ACK, RSP_DATA) answers the snoop that
waits for it; when it was the last, no admitted work on the line is still to land, the domain has not reached the boundary at which it goes DOWN
and the tick has slots left, the entry is written and the recall complete; one for an older epoch or with no such recall leaves the recalls as
they are. Complete recalls of the tile close when they expire, the others stay (log 177). An invalidating snoop, the only one of the only recall, goes out
within quota and budget on the first usable port; the only snoop of the only recall, unanswered past the timeout, takes its domain DOWN. Model's
readings here: logs 31, 73.
Commands that complete here: RSP_ACK, RSP_DATA, RECALL_EXPIRE, SNOOP_SEND, SNOOP_TIMEOUT. -/
def Obligations.RecallsAndSnoops : Prop :=
  (∀ (p : Fin 32) (k : Packet) (s : State) (x off dn : Nat), s.takes p k → k.dst = s.devEid → k.dst ≠ 0xFFFFF → k.opcode = 9 →
    s.inComputeReset = false → s.check1 k = true → s.streamAhead k = none → ptrOf (k.word 1) = .at' x off → bits (k.word 0) 33 22 = dn →
    let answered := fun (row : Instr) =>
      (∀ (r : Recall) (m : Nat), (s.dom dn).st = .active → (s.dom dn).epoch.toNat = bits (k.word 0) 15 0 → s.recallOf x (off / 256) = some r →
        s.memberOf (s.domt s.banks dn) k.src = some m → r.domain = dn →
        (∃ n ∈ r.snoops, n.member = m ∧ n.answered = false ∧ n.sent ≠ none) →
        let r' : Recall := { r with
          snoops := r.snoops.map fun n => if n.member = m then { n with answered := true } else n
          data := if bits (k.word 0) 19 16 = 0xD ∧ k.payload.length = 272 then
            some (k.payload.drop 16, (List.range 256).any fun i => k.bytePoison (16 + i)) else r.data }
        let written := r.complete = false ∧ r'.snoops.all (·.answered) = true ∧ s.linePending x (off / 256) = false ∧
          s.fallen dn = false ∧ s.spareRoom (s.recallSlots r') = true
        (written → Completes row s fun t => t.recallOf x (off / 256) = some { r' with complete := true, data := none }) ∧
        (¬ written → Completes row s fun t => t.recallOf x (off / 256) = some r' ∧ t.hbm = s.hbm)) ∧
      ((s.dom dn).st ≠ .active ∨ (s.dom dn).epoch.toNat ≠ bits (k.word 0) 15 0 ∨ s.recallOf x (off / 256) = none →
        Completes row s fun t => t.coh = s.coh ∧ t.hbm = s.hbm)
    (bits (k.word 0) 19 16 = 0xC → answered (.rspAck p k)) ∧ (bits (k.word 0) 19 16 = 0xD → answered (.rspData p k))) ∧
  (∀ (tile : Fin 4) (s : State), Completes (.recallExpire tile) s fun t =>
    (∀ r, r ∈ t.coh.recalls ↔ r ∈ s.coh.recalls ∧
      ¬(r.tile = tile.val ∧ tle r.expires s.tick = true ∧ r.complete = true)) ∧ s.changes [.coh] t) ∧
  (∀ (tile : Fin 4) (s : State), (∀ r ∈ s.coh.recalls, r.tile = tile.val → ∀ n ∈ r.snoops, n.sent ≠ none) →
    exec (.snoopSend tile) s = .next s) ∧
  (∀ (tile : Fin 4) (s : State) (r : Recall) (n : Snoop) (eid : BitVec 20) (p : Nat), s.coh.recalls = [r] → r.tile = tile.val → r.snoops = [n] →
    n.sent = none → n.msg = 8 → s.coh.snoopUsed = [] → 0 < (s.domt s.banks r.domain).quota →
    0 < s.perTick (max 16 (s.fld (rOff .coh tile 0x200) 15 0)) → s.member (s.domt s.banks r.domain) n.member = some eid →
    s.firstUsable eid = some p → Completes (.snoopSend tile) s fun t =>
      t.coh.recalls = [{ r with snoops := [{ n with sent := some s.tick }] }] ∧
      (∃ e, (t.sched p).queue = (s.sched p).queue ++ [e] ∧ e.cls = .snoop ∧ e.pkt.dst = eid ∧ e.pkt.opcode = 0x24) ∧
      s.changes [.coh, .fab, .regs, .fresh] t) ∧
  ∀ (tile : Fin 4) (s : State), ((∀ r ∈ s.coh.recalls, r.tile = tile.val → ∀ n ∈ r.snoops, n.answered = true ∨ n.sent = none) →
      exec (.snoopTimeout tile) s = .next s) ∧
    ∀ (r : Recall) (n : Snoop) (u : Nat), s.coh.recalls = [r] → r.tile = tile.val → r.snoops = [n] → n.sent = some u → n.answered = false →
      let b := tadd u ((s.domt s.banks r.domain).timeout + 1)
      tle b s.tick = true → (s.dom r.domain).st = .active → (s.dom r.domain).goingDown = none →
      Completes (.snoopTimeout tile) s fun t => (t.dom r.domain).goingDown = some (b, 1, BitVec.ofNat 10 n.member) ∧ s.changes [.coh] t

/-- R292, R293: a domain whose boundary has come goes DOWN with its cause: its requests and recalls are gone and DOM_STOP completes; before it
nothing happens. Where one domain stands and is DOWN, a sweep of at most n lines moves its cursor of the tile on by at most n, and by one at
least where the tick has slots for the next line, until the domain is QUIET.
Commands that complete here: DOMAIN_DOWN, DOMAIN_SWEEP. -/
def Obligations.DomainsGoDown : Prop :=
  (∀ (d : BitVec 12) (s : State) (b : Nat) (c : BitVec 4) (u : BitVec 10), (s.dom d.toNat).goingDown = some (b, c, u) →
    (later b s.tick = true → exec (.domainDown d) s = .next s) ∧
    (tle b s.tick = true → (s.dom d.toNat).st = .active → Completes (.domainDown d) s fun t =>
      ((t.dom d.toNat).st = .down ∨ (t.dom d.toNat).st = .quiet) ∧ (t.dom d.toNat).cause = c ∧ (t.dom d.toNat).culprit = u ∧
      (t.dom d.toNat).downTick = s.tick ∧ (t.dom d.toNat).goingDown = none ∧ (∀ r ∈ t.adm.reqs, r.domain ≠ some d.toNat) ∧
      (∀ r ∈ t.coh.recalls, r.domain ≠ d.toNat) ∧ ∀ j ∈ t.fw.journal, ¬(j.obj = .dom d.toNat ∧ j.opcode = 0x32))) ∧
  ∀ (tile : Fin 4) (n : Nat) (s : State),
    ((∀ e ∈ s.coh.doms, e.2.st ≠ .down ∨ e.2.sweepHeld = true) → exec (.domainSweep tile n) s = .next s) ∧
    ∀ (d : Nat) (m : Dom), s.coh.doms = [(d, m)] → m.st = .down → m.sweepHeld = false → m.sweep.length = 4 →
      let c := m.sweep.getD tile 0
      ∀ l, s.nextSweep d tile = some l → Completes (.domainSweep tile n) s fun t =>
        (t.dom d).st = .quiet ∨ ((t.dom d).st = .down ∧ c ≤ (t.dom d).sweep.getD tile 0 ∧ (t.dom d).sweep.getD tile 0 ≤ c + n ∧
          (0 < n → s.spareRoom (s.sweepSlots l.1 l.2) = true → c < (t.dom d).sweep.getD tile 0))

/-! ### The stages of admitted requests (R72, R113, R129, R133, R179) -/

/-- R72, R113, R129, R216: the rows of a request's stages act in their ticks alone. ROW_PHASE, in T + 1 and once, reads a resident line of a READ into
its data; FLASH_SENSE and SECTOR_TRANSFER mark the groups whose sense frame or transfer runs now; FILL_WRITE fills the groups whose tick it is, and of a
request with one missed line makes that line, if ABSENT, CLEAN with the bytes of the copy that its probe named; CONFLUENCE builds a batch's
result, once. A request that is not there has no stage. Model's readings here: logs 29, 68.
Commands that complete here: ROW_PHASE, FLASH_SENSE, SECTOR_TRANSFER, FILL_WRITE, CONFLUENCE. -/
def Obligations.StagesRunInTheirTicks : Prop :=
  ∀ (rid : Nat) (s : State),
    (s.reqOf rid = none → exec (.rowPhase rid) s = .next s ∧ exec (.flashSense rid) s = .next s ∧ exec (.sectorTransfer rid) s = .next s ∧
      exec (.fillWrite rid) s = .next s ∧ exec (.confluence rid) s = .next s) ∧
    ∀ r : Req, s.reqOf rid = some r →
      let misses := fun (f : Miss → Miss) (t : State) => t.reqOf rid = some { r with misses := r.misses.map f }
      (tadd r.admitTick 1 ≠ s.tick ∨ (r.rowDone = true ∧ ∀ w ∈ s.dueLanding, r.stream w = false) → exec (.rowPhase rid) s = .next s) ∧
      (∀ (x off n ln : Nat) (d bs : List Byte) (m : BitVec 32) (psn : Bool) (u : State), tadd r.admitTick 1 = s.tick → r.rowDone = false →
        r.work = .read x off n d m false → r.misses = [] → linesOf off n = [ln] → 0 < n → (∀ w ∈ s.dueLanding, r.stream w = false) →
        s.viewLines [] r.banks (s.ctxt r.banks r.ctx.toNat) r.ctx.toNat x [ln] = (some (bs, psn), u) →
        Completes (.rowPhase rid) s fun t => t.reqOf rid = some { r with
          work := .read x off n ((bs.drop (off % 256)).take n ++ d.drop n) (if psn then m ||| 1 else m) false, rowDone := true }) ∧
      Completes (.flashSense rid) s (fun t => misses (fun m =>
        if tle m.senseAt s.tick && later (tadd m.senseAt s.senseTicks) s.tick then { m with sensed := true } else m) t ∧ s.changes [.adm] t) ∧
      Completes (.sectorTransfer rid) s (fun t => misses (fun m =>
        if m.sensed && !m.transferred && tle (tadd m.senseAt s.senseTicks) s.tick && later (tadd m.senseAt (s.senseTicks + s.xferTicks)) s.tick
          then { m with transferred := true } else m) t ∧ s.changes [.adm, .regs] t) ∧
      (let due := fun (m : Miss) => m.transferred && !m.filled && decide (tadd m.senseAt (s.senseTicks + s.xferTicks) = s.tick)
       ((∀ m ∈ r.misses, due m = false) → exec (.fillWrite rid) s = .next s) ∧
       ((∃ m ∈ r.misses, due m = true) → Completes (.fillWrite rid) s fun t => ∃ r', t.reqOf rid = some r' ∧
          r'.misses = r.misses.map fun m => if due m then { m with filled := true } else m) ∧
       ∀ (m : Miss) (l ln : Nat), r.misses = [m] → due m = true → m.lines = [l] → m.group = l / 16 → s.lineAt m.parcel l = some ln →
          s.copyBad m.copy = false → s.staleGen m.copy = false → s.hasFlash = true → s.lsmOf ln = .absent →
          s.copyPoison m.copy m.parcel l = false →
          Completes (.fillWrite rid) s fun t => t.lsmOf ln = .clean ∧ t.rdBs (ln * 256) 256 = s.copyLine m.copy l ∧
            (t.meta' ln).crcDelta = 0 ∧ (t.meta' ln).poison = false ∧ (t.fhtOf (ln / 8192)).ref = true ∧
            ∀ a, a / 256 ≠ ln → t.rdB a = s.rdB a) ∧
      (r.confTick ≠ s.tick → exec (.confluence rid) s = .next s) ∧
      ∀ secs posw query qp qb ths parts res seg st b, r.confTick = s.tick → r.work = .batch secs posw query qp qb ths parts res seg st b →
        (b = true → exec (.confluence rid) s = .next s) ∧
        (b = false → Completes (.confluence rid) s fun t =>
          (∃ res' seg' st', t.reqOf rid = some { r with work := .batch secs posw query qp qb ths [] res' seg' st' true } ∧
            seg'.length = cdiv res'.length 256 ∧ (seg'.any id = false → st' = st)) ∧ s.changes [.adm, .regs, .fresh] t)

/-- R133, R165, R185, R285, R305: in its tick a result, an acknowledgement, a push completion, an atomic result or a grant joins the queue of the
request's egress port, once, with the status that the work came to. Model's readings here: log 31.
Commands that complete here: RESULT_SEND, PUSH_COMPLETION, ATOMIC_RESULT, WRITE_ACK, GRANT_SEND. -/
def Obligations.RepliesJoinTheEgressQueue : Prop :=
  ∀ (rid : Nat) (s : State),
    (s.reqOf rid = none → exec (.resultSend rid) s = .next s) ∧
    (∀ r : Req, s.reqOf rid = some r → r.pct ≠ s.tick ∨ s.sentAlready r = true → exec (.resultSend rid) s = .next s) ∧
    (s.dueReply rid = none → exec (.writeAck rid) s = .next s ∧ exec (.pushCompletion rid) s = .next s ∧ exec (.atomicResult rid) s = .next s ∧
      exec (.grantSend rid) s = .next s) ∧
    (∀ r : Req, s.reqOf rid = some r → r.pct = s.tick → r.egress.isSome = true → s.sentAlready r = false →
      (∀ x off n d m bad, r.work = .read x off n d m bad →
        let seg := (List.range (cdiv n 256)).map fun j => m.getLsbD j
        (bad = false → Completes (.resultSend rid) s (s.sends r 0x20 (if seg.any id then stPoison else stOk) [(d, seg)])) ∧
        (bad = true → Completes (.resultSend rid) s (s.sends r 0x20 stAccess [([], [])]))) ∧
      (∀ secs posw query qp qb ths parts res seg st, r.work = .batch secs posw query qp qb ths parts res seg st true → st.toNat ≠ stAccess →
        Completes (.resultSend rid) s (s.sends r 0x20 st.toNat (cutPackets res seg))) ∧
      (∀ secs posw query qp qb ths parts res seg st, r.work = .batch secs posw query qp qb ths parts res seg st true → st.toNat = stAccess →
        Completes (.resultSend rid) s (s.sends r 0x20 stAccess [([], [])]))) ∧
    ∀ r : Req, s.dueReply rid = some r →
      (s.sentAlready r = true → exec (.writeAck rid) s = .next s ∧ exec (.pushCompletion rid) s = .next s ∧
        exec (.atomicResult rid) s = .next s ∧ exec (.grantSend rid) s = .next s) ∧
      (r.egress.isSome = true → s.sentAlready r = false →
        (∀ ps f a l, r.work = .write ps f a l →
          (ps = [] → Completes (.writeAck rid) s (s.sends r 0x20 stAccess [([], [])])) ∧
          (ps ≠ [] → a = true → Completes (.writeAck rid) s (s.sends r 0x20 stOk [([], [])])) ∧
          (ps ≠ [] → a = false → exec (.writeAck rid) s = .next s)) ∧
        (∀ x a b c rows d l, r.work = .push x a b c rows d true l →
          Completes (.pushCompletion rid) s (s.sends r 0x20 (if d = 0 then stOk else stConsumed) [(leBytes 8 d, [false])])) ∧
        (∀ x ops ret l, r.work = .atomic x ops ret l →
          Completes (.atomicResult rid) s (s.sends r 0x20 (if ops.any (·.poisoned) then stPoison else stOk)
            [(if ret then ops.flatMap fun o => wordsBytes [o.old, if o.poisoned then BitVec.ofNat 64 stPoison else 0] else [], [])])) ∧
        (∀ msg dn x ln d new g wd st reply l, r.work = .coh msg dn x ln d new g wd st reply l →
          Completes (.grantSend rid) s (s.sends r 0x24 st.toNat
            [(wordsBytes [place 15 0 (s.dom dn).epoch.toNat ||| place 19 16 0xE ||| place 21 20 g.toNat ||| place 33 22 dn, ptrTo x (ln * 256)] ++
                (if wd then reply else []), if decide (st.toNat = stPoison) then [true, true] else [])])))

/-- R179, R212, R253, R254: with nothing to land in this tick LANDING does nothing; in a tick without a tile fault, and with no recall to write, a
full-line WRITE that alone lands, its key in order, lands whole: its bytes are the line's, and the mirror line's on an Assured extent, with a
fresh CRC over them and the tag and no poison, the line DIRTY and its frame referenced, every other byte of HBM as before. One whose key fails
writes nothing. Model's readings here: log 12.
Commands that complete here: LANDING. -/
def Obligations.WritesLandWhole : Prop :=
  ∀ s : State, (s.dueLanding = [] → exec .landing s = .next s) ∧
    ∀ (r : Req) (x ln pl : Nat) (bs : List Byte) (f : BitVec 4) (l : Bool), s.adm.reqs = [r] → s.dueLanding = [r] → bs.length = 256 →
      r.work = .write [⟨x, ln, 0, bs, false⟩] f true l → r.egress.isSome = true →
      (∀ y ∈ s.coh.recalls, y.complete = true ∨ y.snoops.all (·.answered) = false) → s.tileFaults.contains s.tick = false →
      let q := s.lineRef (s.extt r.banks x) ln
      let key := (s.pkt r.banks q.1).1 && (s.ctxt r.banks r.ctx.toNat).keyOk (s.pkt r.banks q.1).2 true
      s.lineAt q.1 q.2.1 = some pl →
      (key = true → (s.fhtOf (pl / 8192)).assured = false → Completes .landing s fun t =>
        t.rdBs (pl * 256) 256 = bs ∧ t.meta' pl = { crcDelta := 0, poison := false, format := BitVec.ofNat 4 f.toNat, mirror := false,
                                                           tag := some (poolTag q.1 q.2.1) } ∧
        (s.hasFlash = true → t.lsmOf pl = .dirty) ∧ (t.fhtOf (pl / 8192)).ref = true ∧ (∀ a, a / 256 ≠ pl → t.rdB a = s.rdB a) ∧
        (∀ m, m ≠ pl → t.meta' m = s.meta' m) ∧
        t.adm.reqs = [{ r with work := .write [⟨x, ln, 0, bs, false⟩] f true true }]) ∧
      (let ml := (s.fhtOf (pl / 8192)).mirrorFrame * 8192 + q.2.1
       key = true → (s.fhtOf (pl / 8192)).assured = true → ml ≠ pl → Completes .landing s fun t =>
        t.rdBs (pl * 256) 256 = bs ∧ t.rdBs (ml * 256) 256 = bs ∧ (t.meta' pl).mirror = false ∧ (t.meta' ml).mirror = true ∧
        (s.hasFlash = true → t.lsmOf pl = .dirty) ∧ ∀ a, a / 256 ≠ pl → a / 256 ≠ ml → t.rdB a = s.rdB a) ∧
      (key = false → s.ringOn RingId.evt.cfg = false → Completes .landing s fun t => t.hbm = s.hbm ∧ t.tier = s.tier ∧
        t.adm.reqs = [{ r with work := .write [] f true true }])

/-! ### Bulk movement (R74, R76, R189 to R206, R306) -/

/-- R189, R190, R191: a HOST_BULK that its Headgate admits is ACCEPTED with a new request of its descriptor; one that ends in admission, or is
refused, leaves the outstanding requests as they are. The one parked descriptor whose retry tick has come is admitted again from its resume point (BULK_READMIT), and one that is not due stays. Model's readings here: logs 15, 37, 38.
Commands that complete here: HOST_BULK, BULK_READMIT. -/
def Obligations.HostDescriptorsAreAdmitted : Prop :=
  (∀ (e : Entry) (s : State),
    let wf := { e with flags := e.flags &&& 0xFE }.rsvOk 0xFFFF (~~~0) (~~~0) (mask 35 0) 0 0 0 0
    let d : HostDesc := ⟨e.ring, e.tag, !(e.flags.getLsbD 0), e.arg.toNat, e.w1, e.w2, bits e.w3 35 0, !wf⟩
    let go := (s.taken.journal 0x50 e .none (.bulk 0) 0).admitHost d 0
    s.admitsCommand 0x50 true true (.ctx e.arg.toNat) true →
    (go.1 = .accepted → exec (.hostBulk e) s = .next go.2 ∧ ∃ r, go.2.adm.reqs = s.adm.reqs ++ [r] ∧ r.rid = s.adm.nextRid ∧
      go.2.adm.nextRid = s.adm.nextRid + 1 ∧ r.work = .hostBulk e.ring e.tag d.toPool e.w1 e.w2 (bits e.w3 35 0) ∧ r.ctx = e.arg ∧
      r.moved = 0 ∧ r.admitTick = s.tick ∧ r.banks = s.banks) ∧
    (go.1 ≠ .accepted → Completes (.hostBulk e) s fun t => t.adm.reqs = s.adm.reqs ∧ t.adm.claims = s.adm.claims ∧
      ∀ j ∈ t.fw.journal, ¬(j.ring = e.ring.val ∧ j.tag = e.tag ∧ j.opcode = 0x50))) ∧
  ∀ (rid : Nat) (s : State),
    ((s.readmitOrder.any fun q => decide (q.req.rid = rid)) = false → exec (.bulkReadmit rid) s = .next s) ∧
    ∀ (q : Parked) (d : HostDesc), s.readmitOrder = [q] → q.req.rid = rid → q.req.desc = some d →
      ∀ (a : HostEnd) (u : State), s.admitHost d q.resume = (a, u) →
        (a = .accepted → Completes (.bulkReadmit rid) s fun t => t.adm = u.adm ∧
          t.xlt.parked = s.xlt.parked.filter fun x => decide (x.req.rid ≠ rid)) ∧
        (a = .refused 0xF ∨ (∃ st f va, a = .ends st f va) → Completes (.bulkReadmit rid) s fun t => t.adm.reqs = s.adm.reqs ∧
          t.xlt.parked = s.xlt.parked.filter fun x => decide (x.req.rid ≠ rid)) ∧
        (∀ rs, a = .refused rs → rs ≠ 0xF → Completes (.bulkReadmit rid) s fun t => t.adm.reqs = s.adm.reqs ∧
          t.xlt.parked = s.xlt.parked.map fun x => if x.req.rid = rid then { x with retry := some (u.retryOf rs) } else x)

/-- From R192 and R200 to R206: the walk of a chunk, on the tile that runs it, that translates gives the chunk its pages; one that faults or meets
a poisoned PTE, no chunk being due in this tick, takes the request off; with fault 5 or 6 and with poison nothing is parked, and with any other
fault the descriptor is parked under a new group, where the tile has room and no group of its key is open. The record of the only group is
written at HEAD once; at the boundary after a resume or an abort that group is gone: its resumed descriptors may be admitted again, aborted ones
are parked no more. Model's readings here: logs 14, 16.
Commands that complete here: BULK_WALK, FAULT_RECORD_WRITE, GROUP_CLOSE. -/
def Obligations.WalksFaultIntoGroups : Prop :=
  (∀ (rid : Nat) (s : State) (r : Req) (d : HostDesc) (ch : Chunk), s.reqOf rid = some r → r.desc = some d →
    r.chunks.find? (fun c => decide (c.tick = tadd s.tick 1) && !c.walked) = some ch →
    let w := s.walkChunk ch.tile ch.core (s.ctxt r.banks r.ctx.toNat) (!d.toPool) (d.hva.toNat + ch.off) (256 * ch.lines)
    (w.2.1 = none → Completes (.bulkWalk rid) s fun t =>
      t.reqOf rid = some { r with chunks := r.chunks.map fun x => if x = ch then { ch with walked := true, pas := w.1 } else x }) ∧
    (∀ va, w.2.1 = some (va, .poison) → r.chunks.find? (fun c => decide (c.tick = s.tick) && !c.done) = none →
      Completes (.bulkWalk rid) s fun t => t.reqOf rid = none ∧ t.xlt.parked = s.xlt.parked ∧ t.xlt.groups = s.xlt.groups) ∧
    ∀ va ty lv pte, w.2.1 = some (va, .fault ty lv pte) → r.chunks.find? (fun c => decide (c.tick = s.tick) && !c.done) = none →
      (ty = 5 ∨ ty = 6 → Completes (.bulkWalk rid) s fun t => t.reqOf rid = none ∧ t.xlt.parked = s.xlt.parked ∧ t.xlt.groups = s.xlt.groups) ∧
      (ty ≠ 5 → ty ≠ 6 → (s.xlt.parked.filter fun q => decide (q.tile = ch.tile)).length < 8192 →
        (s.groupsOn ch.tile).length < 4096 → w.2.2.fqFull ch.tile = false →
        s.xlt.groups.find? (fun g => decide (g.tile = ch.tile ∧ g.asid.toNat = (s.ctxt r.banks r.ctx.toNat).asid ∧ g.page = va / 4096 ∧
          g.write = !d.toPool)) = none →
        Completes (.bulkWalk rid) s fun t => t.reqOf rid = none ∧ ∃ g, t.xlt.groups = s.xlt.groups ++ [g] ∧ g.tile = ch.tile ∧ g.page = va / 4096 ∧
          g.type = BitVec.ofNat 4 ty ∧ g.level = lv ∧ g.pte = pte ∧ g.opened = s.tick ∧ g.waiters = 1 ∧ g.written = false ∧ g.closing = none ∧
          (∀ h ∈ s.groupsOn ch.tile, h.index ≠ g.index) ∧
          t.xlt.parked = s.xlt.parked ++ [⟨{ r with moved := ch.off }, ch.tile, ch.off, some g.index, none⟩])) ∧
  (∀ (tile : Fin 4) (s : State), ((∀ g ∈ s.groupsOn tile, g.written = true) → exec (.faultRecordWrite tile) s = .next s) ∧
    ∀ g : FaultGroup, s.xlt.groups = [g] → g.tile = tile.val → g.written = false →
      let head := s.fld (rOff .xlt tile 0x208) 12 0
      let a := s.fld (rOff .xlt tile 0x200) 51 12 * 4096 + head % 4096 * 32
      Completes (.faultRecordWrite tile) s fun t => t.fld (rOff .xlt tile 0x208) 12 0 = (head + 1) % 8192 ∧
        t.xlt = { s.xlt with groups := [{ g with written := true }] } ∧
        (s.placed a 32 → s.ringOn RingId.evt.cfg = false → t.readWords a 4 =
          [place 0 0 (b2n (decide (head < 4096))) ||| place 7 4 g.type.toNat ||| place 8 8 (b2n g.write) ||| place 11 9 g.level |||
             place 31 16 g.ctx.toNat ||| place 47 32 g.waiters ||| place 63 48 g.asid.toNat,
           place 63 12 g.page, g.pte, place 47 0 g.opened ||| place 59 48 g.index ||| place 63 60 g.gen.toNat])) ∧
  ∀ (tile : Fin 4) (s : State),
    ((∀ g ∈ s.groupsOn tile, g.closing = none) → Completes (.groupClose tile) s fun t => t.xlt = s.xlt ∧ t.adm = s.adm) ∧
    ∀ (g : FaultGroup) (abort : Bool) (i : Nat), s.xlt.groups = [g] → g.tile = tile.val → g.closing = some (abort, i) → later s.tick i = true →
      let mine := fun (q : Parked) => decide (q.tile = tile.val ∧ q.group = some g.index)
      Completes (.groupClose tile) s fun t => t.xlt.groups = [] ∧ t.adm = s.adm ∧
        t.xlt.parked = if abort then s.xlt.parked.filter fun q => !mine q
          else s.xlt.parked.map fun q => if mine q then { q with group := none, retry := some s.tick } else q

/-- From R74, R306 and R391: in its tick a chunk whose keys are in order is done: the request's first byte not moved passes the chunk, and a read
queues as many RESULT packets as its bytes need; a host descriptor whose key fails ends there. In the PCT tick a copy answers with what it moved,
and a host descriptor that has moved all completes. Model's readings here: log 39.
Commands that complete here: BULK_CHUNK, BULK_COMPLETION. -/
def Obligations.BulkMovesChunkByChunk : Prop :=
  ∀ (rid : Nat) (s : State),
    (s.reqOf rid = none → exec (.bulkWalk rid) s = .next s ∧ exec (.bulkChunk rid) s = .next s ∧ exec (.bulkCompletion rid) s = .next s) ∧
    ∀ r : Req, s.reqOf rid = some r →
      ((∀ c ∈ r.chunks, c.tick = s.tick → c.done = true) → exec (.bulkChunk rid) s = .next s) ∧
      (r.pct ≠ s.tick → exec (.bulkCompletion rid) s = .next s) ∧
      (∀ ch : Chunk, r.chunks.find? (fun c => decide (c.tick = s.tick) && !c.done) = some ch →
        let n := 256 * ch.lines
        let moved := fun (r' : Req) => r' = { r with moved := ch.off + n, work := r'.work,
                                                     chunks := r.chunks.map fun x => if x = ch then { x with done := true } else x }
        let key := fun (x off : Nat) (w : Bool) => s.keyStop r (s.extt r.banks x) (off + ch.off) n w
        (∀ ptr len d ps seq x o p, r.work = .bulkRead ptr len d ps seq → ptrOf ptr = .at' x o → r.egress = some p → ch.lines ≠ 0 →
          key x o false = none → Completes (.bulkChunk rid) s fun t =>
            (∃ r', t.reqOf rid = some r' ∧ moved r' ∧ r'.work = .bulkRead ptr len [] [] (seq + cdiv n 8192)) ∧
            (t.sched p).queue.length = (s.sched p).queue.length + cdiv n 8192 ∧ ∀ e ∈ (s.sched p).queue, e ∈ (t.sched p).queue) ∧
        (∀ src dst len x o y q, r.work = .bulkCopy src dst len → ptrOf src = .at' x o → ptrOf dst = .at' y q → key x o false = none →
          key y q true = none → Completes (.bulkChunk rid) s fun t => ∃ r', t.reqOf rid = some r' ∧ moved r' ∧ r'.work = r.work) ∧
        ∀ ring tag tp hva ptr len x o, r.work = .hostBulk ring tag tp hva ptr len → ptrOf ptr = .at' x o → ch.walked = true →
          (key x o tp = none → Completes (.bulkChunk rid) s fun t => ∃ r', t.reqOf rid = some r' ∧ moved r' ∧ r'.work = r.work) ∧
          (key x o tp ≠ none → Completes (.bulkChunk rid) s fun t => t.reqOf rid = none)) ∧
      (r.pct = s.tick →
        (∀ src dst len, r.work = .bulkCopy src dst len → r.egress.isSome = true → s.sentAlready r = false →
          Completes (.bulkCompletion rid) s (s.sends r 0x20 (if r.moved = len then stOk else stAccess) [(leBytes 8 r.moved, [false])])) ∧
        ∀ ring tag tp hva ptr len, r.work = .hostBulk ring tag tp hva ptr len → r.moved = len →
          exec (.bulkCompletion rid) s = .next ((s.dropReq rid).endBulk ring tag stOk len 0 0 0))

/-- From R328, R335, R343 and R365: on a port in UP the packet that the classes, gates and fair queuing choose leaves whole, a beacon, which takes
its time then, apart: it is out of its queue and on the wire, and each of its blocks has its sequence number and waits for its acknowledgement;
with none to send, or no room to replay it, an IDLE block goes. At the end of a tick the packets of the only request, its PCT being past, are
removed and the request is discarded, but for work that has still to land. Model's readings here: logs 26, 41.
Commands that complete here: LATE_RESULT_DROP, PACKET_SEND_SELECT. -/
def Obligations.PacketsAreSentByClass : Prop :=
  (∀ (p : Fin 32) (ns : Nat) (s : State),
    (s.linkState p ≠ 4 ∨ s.portsStopped = true → exec (.packetSendSelect p ns) s = .next s) ∧
    (s.linkState p = 4 → s.portsStopped = false →
      let now := s.tick * s.periodNs + ns
      let u := (s.dropStale p).fillTokens p now
      let idle := fun (t : State) => (∃ b, t.out = s.out ++ [.block p b] ∧ b.type = 0 ∧ b.ack = (s.link p).expect - 1) ∧
        (t.sched p).queue = (u.sched p).queue ∧ (t.link p).unacked = (s.link p).unacked
      (u.nextPacket p ns now = none → Completes (.packetSendSelect p ns) s idle) ∧
      ∀ k e, u.nextPacket p ns now = some (k, e) →
        (2048 < (s.link p).unacked.length + e.blocks → Completes (.packetSendSelect p ns) s idle) ∧
        ((s.link p).unacked.length + e.blocks ≤ 2048 → e.cls ≠ .beacon → Completes (.packetSendSelect p ns) s fun t =>
          e ∈ (u.sched p).queue ∧ (t.sched p).queue = (u.sched p).queue.erase e ∧ .wire p e.pkt ∈ t.out ∧
          (t.link p).unacked.length = (s.link p).unacked.length + e.blocks ∧ (t.link p).txNext = (s.link p).txNext + BitVec.ofNat 12 e.blocks))) ∧
  ∀ (p : Fin 32) (s : State),
    let queued := fun (r : Req) => (s.sched p).queue.any fun e => decide (e.rid = some r.rid)
    ((∀ r ∈ s.adm.reqs, r.egress = some p.val → queued r = true → tle r.pct s.tick = false) → exec (.lateResultDrop p) s = .next s) ∧
    ∀ r : Req, s.adm.reqs = [r] → r.egress = some p.val → queued r = true → tle r.pct s.tick = true →
      Completes (.lateResultDrop p) s fun t =>
        t.adm.reqs = (if r.work.lands && !r.work.landed then [{ r with work := r.work.silent, egress := none }] else []) ∧
        (t.sched p).queue = (s.sched p).queue.filter fun e => decide (e.rid ≠ some r.rid)

/-! ### The flash tier and the line check (R216, R217, R221 to R223, R249, R257, R263 to R270) -/

/-- From R216, R217, R221, R263 and R265 to R267: the only background fetch, its sector across its channel, makes every line of its group resident,
an ABSENT one with its flash bytes; the Ebb, with nothing under way, takes the first group of its order, its DIRTY lines CLEANING; the only program,
its bytes moved, waits in its parity stripe, and when it is the stripe's last sector and the only one that waits puts the bytes on flash and its
lines CLEAN; a failed program or erase costs its die a spare, the last of which fails the die; a failing sector is marked and its page queued for
its rebuild, and once the rest of its stripe is sensed the page stands in a new place or the groups of its failing sectors are lost; the groups of
a relocated sector are handed over as they stand. Model's readings here: logs 4, 6, 85.
Commands that complete here: BACKGROUND_FETCH_FILL, EBB_CLEAN, PROGRAM_CONFIRM, PROGRAM_FAIL, SECTOR_REBUILD, RELOCATE. -/
def Obligations.TheTierMovesGroups : Prop :=
  ∀ s : State,
    let idle := s.rsv.drain.isSome = true ∨ s.hasFlash = false
    let runs := s.rsv.drain = none ∧ s.hasFlash = true
    let staged := fun (x : Stripe) (k : Nat) (rs : List Program) (t : State) => t.tier.fgroups = s.tier.fgroups ∧
      t.tier.stripes = s.tier.stripes.map fun y => if y.set = x.set ∧ y.n = x.n
        then { x with used := x.used ++ [k], waiting := x.waiting ++ [(k, rs)] } else y
    (∀ (p : Nat) (g : Fin 512),
      (idle ∨ (∀ f ∈ s.tier.fetches, f.parcel = p → f.group ≠ g.val) → exec (.backgroundFetchFill p g) s = .next s) ∧
      ∀ (f : Fetch) (fr : Nat), runs → s.tier.fetches = [f] → f.parcel = p → f.group = g.val → f.refetch = false → f.left = 0 → f.todo = none →
        s.frameOf p = some fr → ¬((s.fhtOf fr).assured = true ∧ (s.fhtOf fr).st = .pinned) → s.staleGen (s.copyOf p g) = false →
        s.copyBad (s.copyOf p g) = false →
        let ln := fun (i : Nat) => fr * 8192 + (16 * g + i)
        (∀ i < 16, s.slotUsed 1 (stackOf (ln i)) (s.pcOf (ln i)) < s.share 2) → Completes (.backgroundFetchFill p g) s fun t => t.tier.fetches = [] ∧
          ∀ i < 16, t.resident p (16 * g + i) = true ∧ (s.resident p (16 * g + i) = true → t.lsmOf (ln i) = s.lsmOf (ln i)) ∧
            (s.resident p (16 * g + i) = false → t.lsmOf (ln i) = .clean ∧ t.rdBs (ln i * 256) 256 = s.flashLine p (16 * g + i))) ∧
    (∀ tile : Fin 4, (idle → exec (.ebbClean tile) s = .next s) ∧
      (let u := { s with tier := { s.tier with ebbHead := s.tier.ebbHead.filter fun f => decide ((s.fhtOf f).dirtyLines ≠ 0) } }
       let order := (u.ebbFrames tile).flatMap fun f => (u.dirtyGroups f).map fun g => ((u.fhtOf f).parcel, g)
       ∀ c p g, runs → s.blockReset .tier = false → s.tier.programs = [] → u.ebbChannel tile = some c → order.find? (fun x => u.ebbCan x.1 x.2) = some (p, g) →
        Completes (.ebbClean tile) s fun t => (∃ r, t.tier.programs = [r] ∧ r.tile = tile.val ∧ r.chan = c ∧ r.parcel = p ∧ r.group = g ∧
            r.data.length = 4096 ∧ r.gen = BitVec.ofNat 16 (s.fld 0x5208 31 16)) ∧
          ∀ i < 16, ∀ ln, s.lineAt p (16 * g + i) = some ln → s.lsmOf ln = .dirty → t.lsmOf ln = .cleaning)) ∧
    (∀ (tile : Fin 4) (r : Program), s.tier.programs = [r] → r.tile = tile.val →
      (r.bytes ≠ 0 ∨ r.read ≠ 0 → Completes (.programConfirm tile) s fun t => t.tier = s.tier) ∧
      (r.bytes = 0 → r.read = 0 → r.gen.toNat ≠ s.fld 0x5208 31 16 → Completes (.programConfirm tile) s fun t => t.tier = { s.tier with programs := [] }) ∧
      ∀ (x : Stripe) (k : Nat), r.bytes = 0 → r.read = 0 → r.gen.toNat = s.fld 0x5208 31 16 → r.data.length = 4096 → r.group < 512 → r.chan / 16 = tile.val →
        s.stripeFor r.chan = some x → x.slotFor (r.chan % 8) = some k →
        (x.used.length ≠ 27 → Completes (.programConfirm tile) s fun t => t.tier.programs = [] ∧ staged x k [r] t) ∧
        (x.used.length = 27 → x.waiting = [] → r.moved = false → Completes (.programConfirm tile) s fun t =>
          t.tier.programs = [] ∧ (t.fgroup r.parcel r.group).stored = true ∧ (t.fgroup r.parcel r.group).lost = false ∧
          (t.sectorAt (t.fgroup r.parcel r.group).key).poisonOf r.group = r.poison ∧ (t.sectorAt (t.fgroup r.parcel r.group).key).gen = r.gen ∧
          ((t.fgroup r.parcel r.group).die, (t.fgroup r.parcel r.group).page, (t.fgroup r.parcel r.group).sector) = x.siteOf k ∧
          (∀ i < 16, t.flashLine r.parcel (16 * r.group + i) = (r.data.drop (256 * i)).take 256) ∧
          (∀ l ∈ r.lines, ∀ ln, s.lineAt r.parcel l = some ln → s.lsmOf ln = .cleaning → t.lsmOf ln = .clean) ∧
          (r.parcel, r.group) ∉ t.tier.lost)) ∧
    (∀ (d : Fin 512) (erase : Bool), (s.hasFlash = false ∨ s.dieFailed d = true → exec (.programFail d erase) s = .next s) ∧
      (s.hasFlash = true → s.dieFailed d = false → Completes (.programFail d erase) s fun t => t.sparesOf d = s.sparesOf d - 1 ∧
        t.fld (rOff .fmc (fmcOf d) 0x200) 31 16 = (s.fld (rOff .fmc (fmcOf d) 0x200) 31 16 + 1) % 2 ^ 16 ∧
        bit (t.reg (rOff .fmc (fmcOf d) 0x20)) 2 = true ∧ (s.sparesOf d ≤ 1 ↔ t.dieFailed d = true) ∧ t.tier.flash = s.tier.flash ∧
        ∃ b, (d.val, b) ∈ t.tier.badBlocks)) ∧
    ∀ (p : Nat) (g : Fin 512),
      let r := s.fgroup p g
      let c := s.copyOf p g
      let here := s.sectorGroups p g
      let jobs := s.tier.rebuilds.find? fun j => decide (j.die = r.die ∧ j.page = r.page)
      let good := runs ∧ r.stored = true ∧ r.lost = false ∧ s.staleGen c = false
      let held := here.any (s.underWay p)
      (idle ∨ r.stored = false ∨ r.lost = true → (∀ b, exec (.sectorRebuild p g b) s = .next s) ∧ exec (.relocate p g) s = .next s) ∧
      (good → jobs = none → ∀ b, Completes (.sectorRebuild p g b) s fun t => t.tier.flash = s.tier.flash ∧ t.copyBad (t.copyOf p g) = true ∧
        ∃ j ∈ t.tier.rebuilds, j.die = r.die ∧ j.page = r.page ∧ j.left = 16384) ∧
      (∀ j, good → jobs = some j → j.dies = [] → later j.ready s.tick = false →
        (Completes (.sectorRebuild p g true) s fun t => t.tier.rebuilds = s.tier.rebuilds.erase j ∧
          (s.copyBad c = true → (t.fgroup p g).lost = true ∧ (p, g.val) ∈ t.tier.lost)) ∧
        (s.secondBad r.die r.page = false →
          (0 < j.left → exec (.sectorRebuild p g false) s = .next s) ∧
          ∀ y, j.left = 0 → (s.sitePage false (r.die / 8)).1 = some y → r.sector < 4 → s.dieFailed r.die = false →
            Completes (.sectorRebuild p g false) s fun t => t.tier.rebuilds = s.tier.rebuilds.erase j ∧ (t.fgroup p g).die = y.1 ∧
              (t.fgroup p g).page = y.2 ∧ (t.fgroup p g).sector = r.sector ∧ t.copyBad (t.copyOf p g) = false ∧
              (r.die, blockOf r.page) ∈ t.tier.retiring)) ∧
      (good → s.copyBad c = false →
        (held = true ∨ s.blockReset .tier = true ∨ s.ebbChannel (r.die / 128) = none → exec (.relocate p g) s = .next s) ∧
        ∀ e, held = false → s.blockReset .tier = false → s.ebbChannel (r.die / 128) = some e → Completes (.relocate p g) s fun t =>
          t.tier.flash = s.tier.flash ∧ t.tier.fgroups = s.tier.fgroups ∧ ∀ i ∈ here, ∃ q ∈ t.tier.programs, q.parcel = p ∧ q.group = i ∧
            q.moved = true ∧ q.chan = e ∧ q.data = s.flashGroup p i ∧ q.gen = (s.sectorAt r.key).gen)

/-- From R243, R249, R257, R268 to R270: the oldest rewrite queued on a pseudo-channel, where the tick leaves a slot free, stores its line with a
fresh CRC, the bytes and poison queued or the line as it is with poison; one whose frame is free goes without a write; the Dredge reads the next
line in use where no rewrite or recall waits and a slot is free; the patrol deals with the page it has sensed once 16,384 bytes have moved, and
queues its rebuild when a sector fails; a lap over its limit is told; calibration, one pair in a tick, moves a centre away from the one side that
fails; a refresh is counted and changes nothing else. Model's readings here: logs 79, 83, 84.
Commands that complete here: REPAIR_REWRITE, DREDGE_READ, PATROL_READ, LAP_SLOW, CAL_PROBE, REFRESH. -/
def Obligations.LinesAreChecked : Prop :=
  ∀ s : State,
    (∀ (st : Fin 24) (pc : Fin 64),
      let first := s.hmc.repairs.find? fun r => decide (r.stack = st.val ∧ r.pc = pc.val)
      (first = none → exec (.repairRewrite st pc) s = .next s) ∧
      (∀ r, first = some r →
        s.slotUsed 0 st pc + s.slotUsed 1 st pc + s.slotUsed 2 st pc + s.slotUsed 3 st pc + s.hostUsed st pc <
          s.share 4 + s.share 2 + s.share 8 + s.share 6 →
        (s.firstFrame st ≤ r.line / 8192 % 32768 → (s.fhtOf (r.line / 8192)).st ≠ .free) →
        let left := (s.hmc.repairs.erase r).filter fun x => decide (x.line ≠ r.line)
        (r.data = none → Completes (.repairRewrite st pc) s fun t => t.hmc = { s.hmc with repairs := left } ∧
          (∀ a, t.rdB a = s.rdB a) ∧ (t.meta' r.line).crcDelta = 0 ∧ (t.meta' r.line).poison = true ∧
          (∀ m, m ≠ r.line → t.meta' m = s.meta' m)) ∧
        (∀ bs psn, r.data = some (bs, psn) → bs.length = 256 → Completes (.repairRewrite st pc) s fun t =>
          t.hmc = { s.hmc with repairs := left } ∧ t.rdBs (r.line * 256) 256 = bs ∧ (t.meta' r.line).crcDelta = 0 ∧
          (t.meta' r.line).poison = psn ∧ (∀ a, a / 256 ≠ r.line → t.rdB a = s.rdB a))) ∧
      (∀ r, first = some r → s.firstFrame st ≤ r.line / 8192 % 32768 → (s.fhtOf (r.line / 8192)).st = .free →
        s.slotUsed 0 st pc + s.slotUsed 1 st pc + s.slotUsed 2 st pc + s.slotUsed 3 st pc + s.hostUsed st pc <
          s.share 4 + s.share 2 + s.share 8 + s.share 6 →
        Completes (.repairRewrite st pc) s fun t => t.hmc = { s.hmc with repairs := s.hmc.repairs.erase r } ∧ t.hbm = s.hbm ∧ t.lmeta = s.lmeta) ∧
      (s.rsv.drain.isSome = true ∨ s.fld (rOff .drg (st / 6) 0x200) 0 0 = 0 ∨ first ≠ none ∨ s.cohWaits st pc = true →
        exec (.dredgeRead st pc) s = .next s) ∧
      (∀ x, s.rsv.drain = none → s.fld (rOff .drg (st / 6) 0x200) 0 0 ≠ 0 → first = none → s.cohWaits st pc = false →
        s.slotUsed 0 st pc + s.slotUsed 1 st pc + s.slotUsed 2 st pc + s.slotUsed 3 st pc + s.hostUsed st pc <
          s.share 4 + s.share 2 + s.share 8 + s.share 6 →
        s.dredgeNext st pc (sget (fun _ => 0) s.hmc.dredgePos (st * 64 + pc)) = some x → Completes (.dredgeRead st pc) s fun t =>
          sget (fun _ => 0) t.hmc.dredgePos (st * 64 + pc) = x + 1 ∧ s.slotUsed 3 st pc < t.slotUsed 3 st pc ∧ t.tier.lsm = s.tier.lsm) ∧
      (let probed := sget (fun _ => 0) s.hmc.calTick (st.val * 64 + pc.val) = s.tick + 1
       (s.fld (rOff .hmc st 0x210) 0 0 = 0 ∨ probed → ∀ a b, exec (.calProbe st pc a b) s = .next s) ∧
       (s.fld (rOff .hmc st 0x210) 0 0 ≠ 0 → ¬probed → ∀ a b, Completes (.calProbe st pc a b) s fun t =>
        let k := st.val * 64 + pc.val
        let i := sget (fun _ => 0) s.hmc.calPos k
        let lane := (st.val * 256 + pc.val * 4 + i / 2) * 2 + i % 2
        let at' := fun (u : State) => sget (fun _ => ({} : LaneTrain)) u.hmc.trained lane
        sget (fun _ => 0) t.hmc.calPos k = (i + 1) % 8 ∧ (at' t).width = (at' s).width ∧
        (at' t).delay = (if a = b then (at' s).delay else if b then min 127 ((at' s).delay + 1) else (at' s).delay - 1) ∧
        (a = false → b = false → bit (t.reg (rOff .hmc st 0x20)) 3 = true))) ∧
      exec (.refresh st) s = .next { s with hmc := { s.hmc with refreshes := s.hmc.refreshes + 1 } }) ∧
    (∀ (tile fmc channel : Fin 4) (bad : List (Fin 4)),
      let c := 16 * tile.val + 4 * fmc.val + channel.val
      (s.patrolOn (c / 16) = false → exec (.patrolRead tile fmc channel bad) s = .next s) ∧
      (s.patrolOn (c / 16) = true → s.patrolNext c = none → Completes (.patrolRead tile fmc channel bad) s fun t => t.tier = s.tier ∧
        s.changes (.hmc :: raiseParts) t) ∧
      (∀ n, s.patrolNext c = some n → s.patrolHead c = none → exec (.patrolRead tile fmc channel bad) s = .next s) ∧
      ∀ n k u, s.patrolOn (c / 16) = true → s.patrolNext c = some n → s.patrolHead c = some (k, u) →
        let moved := sget (fun _ => 0) s.hmc.patrolBytes c
        (moved < 16384 → exec (.patrolRead tile fmc channel bad) s = .next s) ∧
        (16384 ≤ moved → (s.patrolPages c).contains k = false → Completes (.patrolRead tile fmc channel bad) s fun t =>
          t.hmc.dredgePos = s.hmc.dredgePos ∧ t.tier = s.tier ∧ s.changes [.hmc] t) ∧
        (16384 ≤ moved → (s.patrolPages c).contains k = true → Completes (.patrolRead tile fmc channel bad) s fun t =>
          sget (fun _ => 0) t.hmc.dredgePos (1536 + c) = k + 1 ∧ sget (fun _ => 0) t.hmc.patrolBytes c = moved - 16384 ∧
          (bad = [] → t.tier = s.tier) ∧ (bad ≠ [] → bit (t.reg (rOff .drg (c / 16) 0x20)) 3 = true) ∧
          ∀ i : Fin 4, bad = [i] →
            let site := siteKey (k / 2 ^ 24) (k % 2 ^ 24) i
            (∀ g ∈ s.pageGroups (k / 2 ^ 24) (k % 2 ^ 24) (fun x => decide (x = site)), (s.fgroup g.1 g.2).lost = false) →
              (t.sectorAt site).bad = true ∧ ∃ j ∈ t.tier.rebuilds, j.die = k / 2 ^ 24 ∧ j.page = k % 2 ^ 24)) ∧
    ∀ tile : Fin 4,
      let since := fun (k : Nat) => tsub s.tick (sget (fun _ => 0) s.hmc.lapStart k) * s.periodNs
      let told := fun (k : Nat) (u : State) => sget (fun _ => false) u.hmc.slowMarked k
      let slow := fun (k lim : Nat) => lim < since k ∧ told k s = false
      let hbm := slow tile (s.fld (rOff .drg tile 0x218) 15 0 * 10 ^ 9)
      let flash := s.hasFlash = true ∧ slow (4 + tile) (s.fld (rOff .drg tile 0x218) 31 16 * 3600 * 10 ^ 9)
      (¬hbm → ¬flash → exec (.lapSlow tile) s = .next s) ∧
      (hbm ∨ flash → Completes (.lapSlow tile) s fun t => (hbm → told tile t = true) ∧ (flash → told (4 + tile) t = true) ∧
        bit (t.reg (rOff .drg tile 0x20)) 2 = true ∧ s.changes (.hmc :: raiseParts) t)

/-! ### Power, temperature and drains (R224 to R237, R433, R434, R500, R513 to R515) -/

/-- From R15, R224, R225, R227, R513, R515: with the main rails up, a poll that answers stores its voltage and temperature, sets PMBUS_OK and ends a
run of failures, the third of which clears it; PMB_ALERT reads STATUS_WORD; a capacitance test that is due connects its load and ends once V has
fallen 1.0 V, the charge drawn since its start being the capacitance; a sample of temperatures shows in THM_THROTTLE and THERM_ALERT_N; a sensor
10 °C above its limit, or level 7 for 2 s, trips, and begins a drain where none runs. Model's readings here: logs 21, 48, 89, 104.
Commands that complete here: PMBUS_POLL, PMB_ALERT, CAP_TEST_START, CAP_TEST_DONE, THERMAL_SAMPLE, THERMAL_TRIP. -/
def Obligations.PowerAndHeatAreSensed : Prop :=
  ∀ s : State,
    (∀ p : PmbusSample,
      (s.pins.mainPg = false → exec (.pmbusPoll p) s = .next s) ∧
      (s.pins.mainPg = true → p.ok = true → Completes (.pmbusPoll p) s fun t => t.rsv = { s.rsv with fails := 0, vpmb := some p.vinMv } ∧
        (s.fld 0x4248 1 1 = 0 → .pmbus 0xD0 (s.fld 0x4240 15 0) ∈ t.out) ∧
        t.fld 0x4200 31 16 = p.vinMv % 2 ^ 16 ∧ t.fld 0x4200 55 48 = ofInt 8 p.tempC ∧ t.fld 0x4248 1 1 = 1 ∧ s.changes [.regs, .rsv, .out] t) ∧
      (s.pins.mainPg = true → p.ok = false → s.rsv.fails ≠ 2 → Completes (.pmbusPoll p) s fun t => t.rsv = { s.rsv with fails := s.rsv.fails + 1 } ∧
        s.changes [.regs, .rsv] t) ∧
      (s.pins.mainPg = true → p.ok = false → s.rsv.fails = 2 → Completes (.pmbusPoll p) s fun t => t.rsv = { s.rsv with fails := 3, vpmb := none } ∧
        t.fld 0x4248 1 1 = 0 ∧ s.changes (.rsv :: raiseParts) t)) ∧
    (∀ w, (s.pins.mainPg = false → exec (.pmbAlert w) s = .next s) ∧
      (s.pins.mainPg = true → exec (.pmbAlert w) s = .next { s with out := s.out ++ [.pmbus 0x79 w.toNat] })) ∧
    (let due := s.rsv.lastTest = 0 ∨ (s.fld 0x4218 55 48 ≠ 0 ∧ s.rsv.lastTest + s.fld 0x4218 55 48 * 3600 * 10 ^ 9 ≤ s.tim.netTime + 1)
     let may := s.rsv.capTestStartMv = none ∧ s.fld 0x4248 0 0 ≠ 0 ∧ s.rsv.drain = none
     (¬(due ∧ may) → exec .capTestStart s = .next s) ∧
     (due ∧ may → Completes .capTestStart s fun t => t.rsv = { s.rsv with capTestStartMv := some s.rsv.v, testCharge := 0 } ∧ t.fld 0x4248 6 6 = 1 ∧
       t.out = s.out ++ [.pmbus 0xD1 0, .pmbus 0xD3 1] ∧ s.changes [.rsv, .regs, .out] t)) ∧
    (∀ mc v0, s.rsv.capTestStartMv = some v0 →
      (v0 < s.rsv.v + 1000 → exec (.capTestDone mc) s = .next s) ∧
      (s.rsv.v + 1000 ≤ v0 → Completes (.capTestDone mc) s fun t =>
        t.rsv = { s.rsv with capTestStartMv := none, lastTest := s.tim.netTime + 1 } ∧
        t.fld 0x4208 23 0 = (s.rsv.testCharge / 10 ^ 8 + mc) % 2 ^ 24 ∧ t.fld 0x4248 6 6 = 0 ∧ .pmbus 0xD3 0 ∈ t.out ∧ bit (t.reg 0x4020) 4 = true ∧ s.changes (.rsv :: raiseParts) t)) ∧
    (∀ mc, s.rsv.capTestStartMv = none → exec (.capTestDone mc) s = .next s) ∧
    (∀ x : Sensors, (s.pins.mainPg = false → exec (.thermalSample x) s = .next s) ∧ (s.pins.mainPg = true → Completes (.thermalSample x) s fun t =>
      t.reg 0x3240 = throttleImage (s.sensors x) ∧ t.fld 0x3230 7 0 = ofInt 8 x.host ∧ t.pins = { s.pins with thermAlertN := decide (t.fld 0x3240 2 0 = 0) } ∧ s.changes (.rsv :: .pins :: raiseParts) t)) ∧
    (let hot := (∃ q ∈ s.sensors s.sampled, q.failed = false ∧ q.crit + 10 ≤ q.t) ∨ 2000000 ≤ s.rsv.level7Us
     (¬hot ∨ s.pins.thermTripN = false → exec .thermalTrip s = .next s) ∧
     (hot → s.pins.thermTripN = true →
       (s.rsv.drain.isSome = true → exec .thermalTrip s = .next { s with pins := { s.pins with thermTripN := false } }) ∧
       (s.rsv.drain = none → s.pins.coldRstN = true → s.rsv.dead = false → s.opened = true → s.fld 0x5200 2 0 ≠ 3 →
         Completes .thermalTrip s fun t => t.pins.thermTripN = false ∧ t.stopped = true ∧
           t.rsv.drain = some { why := .power, f0 := s.tick, noDrain := !s.hasFlash })))

/-- From R15, R233 to R237, R433, R434, R500, R519: with the main rails up, a power failure stops admission, ends what was to leave and begins a drain,
or takes over one that runs; a notice enters the control service of its owner's port, or is lost; from F0 + 2 on the ports stop, and the drain begins
or DRAIN_DONE rises where none is to run; an energy stop is noted once; its end writes a CLOSED checkpoint, newer than any, with DRAIN_DONE or the
completion of TIER_FLUSH, and the last-drain record. Model's readings here: logs 21, 58, 87, 88, 178.
Commands that complete here: PWR_FAIL, DISCARD_NOTICE_SEND, DRAIN_BEGIN, DRAIN_ENERGY_STOP, CHECKPOINT_WRITE, PWR_FAIL_DEASSERT. -/
def Obligations.PowerFailuresDrain : Prop :=
  ∀ s : State,
    (s.pins.coldRstN = false ∨ s.pins.mainPg = false → exec .pwrFail s = .next { s with pins := { s.pins with pwrFailN := false } }) ∧
    (s.pins.coldRstN = true → s.pins.mainPg = true → s.rsv.dead = false →
      (∀ d, s.rsv.drain = some d → Completes .pwrFail s fun t => t.pins.pwrFailN = false ∧ t.rsv.drain = some { d with why := .power } ∧
        t.adm = s.adm ∧ t.tier = s.tier) ∧
      (s.rsv.drain = none → s.opened = true → s.fld 0x5200 2 0 ≠ 3 → Completes .pwrFail s fun t => t.pins.pwrFailN = false ∧ t.stopped = true ∧
        t.rsv.drain = some { why := .power, f0 := s.tick, noDrain := !s.hasFlash } ∧ t.tier.fetches = [] ∧ t.xlt.parked = [] ∧
        (∀ r ∈ t.adm.reqs, r.egress = none) ∧ ∀ d, (t.dom d).st ≠ .active)) ∧
    exec .pwrFailDeassert s = .next { s with pins := { s.pins with pwrFailN := true } } ∧
    ((∀ n ∈ s.adm.notices, tle n.sendTick s.tick = false) → exec .discardNoticeSend s = .next s) ∧
    (∀ n : Notice, s.adm.notices = [n] → tle n.sendTick s.tick = true →
      (∀ p, s.firstUsable n.dst = some p → Completes .discardNoticeSend s fun t => t.adm = { s.adm with notices := [] } ∧
        (∃ e, (t.sched p).queue = (s.sched p).queue ++ [e] ∧ e.cls = .notice ∧ e.pkt.opcode = 0x23 ∧ e.pkt.dst = n.dst ∧ e.pkt.ctxid = n.ctx ∧
          (e.pkt.word 0).toNat % 2 ^ 48 = n.first % 2 ^ 48 ∧ bits (e.pkt.word 0) 51 48 = n.cause.toNat ∧ bits (e.pkt.word 1) 47 0 = n.last % 2 ^ 48) ∧
        s.changes [.adm, .fab] t) ∧
      (s.firstUsable n.dst = none → Completes .discardNoticeSend s fun t => t.adm = { s.adm with notices := [] } ∧ s.changes [.adm, .regs] t)) ∧
    (s.rsv.drain = none → exec .drainBegin s = .next s ∧ exec .drainEnergyStop s = .next s ∧ ∀ m, exec (.checkpointWrite m) s = .next s) ∧
    ∀ d : Drain, s.rsv.drain = some d →
      let low := s.rsv.energy ≤ s.fld 0x4218 47 32 * 10 ^ 12
      (d.begun = true ∨ later (tadd d.f0 2) s.tick = true → exec .drainBegin s = .next s) ∧
      (d.begun = false → later (tadd d.f0 2) s.tick = false →
        (d.noDrain = true → Completes .drainBegin s fun t => t.pins.drainDone = true ∧ t.rsv = { s.rsv with drain := none, dead := true }) ∧
        (d.noDrain = false → Completes .drainBegin s fun t => t.rsv = { s.rsv with drain := some { d with begun := true } } ∧
          (∀ r ∈ t.tier.programs, r ∈ s.tier.programs) ∧ t.pins = s.pins) ∧
        (d.why = .power → Completes .drainBegin s fun t => ∀ p < 32, (t.sched p).queue = [] ∧ t.linkState p ≤ 1)) ∧
      (d.begun = false ∨ d.energyStop = true ∨ d.why ≠ .power ∨ ¬low → exec .drainEnergyStop s = .next s) ∧
      (d.begun = true → d.energyStop = false → d.why = .power → low → Completes .drainEnergyStop s fun t =>
        t.rsv = { s.rsv with drain := some { d with energyStop := true } }) ∧
      (d.begun = false ∨ d.noDrain = true ∨ s.dataEnded d = false → ∀ m, exec (.checkpointWrite m) s = .next s) ∧
      ∀ m : BitVec 16, d.begun = true → d.noDrain = false → s.dataEnded d = true →
        let closed := fun (t : State) => ∃ c b, t.newestCheckpoint = some (c, b) ∧ c.closed = true ∧ c.tick = s.tick ∧
          ∀ o q, s.newestCheckpoint = some (o, q) → c.seq = o.seq + 1 ∧ b = !q
        (d.why = .power → s.pins.coldRstN = true → Completes (.checkpointWrite m) s fun t => closed t ∧
          t.rsv = { s.rsv with drain := none, dead := true } ∧ t.pins.drainDone = true ∧
          t.boot.lastDrain.1 = s.drainMs d % 2 ^ 64 ∧ t.boot.lastDrain.2.2 = (m.toNat, false)) ∧
        (d.why = .flush → Completes (.checkpointWrite m) s fun t => closed t ∧ t.rsv = { s.rsv with drain := none, flushed := true } ∧
          t.pins = s.pins ∧ ∀ j ∈ t.fw.journal, j.wait ≠ .flush)

/-! ### Starts and resets (R414 to R419, R427 to R429, R500 to R504) -/

/-- From R414, R415, R416, R419, R490, R500 to R504: a reset of the main domain clears it and keeps boot flash, what flash holds and the island; COLD_RST_N
waits for a power drain; AUX_RST_N resets the island while MAIN_PG is low, and its rise samples the straps and shows the tenant record; a cold start
runs only from reset and shows STEP 10, or a stop code with its ports DISABLED; the end of step 11 shows STEP 11 and opens admission where
nothing forbids it, and the first opening shows the time of the start (R490); the controller's restarts begin a drain first where there is something to flush. Model's readings here: logs 90, 94, 108,
113, 119.
Commands that complete here: TIME_LOCK_WAIT_END, MAIN_PG_FALL, COLD_RST_N, AUX_RST_N, COLD_START, MGT_RESET_COMPUTE, WARM_START, COLD_RESTART. -/
def Obligations.StartsAndResetPins : Prop :=
  ∀ s : State,
    let cleared := fun (t : State) => t.hbm = [] ∧ t.lmeta = [] ∧ t.adm = {} ∧ t.fw = {} ∧ t.rsv = {} ∧ t.opened = false ∧ t.boot = s.boot ∧
      t.tier.flash = s.tier.flash ∧ t.tier.fgroups = s.tier.fgroups ∧ t.tier.slotA = s.tier.slotA ∧ t.tier.slotB = s.tier.slotB ∧
      (∀ o, o / 4096 ≠ 5 → t.reg o = resetReg o) ∧ ∀ o, o / 4096 = 5 → t.reg o = s.reg o
    let started := fun (how : Nat) (t : State) => t.fld 0x200 17 16 = how ∧
      ((t.fld 0x200 15 8 = 10 ∧ t.fld 0x200 7 0 = 0) ∨ (t.fld 0x200 7 0 ≠ 0 ∧ ∀ p < 32, t.linkState p = 0))
    Completes .mainPgFall s (fun t => cleared t ∧ t.island = s.island ∧ t.pins = { s.pins with mainPg := false }) ∧
    (s.pins.coldRstN = true → exec (.coldRstN true) s = .next s) ∧
    (s.pins.coldRstN = false → exec (.coldRstN true) s = .next { s with pins :=
      { s.pins with coldRstN := true, mainPg := true, drainDone := false, thermTripN := true } }) ∧
    ((∃ d, s.rsv.drain = some d ∧ d.why = .power ∧ d.noDrain = false) →
      exec (.coldRstN false) s = .next { s with pins := { s.pins with coldRstN := false } }) ∧
    ((∀ d, s.rsv.drain = some d → d.why ≠ .power ∨ d.noDrain = true) →
      Completes (.coldRstN false) s fun t => cleared t ∧ t.island = s.island ∧ t.pins = { s.pins with coldRstN := false }) ∧
    (∀ st ac,
      (∀ l, s.pins.mainPg = true → exec (.auxRstN l st ac) s = .next s) ∧
      (s.pins.mainPg = false → Completes (.auxRstN false st ac) s fun t => t.pins = { s.pins with auxRstN := false } ∧ t.island.key = none ∧
        t.island.sessions = 0 ∧ t.island.busy = none ∧ t.island.records = s.island.records ∧ t.island.anchors = s.island.anchors ∧
        (∀ o, t.reg o = if o / 4096 = 5 then resetReg o else s.reg o) ∧ s.changes [.regs, .pins, .island] t) ∧
      (s.pins.mainPg = false → s.pins.auxRstN = false → Completes (.auxRstN true st ac) s fun t =>
        t.pins = { s.pins with auxRstN := true, strapTest := st, strapAuxclk := ac } ∧ t.island = { s.island with failed := st } ∧
        t.fld 0x5200 2 0 = s.tenantRecord.state.toNat ∧ t.fld 0x5200 63 32 = s.tenantRecord.epoch.toNat ∧
        t.fld 0x5208 15 0 = s.tenantRecord.keyGen.toNat)) ∧
    (∀ env,
      let ready := s.pins.coldRstN = true ∧ s.pins.mainPg = true ∧ s.pins.strapTest = false ∧ s.reg 0x200 = 0 ∧ s.rsv.dead = false ∧ s.rsv.drain = none
      (¬ready → exec (.coldStart env) s = .next s) ∧ (ready → Completes (.coldStart env) s (started 1))) ∧
    (∀ ms,
      let ends := s.fld 0x200 15 8 = 10 ∧ s.fld 0x200 7 0 = 0 ∧ s.rsv.dead = false ∧ s.rsv.drain = none ∧ (s.tim.gotTime = true ∨ s.timeWaitMs ≤ ms)
      (¬ends → exec (.timeLockWaitEnd ms) s = .next s) ∧
      (ends → Completes (.timeLockWaitEnd ms) s fun t => t.fld 0x200 15 8 = 11 ∧ t.tim.startMs = s.tim.startMs + ms ∧
        (s.opened = false → t.opened = true → t.stopped = false → t.fld 0x200 47 32 = (s.tim.startMs + ms) % 2 ^ 16) ∧
        (s.rsv.flushed = false → s.creset = none → s.tim.period = none → s.fld 0x5200 2 0 ≠ 3 → bit (s.reg 0x220) 0 = false →
          bit (s.reg 0x218) 0 = false → 1 < popCount (s.fld 0x8208 7 0) → t.opened = true ∧ t.stopped = false))) ∧
    (∀ id, s.pins.auxRstN = true → s.island.anchors ≠ [] → s.island.busy = none → s.rsv.dead = false → s.fld 0x5200 2 0 ≠ 1 → s.fld 0x5200 2 0 ≠ 3 →
      s.rsv.drain = none → s.creset = none →
      let waits := fun (t : State) => t.island.busy = some (0x30, id) ∧ t.island.resetPending = some (0x30, id)
      let drains := fun (w : DrainFor) (t : State) => t.rsv.drain = some { why := w, f0 := s.tick } ∧ t.stopped = true ∧ waits t
      (s.fld 0x200 7 0 = 0 → s.fld 0x200 15 8 ≠ 0 → Completes (.mgtResetCompute id) s fun t =>
        t.creset = some { c := tadd s.tick 2, tile := false, third := false } ∧ waits t ∧ s.changes [.creset, .island] t) ∧
      (s.pins.coldRstN = true → s.pins.mainPg = true →
        (s.hasFlash = true → s.opened = true → (∀ env, Completes (.warmStart id env) s fun t => drains .warm t ∧ t.island.warmEnv = some env) ∧
          Completes (.coldRestart id) s (drains .cold)) ∧
        (s.hasFlash = false ∨ s.opened = false → (∀ env, Completes (.warmStart id env) s fun t => started 2 t ∧ t.opened = false) ∧
          Completes (.coldRestart id) s fun t => cleared t ∧ waits t)))

/-- From R397, R417 to R419, R427 to R429, R517: from C on a compute reset stops admission, ends the work and takes every domain DOWN; from C + 2 on
reservations, translations, recalls, fetches and programs go and CLEANING lines become DIRTY; at the restart, where the SRAM image checks, each core
whose tile has a seed is seeded from it; the end of the engine checks ends the reset and the commands that wait for it, and admission opens where
nothing forbids it, but not after a third tile fault or with a core that failed. A tile fault is recorded with its tile, and outside a drain or a
reset starts one at a boundary that follows. Model's readings here: logs 102, 103, 105, 166.
Commands that complete here: COMPUTE_RESET_STOP, COMPUTE_RESET_ASSERT, FIRMWARE_RESTART, ENGINE_CHECK, TILE_FAULT. -/
def Obligations.ComputeResetsRunTheirCourse : Prop :=
  ∀ s : State,
    (s.creset = none → exec .computeResetStop s = .next s ∧ exec .computeResetAssert s = .next s ∧ (∀ e, exec (.firmwareRestart e) s = .next s) ∧
      ∀ l, exec (.engineCheck l) s = .next s) ∧
    (∀ r : CReset, s.creset = some r →
      (r.stopped = true ∨ later r.c s.tick = true ∨ s.draining = true → exec .computeResetStop s = .next s) ∧
      (r.stopped = false → later r.c s.tick = false → s.draining = false → Completes .computeResetStop s fun t =>
        t.creset = some { r with stopped := true, keepStopped := s.rsv.flushed } ∧ t.stopped = true ∧ t.adm.reqs = [] ∧ t.xlt.parked = [] ∧
        (∀ d, (t.dom d).st ≠ .active) ∧ bit (t.reg 0x218) 0 = true ∧ t.fld 0x218 63 16 = s.tick % 2 ^ 48 ∧ t.fld 0x218 4 1 = if r.tile then 4 else 3) ∧
      (r.stopped = false ∨ r.asserted = true ∨ later (tadd r.c 2) s.tick = true → exec .computeResetAssert s = .next s) ∧
      (r.stopped = true → r.asserted = false → later (tadd r.c 2) s.tick = false → Completes .computeResetAssert s fun t =>
        t.creset = some { r with asserted := true } ∧ t.adm.reqs = [] ∧ t.adm.claims = [] ∧ t.xlt.cache = [] ∧ t.xlt.leafs = [] ∧ t.xlt.groups = [] ∧
        t.xlt.parked = [] ∧ t.coh.recalls = [] ∧ t.coh.dirs = [] ∧ t.tier.fetches = [] ∧ t.tier.programs = [] ∧
        (∀ ln, t.lsmOf ln = if s.lsmOf ln = .cleaning then .dirty else s.lsmOf ln) ∧
        ∀ i < 4, t.reg (rOff .xlt i 0x208) = 0 ∧ t.reg (rOff .xlt i 0x210) = 0) ∧
      (∀ e,
        (r.asserted = false ∨ r.restarted = true ∨ later (tadd r.c (s.ticksOfUs 30000)) s.tick = true ∨ s.sramOk = false →
          exec (.firmwareRestart e) s = .next s) ∧
        (r.asserted = true → r.restarted = false → later (tadd r.c (s.ticksOfUs 30000)) s.tick = false → s.sramOk = true → Completes (.firmwareRestart e) s fun t =>
          t.creset = some { r with restarted := true } ∧ ∀ g < 136, s.reg (rOff .hdg (g / 34) 0x248) ≠ 0 →
            sget (fun _ => (0 : Word)) t.prng g = seedOf (s.reg (rOff .hdg (g / 34) 0x248)) g)) ∧
      (∀ l,
        (r.restarted = false ∨ later (tadd r.c (s.ticksOfUs 250000)) s.tick = true ∨ s.fld 0x5200 2 0 = 3 → exec (.engineCheck l) s = .next s) ∧
        (r.restarted = true → later (tadd r.c (s.ticksOfUs 250000)) s.tick = false → s.fld 0x5200 2 0 ≠ 3 → Completes (.engineCheck l) s fun t => t.creset = none ∧
          (∀ j ∈ t.fw.journal, j.wait ≠ .reset) ∧ (r.third = true → bit (t.reg 0x220) 0 = true ∧ t.stopped = true) ∧
          (l ≠ [] → t.stopped = true) ∧
          (r.third = false → l = [] → bit (t.reg 0x218) 0 = false ∧
            (s.fld 0x200 15 8 = 11 → r.keepStopped = false → s.rsv.dead = false → s.rsv.flushed = false → s.rsv.drain = none → s.tim.period = none →
              bit (s.reg 0x220) 0 = false → 1 < popCount (s.fld 0x8208 7 0) → t.stopped = false))))) ∧
    ∀ (block inst : Byte) (tile : Fin 4) (cycle : Nat),
      (faultPage block.toNat tile inst.toNat = none ∨ s.rsv.dead = true ∨ s.pins.mainPg = false ∨ (∃ r, s.creset = some r ∧ r.stopped = true) →
        exec (.tileFault block tile inst cycle) s = .next s) ∧
      (∀ p, faultPage block.toNat tile inst.toNat = some p → s.rsv.dead = false → s.pins.mainPg = true →
        (∀ r, s.creset = some r → r.stopped = false) → Completes (.tileFault block tile inst cycle) s fun t => t.tileFaults = s.tileFaults ++ [s.tick] ∧ t.fld 0x220 15 8 = block.toNat ∧
          t.fld 0x220 5 4 = faultTile p ∧ t.fld 0x220 63 16 = s.tick % 2 ^ 48 ∧ bit (t.reg 0x220) 0 = bit (s.reg 0x220) 0 ∧
          (s.rsv.drain.isSome = true → t.creset = s.creset) ∧
          (s.rsv.drain = none → s.creset = none → ∃ r, t.creset = some r ∧ r.tile = true ∧ r.stopped = false ∧
            r.c = tadd s.tick (if cycle + 64 ≤ 400 * s.tim.periodQ then 1 else 2)))

/-! ### Tenants and the management port (R401 to R411, R421 to R424, R444 to R463) -/

/-- From R445, R449, R452, R453, R455: ASSIGN of an unassigned licensed device writes ASSIGNING and ends ACTIVE at a later boundary with a key where there is
flash; RELEASE sets X = R + 2, at which TENANT_EPOCH and the FMC generation advance and the work is discarded; at X + 2 the purge takes the key and every
byte of HBM that it does not keep; PURGED is left by CLEAR at R + 2. An operation in the wrong state is answered STATE. Model's readings here: logs 92, 115, 116, 117.
Commands that complete here: ASSIGN, ASSIGN_DONE, RELEASE, RELEASE_STOP, PURGE_BEGIN, PURGE_DONE, CLEAR. -/
def Obligations.TenantsChange : Prop :=
  ∀ (s : State) (id : BitVec 16), s.rsv.dead = false → s.island.records.length = 2 →
    let asks := s.pins.auxRstN = true ∧ s.island.anchors ≠ [] ∧ s.island.busy = none
    let shows := fun (n : Nat) (t : State) => t.fld 0x5200 2 0 = n ∧ t.tenantRecord.state.toNat = n ∧ t.tenantRecord.seq = s.tenantRecord.seq + 1
    (∀ (body : List Byte),
      let kind := (body.headD 0).toNat
      (asks → s.fld 0x5200 2 0 = 0 → s.fld 0x200 7 0 = 0 → s.variant ≠ 0 → bit (s.reg 0x1200) 4 = false → kind = 1 ∨ (kind = 2 ∧ s.hasAssured = true) →
        Completes (.assign id body) s fun t => shows 1 t ∧ t.tenantRecord.defaultKind.toNat = kind ∧ t.island.assignAt = some s.tick ∧
          t.island.busy = some (0x02, id) ∧ s.changes (.island :: raiseParts) t) ∧
      (asks → s.fld 0x5200 2 0 ≠ 0 → exec (.assign id body) s = .next (s.mgtAnswer 0x02 id mState []))) ∧
    (s.island.assignAt = none → exec .assignDone s = .next s) ∧
    (∀ r, s.island.assignAt = some r → (later s.tick r = false → exec .assignDone s = .next s) ∧
      (later s.tick r = true → Completes .assignDone s fun t => shows 2 t ∧ t.island.key.isSome = s.hasFlash ∧ t.island.assignAt = none ∧ t.island.busy = none ∧
        t.tenantRecord.keyGen = s.tenantRecord.keyGen + (if s.hasFlash then 1 else 0))) ∧
    (asks → s.fld 0x5200 2 0 = 2 → s.rsv.drain = none → Completes (.release id) s fun t => shows 3 t ∧ t.island.release = some (tadd s.tick 2) ∧
      t.fld 0x5210 47 0 = tadd s.tick 2 ∧ t.island.busy = some (0x03, id) ∧ s.changes (.island :: raiseParts) t) ∧
    (asks → s.fld 0x5200 2 0 ≠ 2 → exec (.release id) s = .next (s.mgtAnswer 0x03 id mState [])) ∧
    (s.island.release = none → exec .releaseStop s = .next s ∧ exec .purgeBegin s = .next s ∧ exec .purgeDone s = .next s) ∧
    (∀ x, s.island.release = some x →
      let gens := s.fld 0x5208 31 16 = s.fld 0x5208 15 0
      (later x s.tick = true ∨ s.island.purging = true ∨ ¬gens → exec .releaseStop s = .next s) ∧
      (later x s.tick = false → s.island.purging = false → gens → Completes .releaseStop s fun t =>
        t.tenantRecord.epoch = s.tenantRecord.epoch + 1 ∧ t.fld 0x5200 63 32 = (s.tenantRecord.epoch + 1).toNat ∧
        t.fld 0x5208 31 16 = (s.fld 0x5208 15 0 + 1) % 2 ^ 16 ∧ (s.rsv.drain = none → t.stopped = true ∧ t.adm.reqs = [] ∧ t.xlt.parked = [])) ∧
      (later (tadd x 2) s.tick = true ∨ s.island.purging = true ∨ s.rsv.drain.isSome = true ∨ gens → exec .purgeBegin s = .next s) ∧
      (later (tadd x 2) s.tick = false → s.island.purging = false → s.rsv.drain = none → ¬gens → Completes .purgeBegin s fun t =>
        t.island.purging = true ∧ t.island.key = none ∧ t.tenantRecord.wrapped = 0 ∧ (∀ a, s.purgeKeeps a = false → t.rdB a = 0) ∧
        t.adm.reqs = [] ∧ t.adm.claims = [] ∧ t.tier.flash = [] ∧ t.tier.fgroups = [] ∧ t.tier.lsm = [] ∧ t.coh.doms = [] ∧
        t.tier.slotA.valid = false ∧ t.tier.slotB.valid = false) ∧
      (s.island.purging = false ∨ later (tadd (tadd x 2) s.purgeTicks) s.tick = true ∨ s.sramOk = false → exec .purgeDone s = .next s) ∧
      (s.island.purging = true → later (tadd (tadd x 2) s.purgeTicks) s.tick = false → s.sramOk = true → Completes .purgeDone s fun t => shows 4 t ∧
        t.creset = none ∧ t.island.release = none ∧ t.island.purging = false ∧ t.island.busy = none ∧ bit (t.reg 0x5020) 1 = true)) ∧
    (asks → s.fld 0x5200 2 0 = 4 → exec (.clear id) s = .next { s with island :=
      { s.island with busy := some (0x04, id), clearAt := some (tadd s.tick 2) } }) ∧
    (asks → s.fld 0x5200 2 0 ≠ 4 → exec (.clear id) s = .next (s.mgtAnswer 0x04 id mState []))

/-- From R297, R404, R406, R410, R411, R423, R424, R460: a valid licence that the store does not hold takes a place in it where there is one, and one
that is not valid does not change boot flash; a removed one leaves its place; an image goes into the slot that is not ACTIVE, and its trial into the
directory copy not in use, whose DIR_SEQ is one higher; a record of a higher sequence and a configuration go into the copy not in use. Each of these is
answered OK; a configuration whose DEV_EID is 0xF_FFFF is not accepted. Model's readings here: logs 52, 120, 121, 122.
Commands that complete here: LICENCE_INSTALL, LICENCE_REMOVE, IMAGE_STAGE, IMAGE_TRIAL, RECORD_INSTALL, CONFIG_WRITE. -/
def Obligations.BootFlashIsWritten : Prop :=
  ∀ (s : State) (id : BitVec 16), s.pins.auxRstN = true → s.island.anchors ≠ [] → s.island.busy = none →
    let answers := fun (op res : Byte) (t : State) => .mgt op id res [] ∈ t.out
    (∀ l : Licence,
      (s.licValid l = false → Completes (.licenceInstall id l) s fun t => t.boot = s.boot ∧ .mgt 0x10 id (if l.kind = 1 ∧ s.fld 0x5200 2 0 ≠ 0 then mDenied else mInvalid) [] ∈ t.out ∧
        s.changes raiseParts t) ∧
      (s.licValid l = true → ¬(l.kind = 1 ∧ s.fld 0x5200 2 0 ≠ 0) → (∀ y, some y ∈ s.boot.licences → y.licenceSeq ≠ l.licenceSeq) →
        (none ∈ s.boot.licences ∨ s.boot.licences.length < 64) → Completes (.licenceInstall id l) s fun t => some l ∈ t.boot.licences ∧
          (∀ y, some y ∈ s.boot.licences → some y ∈ t.boot.licences) ∧ t.boot = { s.boot with licences := t.boot.licences } ∧
          bit (t.reg 0x1020) 0 = true ∧ answers 0x10 mOk t ∧ s.changes (.boot :: raiseParts) t)) ∧
    (∀ seq : BitVec 32,
      ((∀ y, some y ∈ s.boot.licences → y.licenceSeq ≠ seq) → exec (.licenceRemove id seq) s = .next (s.mgtAnswer 0x11 id mBad [])) ∧
      (∀ y, s.boot.licences = [some y] → y.licenceSeq = seq → y.kind ≠ 1 ∨ s.fld 0x5200 2 0 = 0 → Completes (.licenceRemove id seq) s fun t =>
        t.boot = { s.boot with licences := [none] } ∧ answers 0x11 mOk t ∧ s.changes (.boot :: raiseParts) t)) ∧
    (let may := s.fld 0x5200 2 0 = 0 ∨ s.fld 0x5200 2 0 = 4 ∨ s.hasStaging = true
     (¬may → (∀ img, exec (.imageStage id img) s = .next (s.mgtAnswer 0x20 id mDenied [])) ∧
       ∀ n, exec (.imageTrial id n) s = .next (s.mgtAnswer 0x21 id mDenied [])) ∧
     (may → ∀ d i, s.dirUsed = some (i, d) → s.boot.dir.length = 2 → s.boot.slots.length = 2 →
       (∀ img, Completes (.imageStage id img) s fun t => t.boot.slots = s.boot.slots.set (b2n (!d.active)) (some img) ∧
         t.island.staged = some (!d.active) ∧ (∃ j, t.dirUsed = some (j, { d with trialLeft := 2, seq := d.seq + 1 }.sealed)) ∧ answers 0x20 mOk t) ∧
       ∀ n : BitVec 8, 1 ≤ n.toNat → n.toNat ≤ 15 → Completes (.imageTrial id n) s fun t => answers 0x21 mOk t ∧
         ∃ e j, t.dirUsed = some (j, e) ∧ e.trialValid = true ∧ e.trialSlot = s.island.staged.getD (!d.active) ∧ e.trialLeft.toNat = n.toNat ∧
           e.active = d.active ∧ e.seq = d.seq + 1)) ∧
    (∀ (r u : DeviceRecord) (i : Nat), s.fld 0x5200 2 0 = 0 ∨ s.fld 0x5200 2 0 = 4 → recordOk r = true → s.recordUsed = some (i, u) →
      s.recordKeyOk = true →
      (u.serial = r.serial → u.identityKey = r.identityKey → u.recordSeq < r.recordSeq → Completes (.recordInstall id r) s fun t =>
        t.boot = { s.boot with records := s.boot.records.set (1 - i) (some r) } ∧ answers 0x22 mOk t ∧ s.changes [.boot, .regs, .out] t) ∧
      (u.serial ≠ r.serial ∨ u.recordSeq ≥ r.recordSeq → exec (.recordInstall id r) s = .next (s.mgtAnswer 0x22 id mInvalid []))) ∧
    ∀ c : BootConfig, (c.devEid = 0xFFFFF → exec (.configWrite id c) s = .next (s.mgtAnswer 0x23 id mBad [])) ∧
      (c.devEid ≠ 0xFFFFF → Completes (.configWrite id c) s fun t => t.boot = { s.boot with configs := s.boot.configs.set (1 - s.configIndex) (some c) } ∧ answers 0x23 mOk t ∧
        s.changes [.boot, .regs, .out] t)

/-- From R457 to R463: the island answers while it is out of reset. GET_STATE shows the tenant and stop registers; TELEMETRY_READ answers with 256 bytes
where it is licensed and the page exists; an anchor is added while fewer than four are held and removed while another is left; a handshake with a known
anchor opens a session while fewer than four are open, one of another suite none; the port's LINK and SPEED follow its link. Each SPDM request
named below has one response in OP 0x60 (their byte layout is the model's choice, log 53).
Commands that complete here: GET_STATE, ANCHOR_ADD, ANCHOR_REMOVE, TELEMETRY_READ, TLS_HANDSHAKE, GET_VERSION, GET_CAPABILITIES,
NEGOTIATE_ALGORITHMS, GET_DIGESTS, GET_CERTIFICATE, CHALLENGE, GET_MEASUREMENTS, SPDM_UNSUPPORTED, MGT_PORT_LINK. -/
def Obligations.TheIslandAnswers : Prop :=
  ∀ (s : State) (id : BitVec 16),
    (s.pins.auxRstN = false → ∀ (a : BitVec 384) (n : Nat) (b : Bool) (k : Byte), exec (.getState id) s = .next s ∧ exec (.anchorAdd id a) s = .next s ∧
      exec (.tlsHandshake a n b) s = .next s ∧ exec (.mgtPortLink b b) s = .next s ∧ exec (.getVersion id) s = .next s ∧
      exec (.spdmUnsupported id k) s = .next s) ∧
    (s.pins.auxRstN = true →
      exec (.getState id) s = .next (s.mgtAnswer 0x01 id mOk (wordsBytes [s.reg 0x5200, s.reg 0x5208, s.reg 0x200])) ∧
      (∀ a : BitVec 384, a ∉ s.island.anchors → s.island.anchors.length < 4 → s.island.busy = none → Completes (.anchorAdd id a) s fun t =>
        t.island = { s.island with anchors := s.island.anchors ++ [a] } ∧ t.fld 0x5218 11 9 = s.island.anchors.length + 1 ∧
        .mgt 0x40 id mOk [] ∈ t.out ∧ s.changes [.regs, .island, .out] t) ∧
      (∀ a : BitVec 384, a ∈ s.island.anchors → s.island.busy = none →
        exec (.anchorAdd id a) s = .next (s.mgtAnswer 0x40 id mOk []) ∧
        (s.island.anchors.length = 1 → exec (.anchorRemove id a) s = .next (s.mgtAnswer 0x41 id mDenied [])) ∧
        (1 < s.island.anchors.length → s.island.anchors.length ≤ 4 → Completes (.anchorRemove id a) s fun t =>
          t.island = { s.island with anchors := s.island.anchors.erase a } ∧ t.fld 0x5218 11 9 + 1 = s.island.anchors.length ∧
          .mgt 0x41 id mOk [] ∈ t.out ∧ s.changes [.regs, .island, .out] t)) ∧
      (∀ b i : Byte, s.island.anchors ≠ [] →
        (s.hasTelemetry = false → exec (.telemetryRead id b i) s = .next (s.mgtAnswer 0x50 id mDenied [])) ∧
        ∀ p, s.hasTelemetry = true → pageFor b.toNat i.toNat = some p → ∃ body : List Byte, body.length = 256 ∧
          exec (.telemetryRead id b i) s = .next (s.mgtAnswer 0x50 id mOk body)) ∧
      (∀ (a : BitVec 384) (n : Nat),
        (s.island.anchors = [] ∨ (a ∈ s.island.anchors ∧ s.tim.netTime ≤ n) → s.island.sessions < 4 → Completes (.tlsHandshake a n true) s fun t =>
          t.island = { s.island with sessions := s.island.sessions + 1 } ∧ t.fld 0x5218 8 6 = s.island.sessions + 1 ∧ .tls true ∈ t.out ∧
          s.changes [.regs, .island, .out] t) ∧
        Completes (.tlsHandshake a n false) s fun t => t.island = s.island ∧ .tls false ∈ t.out ∧ bit (t.reg 0x5020) 2 = true ∧ s.changes raiseParts t) ∧
      (∀ up g : Bool, Completes (.mgtPortLink up g) s fun t => bit (t.reg 0x5218) 0 = up ∧ t.fld 0x5218 2 1 = (if up then (if g then 2 else 1) else 0) ∧
        (bit (s.reg 0x5218) 0 ≠ up → bit (t.reg 0x5020) 3 = true) ∧ s.changes raiseParts t) ∧
      let answers := fun (c : Instr) (code p1 p2 : Byte) (body : List Byte) =>
        exec c s = .next ((s.bump .mgt 0 0x110).mgtAnswer 0x60 id mOk ([0x13, code, p1, p2] ++ body))
      let chain := leBytes 48 (Config.sha384 (Config.certChain 0)).toNat
      answers (.getVersion id) 0x04 0 0 [0, 1, 0, 0x13] ∧ answers (.getCapabilities id) 0x61 0 0 (leBytes 4 0x16) ∧
      answers (.negotiateAlgorithms id) 0x63 0 0 (leBytes 4 0x80 ++ leBytes 4 2) ∧ answers (.getDigests id) 0x01 0 1 chain ∧
      answers (.getCertificate id 0) 0x02 0 0 (Config.certChain 0) ∧ (∀ k : Fin 8, k ≠ 0 → answers (.getCertificate id k) 0x7F 0x07 0x82 []) ∧
      (∀ n, answers (.challenge id 0 n) 0x03 0 1 (chain ++ leBytes 96 (Config.signature (leBytes 32 n.toNat)).toNat)) ∧
      (∀ n (k : Fin 8), k ≠ 0 → answers (.challenge id k n) 0x7F 0x07 0x83 []) ∧
      (∀ (i : Byte) n, 1 ≤ i.toNat → i.toNat ≤ 8 → answers (.getMeasurements id i n) 0x60 0 0 ((i :: s.measurement i.toNat) ++
        leBytes 96 (Config.signature (leBytes 32 n.toNat ++ (i :: s.measurement i.toNat))).toNat)) ∧
      (∀ (i : Byte) n, 8 < i.toNat → i ≠ 0xFF → answers (.getMeasurements id i n) 0x7F 0x01 0 []) ∧
      ∀ k, answers (.spdmUnsupported id k) 0x7F 0x07 k [])

/-! ### The host die (R464 to R476) -/

/-- From R6, R465 to R470, R476: an access of the host die to the host region, over a module that is up and behind no other, reads or writes the 64 or 256
bytes of its line where its pseudo-channel has share left, and waits where it has none; in the register window only an aligned read of 8 bytes is
served, of a block that runs; one of a retraining module waits; one to no window, or of another size or alignment, ends with an error, and a write of
another length than its name says is no command. A module that is up retrains, and one that retrains comes back or goes down; the host die asks for its
restart and takes a signal that waited behind its mask bit. Model's readings here: log 98.
Commands that complete here: HOST_RESET_REQ, MODULE_RETRAIN, MODULE_DOWN, HOST_READ, WRITE256, WRITE64, HOST_ACCESS_DEFERRED, VEC_UNMASK,
MODULE_RETRAIN_DONE. -/
def Obligations.HostDieAccesses : Prop :=
  ∀ s : State,
    let left := fun (ln n : Nat) => s.hostUsed (stackOf ln) (s.pcOf ln) + n ≤ s.share 6
    let good := fun (ln : Nat) => s.regionLineBad ln = false ∧ (s.meta' ln).poison = false
    (∀ (a : BitVec 52) (n : Nat) (d : List Byte) (poison : Bool),
      let m := s.hostModule a.toNat
      let both := fun (P : Instr → Prop) => (d.length = 256 → P (.write256 a d poison)) ∧ (d.length = 64 → P (.write64 a d poison))
      let fails := fun (c : Instr) => exec c s = .next s.hostErr
      let waits := fun (op : HostOp) (c : Instr) => exec c s = .next { s with hostWait := s.hostWait ++ [(m, op)] }
      let late := fun (op : HostOp) (c : Instr) => exec c s = .next { s.bump .uci 0 0x158 with hostWait := s.hostWait ++ [(m, op)] }
      let rd := HostOp.read a.toNat n
      let wr := HostOp.write a.toNat d poison
      (d.length ≠ 256 → exec (.write256 a d poison) s = .fault .illFormed) ∧ (d.length ≠ 64 → exec (.write64 a d poison) s = .fault .illFormed) ∧
      (s.hostHeld = true ∨ (s.modState m ≠ 2 ∧ s.modState m ≠ 3) → exec (.hostRead a n) s = .next s ∧ both fun c => exec c s = .next s) ∧
      (s.hostHeld = false → s.modState m = 3 → waits rd (.hostRead a n) ∧ both (waits wr)) ∧
      (s.hostHeld = false → s.modState m = 2 → (∀ w ∈ s.hostWait, w.1 ≠ m) →
        (s.win a.toNat = .hole → fails (.hostRead a n) ∧ both fails) ∧
        (∀ o, s.win a.toNat = .host o →
          let ln := hostPhys o / 256
          (n ≠ 64 ∧ n ≠ 256 ∨ a.toNat % n ≠ 0 → fails (.hostRead a n)) ∧ (a.toNat % d.length ≠ 0 → both fails) ∧
          (n = 64 ∨ n = 256 → a.toNat % n = 0 →
            (¬left ln 1 → late rd (.hostRead a n)) ∧
            (left ln 1 → good ln → Completes (.hostRead a n) s fun t => t.out = s.out ++ [.hostData (s.rdBs (hostPhys o) n) false] ∧
              s.changes [.regs, .hostUse, .out] t)) ∧
          (a.toNat % d.length = 0 →
            (¬left ln wr.slots → both (late wr)) ∧
            (left ln wr.slots → both fun c => Completes c s fun t => t.rdBs (hostPhys o) d.length = d ∧
              t.meta' ln = { poison := poison || (decide (d.length ≠ 256) && ((s.meta' ln).poison || s.regionLineBad ln)) } ∧
              (∀ x, x < hostPhys o ∨ hostPhys o + d.length ≤ x → t.rdB x = s.rdB x) ∧ t.out = s.out ++ [.hostDone] ∧
              s.changes (.hostUse :: .out :: lineParts) t))) ∧
        ∀ o, s.win a.toNat = .reg o →
          (n ≠ 8 ∨ o % 8 ≠ 0 → fails (.hostRead a n)) ∧ both fails ∧
          ∀ pg, o % 8 = 0 → pageOf (o / 4096) = some pg → s.blockReset pg.blk = false →
            exec (.hostRead a 8) s = .next ((if o = 0x2200 then s.seeTime else s).emit
              (.hostData (leBytes 8 (s.regView .hostDie o).toNat) false)))) ∧
    (∀ m : Fin 4,
      (s.hostHeld = true ∨ s.modState m ≠ 2 ∨ (∀ w ∈ s.hostWait, w.1 ≠ m.val) → exec (.hostAccessDeferred m) s = .next s) ∧
      (s.hostHeld = false → s.modState m = 2 → ∀ a n w o, s.hostWait = (m.val, .read a n) :: w → s.win a = .host o →
        n = 64 ∨ n = 256 → a % n = 0 → left (hostPhys o / 256) 1 → good (hostPhys o / 256) → Completes (.hostAccessDeferred m) s fun t =>
          t.hostWait = w ∧ t.out = s.out ++ [.hostData (s.rdBs (hostPhys o) n) false] ∧
          s.changes [.regs, .hostUse, .out, .hostWait] t) ∧
      (∀ lanes, (s.modState m ≠ 2 → exec (.moduleRetrain m lanes) s = .next s) ∧
        (s.modState m = 2 → Completes (.moduleRetrain m lanes) s fun t => t.modState m = 3 ∧
          t.fld (uciMod m) 7 5 = min 4 (s.fld (uciMod m) 7 5 + lanes % 8) ∧ t.fld (uciMod m) 10 8 = min 4 (s.fld (uciMod m) 10 8 + lanes / 8 % 8) ∧
          bit (t.reg 0x6020) 0 = true ∧ s.changes raiseParts t)) ∧
      (s.modState m ≠ 3 → exec (.moduleRetrainDone m) s = .next s ∧ exec (.moduleDown m) s = .next s) ∧
      (s.modState m = 3 →
        ((∀ w ∈ s.hostWait, w.1 ≠ m.val) → exec (.moduleRetrainDone m) s = .next (s.setFld (uciMod m) 1 0 2)) ∧
        Completes (.moduleDown m) s fun t => t.modState m = 0 ∧ bit (t.reg 0x6020) 1 = true ∧
          t.hostReset = some ((s.hostReset.map (·.1)).getD s.tick, false) ∧ s.changes (.hostReset :: raiseParts) t)) ∧
    (s.hostHeld = true → exec .hostResetReq s = .next s ∧ ∀ v, exec (.vecUnmask v) s = .next s) ∧
    (s.hostHeld = false →
      (Completes .hostResetReq s fun t => t.hostReset = some (s.hostReset.getD (s.tick, true)) ∧ bit (t.reg 0x6020) 5 = true ∧
        s.changes (.hostReset :: raiseParts) t) ∧
      ∀ v : Fin 512, Completes (.vecUnmask v) s fun t => bit (t.reg (vecMask v)) (v % 64) = false ∧ bit (t.reg (vecPend v)) (v % 64) = false ∧
        t.out = s.out ++ (if bit (s.reg (vecPend v)) (v % 64) then [.msi v] else []) ++ [.hostDone] ∧
        (∀ i < 64, i ≠ v % 64 → bit (t.reg (vecMask v)) i = bit (s.reg (vecMask v)) i ∧ bit (t.reg (vecPend v)) i = bit (s.reg (vecPend v)) i) ∧
        s.changes [.regs, .out] t)

/-- R474: when BOOT_TMO_MS have passed since the release and STATE is still BOOTING, STATE becomes TIMEOUT and HOST_TIMEOUT is raised; what serves transit
and clients is no part of what changes. A nonzero write to UCI_HOST_ALIVE, a later one too, sets STATE to ALIVE and raises HOST_ALIVE.
Commands that complete here: HOST_ALIVE, HOST_BOOT_TIMEOUT. -/
def Obligations.TheHostDieComesAlive : Prop :=
  ∀ s : State,
    (s.hostHeld = true → ∀ v, exec (.hostAlive v) s = .next s) ∧
    (s.hostHeld = false → ∀ v : Word, Completes (.hostAlive v) s fun t => t.reg 0x6230 = v ∧ .hostDone ∈ t.out ∧ s.changes raiseParts t ∧
      if v = 0 then t.reg 0x6228 = s.reg 0x6228 else t.fld 0x6228 1 0 = 2 ∧ bit (t.reg 0x6020) 3 = true) ∧
    ∀ ms : Nat,
      let due := s.fld 0x6228 1 0 = 1 ∧ (if s.fld 0x6220 31 16 = 0 then 5000 else s.fld 0x6220 31 16) ≤ ms
      (¬due → exec (.hostBootTimeout ms) s = .next s) ∧
      (due → Completes (.hostBootTimeout ms) s fun t => t.fld 0x6228 1 0 = 3 ∧ bit (t.reg 0x6020) 4 = true ∧ s.changes raiseParts t)

/-! ### Register writes (R6, R439, R440, R478, R479) -/

/-- From R6, R15, R418, R439, R440, R478, R479: a write that is not of an aligned 64-bit word, to no page, or to a block that
does not run, ends with an error and changes nothing else; one to an undefined offset is discarded; one to a register that the agent may not write ends
with an error. Any other outside the common part of a page gives each field that the agent may write its new value by its access code and leaves the
rest, where no chapter gives the write an effect of its own. EVT_FORCE sets the defined bits without a capture, EVT_STATUS clears the bits written as 1,
VALID written as 1 clears the eight words of the capture; the event that a page's signal posts can itself show on an HMC page, whose line it is written
to. Model's readings here: logs 95, 96, 99, 151.
Commands that complete here: REGISTER_WRITE, EVT_FORCE, EVT_STATUS_CLEAR, ERR_LOG_CLEAR. -/
def Obligations.RegisterWritesTakeEffect : Prop :=
  ∀ (by' : Agent) (v : Word) (s : State),
    (∀ (a : BitVec 24) (size : Nat),
      let o := a.toNat % 4096
      (size ≠ 8 ∨ a.toNat % 8 ≠ 0 ∨ pageOf (a.toNat / 4096) = none → exec (.registerWrite by' a size v) s = .next (s.respond by' false)) ∧
      (a.toNat % 8 = 0 → ∀ pg, pageOf (a.toNat / 4096) = some pg →
        (s.blockReset pg.blk = true → exec (.registerWrite by' a 8 v) s = .next (s.respond by' false)) ∧
        (s.blockReset pg.blk = false → pg.blk = .mgt → by' ≠ .management → exec (.registerWrite by' a 8 v) s = .next (s.respond by' true)) ∧
        (s.blockReset pg.blk = false → (pg.blk = .mgt → by' = .management) → 0x200 ≤ o → isSelector pg.blk o = false →
          (pg.blk.regAt o = none → exec (.registerWrite by' a 8 v) s = .next (s.respond by' true)) ∧
          ∀ r, pg.blk.regAt o = some r →
            ((∃ f ∈ r.flds, f.acc ≠ .ro) → (∀ f ∈ r.flds, f.writable by' = false) → exec (.registerWrite by' a 8 v) s = .next (s.respond by' false)) ∧
            ((∀ f ∈ r.flds, f.acc = .ro) → exec (.registerWrite by' a 8 v) s = .next (s.respond by' true)) ∧
            ((∃ f ∈ r.flds, f.writable by' = true) → s.ownWrite pg o a.toNat v = none → Completes (.registerWrite by' a 8 v) s fun t =>
              (∀ f ∈ r.flds, t.fld a.toNat f.hi f.lo = if f.writable by' = false then s.fld a.toNat f.hi f.lo else match f.acc with
                | .ro => s.fld a.toNat f.hi f.lo
                | .rw => bits v f.hi f.lo
                | .w1c => bits (s.reg a.toNat &&& ~~~v) f.hi f.lo
                | .w1s => bits (s.reg a.toNat ||| v) f.hi f.lo) ∧
              s.regsBut [a.toNat] t ∧ s.changes [.regs, .out] t ∧ t.out = s.out ++ (if by' = .hostDie then [.hostDone] else []))))) ∧
    ∀ (page : BitVec 12),
      let all := fun (c : Instr) (ok : Bool) => exec c s = .next (s.respond by' ok)
      (pageOf page.toNat = none → all (.evtForce by' page v) false ∧ all (.evtStatusClear by' page v) false ∧ all (.errLogClear by' page v) false) ∧
      ∀ pg, pageOf page.toNat = some pg →
        (s.blockReset pg.blk = true → all (.evtForce by' page v) false ∧ all (.evtStatusClear by' page v) false ∧ all (.errLogClear by' page v) false) ∧
        (s.blockReset pg.blk = false → (pg.blk = .mgt → by' = .management) →
          let st := rOff pg.blk pg.inst 0x20
          (Completes (.evtForce by' page v) s fun t => (∀ k < pg.blk.events, bit v k = true → bit (t.reg st) k = true) ∧
            (∀ k, bit (s.reg st) k = true → bit (t.reg st) k = true) ∧
            (pg.blk ≠ .hmc ∨ s.signalled.contains page.toNat = true →
              ∀ j < 8, t.reg (rOff pg.blk pg.inst (0x40 + 8 * j)) = s.reg (rOff pg.blk pg.inst (0x40 + 8 * j))) ∧ s.changes raiseParts t) ∧
          (Completes (.evtStatusClear by' page v) s fun t => (pg.blk ≠ .fwc ∨ s.fw.evtHeld.length < 1024 →
            ∀ k < 64, (pg.blk = .hmc → 2 ≤ k) → bit (t.reg st) k = (bit (s.reg st) k && !bit v k)) ∧ s.changes raiseParts t) ∧
          (bit v 0 = true → Completes (.errLogClear by' page v) s fun t => (∀ j < 8, t.reg (rOff pg.blk pg.inst (0x40 + 8 * j)) = 0) ∧
            (∀ x, (∀ j < 8, x ≠ rOff pg.blk pg.inst (0x40 + 8 * j)) → t.reg x = s.reg x) ∧ s.changes [.regs, .out] t) ∧
          (bit v 0 = false → all (.errLogClear by' page v) true))

/-! ### Link blocks (R327 to R341) -/

/-- From R328 to R337, R341: a port in INIT, UP or announcing counts a block whose CRC fails and takes nothing of it. In UP the DATA block that E names
advances E and joins its packet, one ahead is held with a NAK for the gap, one behind is dropped; an IDLE block frees what its ACK covers, and it, a NAK
and a DATA block set XOFF_IN. A NAK, or the timer, resends a flagged block within its limits; past them the port retrains, or goes DOWN in probation. A
block of an undefined type only counts. Model's readings here: logs 63, 66.
Commands that complete here: DATA_BLOCK, IDLE_BLOCK, NAK, BLOCK_CRC_FAIL, NAK_RETRY, REPLAY_TIMEOUT, UNDEFINED_BLOCK. -/
def Obligations.LinkBlocksAreTaken : Prop :=
  ∀ (s : State) (p : Fin 32) (b : Block) (ns : Nat),
    let l := s.link p
    let rows : List (BitVec 4 × Instr) := [(1, .dataBlock p b ns), (0, .idleBlock p b ns), (2, .nak p b ns)]
    let up := s.linkState p = 4
    let good := b.crcOk = true
    let d := (b.seq - l.expect).toNat
    let xoffIn := fun (t : State) => t.fld (rOff .lnk p 0x220) 63 56 = b.xoff.toNat
    let naks := fun (k : Nat) (t : State) => ∃ n, .block p.val n ∈ t.out ∧ n.type = 2 ∧ n.crcOk = true ∧ bits (n.word 0) 11 0 = l.expect.toNat ∧
      ∀ i < 256, bit (n.word (1 + i / 64)) (i % 64) = decide (i < k)
    let resent := fun (u : TxBlock) (rest : List TxBlock) (t : State) => (t.link p).unacked = { u with replays := u.replays + 1, sentNs := ns } :: rest ∧
      (t.link p).replayUsed = l.replayUsed + 1 ∧ ∃ n, .block p.val n ∈ t.out ∧ n.type = 1 ∧ n.crcOk = true ∧ n.seq = u.blk.seq ∧ n.vc = u.blk.vc ∧
        n.sop = u.blk.sop ∧ n.body = u.blk.body ∧ s.changes (.fab :: raiseParts) t
    let ends := fun (u : TxBlock) (t : State) => t.fld (rOff .lnk p 0x210) 2 0 = (if s.fld (rOff .lnk p 0x210) 3 3 = 1 then 1 else 5) ∧
      t.fld (rOff .lnk p 0x210) 43 40 = (if s.fld (rOff .lnk p 0x210) 3 3 = 1 then 0xB else if s.replayN p ≤ u.replays then 1 else 2) ∧
      s.changes (.coh :: .adm :: .fab :: .fresh :: raiseParts) t
    let within := fun (u : TxBlock) => u.replays < s.replayN p ∧ l.replayUsed < s.perTick (s.replayPerUs p)
    (∀ r ∈ rows, (b.type ≠ r.1 ∨ s.receives p = false → exec r.2 s = .next s) ∧
      (b.type = r.1 → s.receives p = true → ¬good → exec r.2 s = .next (s.bump .lnk p 0x138)) ∧
      (b.type = r.1 → s.linkState p = 3 → good → exec r.2 s = .next (s.bump .lnk p 0x108))) ∧
    (b.type = 1 → up → good →
      (d = 0 → l.held = [] → b.sop = true → (∀ x ∈ l.partials, x.vc ≠ b.vc.toNat) → 1 < (⟨b.vc.toNat, b.body, [b.poison]⟩ : RxPartial).total →
        Completes (.dataBlock p b ns) s fun t => (t.link p).expect = l.expect + 1 ∧ (t.link p).held = [] ∧
          (t.link p).partials = l.partials ++ [⟨b.vc.toNat, b.body, [b.poison]⟩] ∧ xoffIn t ∧ s.changes [.regs, .fab] t) ∧
      (0 < d → d < 2048 → l.held = [] → l.nakSent = [] → Completes (.dataBlock p b ns) s fun t => (t.link p).held = [b] ∧
        (t.link p).expect = l.expect ∧ (t.link p).partials = l.partials ∧ naks d t ∧ xoffIn t ∧ s.changes [.regs, .fab, .out] t) ∧
      (2048 ≤ d → Completes (.dataBlock p b ns) s fun t => (t.link p).held = l.held ∧ (t.link p).expect = l.expect ∧ (t.link p).partials = l.partials ∧
        xoffIn t ∧ s.changes [.regs, .fab] t)) ∧
    (b.type = 0 → up → good →
      (d = 0 → ((∀ u ∈ l.unacked, u.blk.seq ≠ b.ack) → Completes (.idleBlock p b ns) s fun t => t.fab = s.fab ∧ xoffIn t ∧ s.changes [.regs] t) ∧
        ∀ pre u post, l.unacked = pre ++ u :: post → u.blk.seq = b.ack → (∀ x ∈ pre, x.blk.seq ≠ b.ack) → Completes (.idleBlock p b ns) s fun t =>
          t.link p = { l with unacked := post } ∧ xoffIn t ∧ s.changes [.regs, .fab] t) ∧
      (0 < d → d ≤ 2048 → l.held = [] → l.nakSent = [] → Completes (.idleBlock p b ns) s fun t => naks d t ∧ xoffIn t ∧ (t.link p).held = [] ∧
        (t.link p).expect = l.expect ∧ s.changes [.regs, .fab, .out] t)) ∧
    (b.type = 2 → up → good → d = 0 → ∀ u, l.unacked = [u] → b.ack ≠ u.blk.seq → u.blk.body.length = 248 →
      let i := (u.blk.seq - BitVec.ofNat 12 (bits (b.word 0) 11 0)).toNat
      let flagged := i < 256 ∧ bit (b.word (1 + i / 64)) (i % 64) = true
      (¬flagged → Completes (.nak p b ns) s fun t => t.fab = s.fab ∧ xoffIn t ∧ s.changes [.regs] t) ∧
      (flagged → within u → Completes (.nak p b ns) s fun t => resent u [] t ∧ xoffIn t) ∧
      (flagged → ¬within u → Completes (.nak p b ns) s fun t => ends u t)) ∧
    (¬up ∨ l.unacked = [] → exec (.replayTimeout p ns) s = .next s) ∧
    (up → ∀ u rest, l.unacked = u :: rest → u.blk.body.length = 248 → (∀ v ∈ rest, v.blk.seq ≠ u.blk.seq) →
      (ns < u.sentNs + s.replayTmo p → exec (.replayTimeout p ns) s = .next s) ∧
      (u.sentNs + s.replayTmo p ≤ ns → within u → Completes (.replayTimeout p ns) s fun t => resent u rest t) ∧
      (u.sentNs + s.replayTmo p ≤ ns → ¬within u → Completes (.replayTimeout p ns) s fun t => ends u t)) ∧
    (¬up ∨ (l.held = [] ∧ l.nakSent = []) → exec (.nakRetry p ns) s = .next s) ∧
    (up → ∀ h, l.held = [h] → l.nakSent = [] → 0 < (h.seq - l.expect).toNat → (h.seq - l.expect).toNat < 2048 → Completes (.nakRetry p ns) s fun t =>
      naks (h.seq - l.expect).toNat t ∧ (t.link p).held = [h] ∧ (t.link p).expect = l.expect ∧ s.changes [.regs, .fab, .out] t) ∧
    (∀ bad : Bool, (s.receives p = false ∨ (good ∧ bad = false) → exec (.blockCrcFail p b bad) s = .next s) ∧
      (s.receives p = true → bad = true → exec (.blockCrcFail p b bad) s = .next ((s.bump .lnk p 0x168).bump .lnk p 0x138)) ∧
      (s.receives p = true → ¬good → exec (.blockCrcFail p b false) s = .next (s.bump .lnk p 0x138))) ∧
    let undefined := 4 ≤ b.type.toNat ∨ (b.type = 3 ∧ cmsg b ∉ [0x01, 0x02, 0x03, 0x04, 0x10, 0x11])
    (¬undefined ∨ s.receives p = false → exec (.undefinedBlock p b) s = .next s) ∧
    (undefined → s.receives p = true → good → exec (.undefinedBlock p b) s = .next ((s.bump .lnk p 0x108).bump .lnk p 0x148))

/-! ### Training (R325, R338 to R349) -/

/-- From R325, R338, R340, R345, R347 to R349: what the messages and events of training do to a port. INIT notes the peer, sends its probes, answers the
peer's, takes its 16 round trips into the figures of R340, and ends in UP, or in DOWN with a cause; UP leaves for RETRAIN, a lane that errs only after 16
ticks in a row over its limit; of two ends that announce one yields; training ends in INIT on the first lane group that both ends pass, without the lanes
that either has excluded, or in DOWN. Model's readings here: logs 3, 23, 60, 64, 65.
Commands that complete here: LINK_ID, RTT_PROBE, RTT_REPLY, INIT_DONE, RETRAIN_REQ, FOLLOW, TRAIN_DONE, TRAIN_TIMEOUT, LANE_ERR, LOCK_LOST,
PROBATION_END, TRAIN_RETRY. -/
def Obligations.LinksTrain : Prop :=
  ∀ (s : State) (p : Fin 32),
    let l := s.link p
    let o := rOff .lnk p 0x210
    let is := fun (b : Block) (code : Nat) => b.type = 3 ∧ cmsg b = code ∧ b.crcOk = true
    let moved := fun (t : State) => s.changes (.coh :: .adm :: .fab :: .fresh :: raiseParts) t
    let goes := fun (st cause : Nat) (t : State) => t.linkState p = st ∧ t.fld o 43 40 = cause ∧ moved t
    let sends := fun (code : Nat) (t : State) => ∃ n, .block p.val n ∈ t.out ∧ n.type = 3 ∧ cmsg n = code ∧ n.crcOk = true ∧ bits (n.word 0) 27 8 = s.devEid.toNat
    (s.receives p = false → ∀ (b : Block) (ns : Nat), exec (.linkId p b) s = .next { s with fresh := s.fresh + 1 } ∧
      exec (.rttProbe p b) s = .next { s with fresh := s.fresh + 1 } ∧ exec (.rttReply p b ns) s = .next s ∧
      exec (.initDone p b) s = .next { s with fresh := s.fresh + 1 } ∧ exec (.retrainReq p b) s = .next { s with fresh := s.fresh + 1 } ∧
      exec (.follow p b) s = .next { s with fresh := s.fresh + 1 }) ∧
    (s.linkState p = 3 → ∀ b : Block,
      let eid := bits (b.word 0) 27 8
      (is b 1 → eid = s.devEid.toNat → Completes (.linkId p b) s fun t => goes 1 0xA t ∧ bit (t.reg (rOff .lnk p 0x20)) 5 = true) ∧
      (is b 1 → eid ≠ s.devEid.toNat → bits (b.word 0) 55 48 ≠ 1 → Completes (.linkId p b) s (goes 1 8)) ∧
      (is b 1 → eid ≠ s.devEid.toNat → bits (b.word 0) 55 48 = 1 → l.peerIdSeen = false → l.rtt.length < 16 → Completes (.linkId p b) s fun t =>
        t.linkState p = 3 ∧ t.fld o 39 20 = eid ∧ t.fld o 16 16 = b2n (decide (eid < s.devEid.toNat)) ∧ (t.link p).peerIdSeen = true ∧
        (t.link p).peerLanes.toNat = bits (b.word 0) 37 30 ∧
        (1 ≤ bits (b.word 0) 29 28 → (t.link p).vcCount = min (s.vcCode p) (bits (b.word 0) 29 28)) ∧
        (∃ ids ps, t.out = s.out ++ ids ++ ps ∧ ids.length ≤ s.portBlocks p / 16 ∧ ps.length = 16 ∧
          (∀ x ∈ ids, ∃ n, x = .block p.val n ∧ n.type = 3 ∧ cmsg n = 1) ∧ ∀ x ∈ ps, ∃ n, x = .block p.val n ∧ n.type = 3 ∧ cmsg n = 2) ∧ s.changes [.regs, .fab, .fresh, .out] t) ∧
      (is b 2 → Completes (.rttProbe p b) s fun t => (∃ n, t.out = s.out ++ [.block p.val n] ∧ n.type = 3 ∧ cmsg n = 3 ∧ n.word 1 = b.word 1) ∧
        s.changes [.regs, .fresh, .out] t) ∧
      (∀ ns, is b 3 →
        (16 ≤ l.rtt.length → exec (.rttReply p b ns) s = .next (s.bump .lnk p 0x108)) ∧
        (l.rtt.length < 15 → Completes (.rttReply p b ns) s fun t => t.link p = { l with rtt := l.rtt ++ [ns - (b.word 1).toNat] } ∧ s.changes [.regs, .fab] t) ∧
        (l.rtt.length = 15 → l.peerIdSeen = true → l.myDone = none →
          let rtt := (l.rtt ++ [ns - (b.word 1).toNat]).foldl max 0
          let buf := if l.vcCount = 1 then 1024 else if l.vcCount = 3 then 256 else 512
          let h := cdiv (rtt * 100) 128 + 34
          (buf < h + 68 → Completes (.rttReply p b ns) s fun t => goes 1 9 t ∧ ∃ n, .block p.val n ∈ t.out ∧ cmsg n = 4 ∧ bit (n.word 0) 38 = false) ∧
          (h + 68 ≤ buf → l.peerDone = none → Completes (.rttReply p b ns) s fun t => t.linkState p = 3 ∧ (t.link p).myDone = some true ∧
            t.fld (rOff .lnk p 0x218) 15 0 = rtt ∧ t.fld (rOff .lnk p 0x218) 31 16 = h ∧ t.replayTmo p = rtt + 256 ∧
            t.fld (rOff .lnk p 0x220) 11 0 = buf ∧ t.fld (rOff .lnk p 0x220) 27 16 = buf - h ∧ t.fld (rOff .lnk p 0x220) 43 32 = buf - h - 34 ∧
            (∃ n, t.out = s.out ++ [.block p.val n] ∧ n.type = 3 ∧ cmsg n = 4 ∧ bit (n.word 0) 38 = true) ∧ s.changes [.regs, .fab, .out] t))) ∧
      (is b 4 →
        (bit (b.word 0) 38 = false → Completes (.initDone p b) s (goes 1 9)) ∧
        (bit (b.word 0) 38 = true → l.myDone = none → Completes (.initDone p b) s fun t => t.link p = { l with peerDone := some true } ∧
          t.linkState p = 3 ∧ s.changes [.regs, .fab, .fresh] t) ∧
        (bit (b.word 0) 38 = true → l.myDone = some true → Completes (.initDone p b) s fun t => t.linkState p = 4 ∧ t.fld o 3 3 = b2n l.fromRetrain ∧
          (t.link p).probEnd = (if l.fromRetrain then some (tadd s.tick (bits (s.linkCfg p) 31 16)) else none) ∧
          bit (t.reg (rOff .lnk p 0x20)) 0 = true ∧ moved t))) ∧
    (∀ b : Block,
      (s.linkState p = 4 → is b 0x10 → Completes (.retrainReq p b) s fun t => goes 5 5 t ∧ sends 0x11 t ∧ (t.link p).announcing = false ∧
        (t.link p).peerLanes.toNat = bits (b.word 0) 37 30) ∧
      (s.linkState p = 5 → l.announcing = true → is b 0x10 → Completes (.retrainReq p b) s fun t => t.linkState p = 5 ∧
        (t.link p).peerLanes.toNat = bits (b.word 0) 37 30 ∧ s.changes [.regs, .fab, .fresh, .out] t ∧
        if s.peerEid p < s.devEid.toNat then (t.link p).announcing = true ∧ (t.link p).slots = 0 ∧
          ∃ bs, t.out = s.out ++ bs ∧ bs.length = l.slots ∧ ∀ x ∈ bs, ∃ n, x = .block p.val n ∧ n.type = 3 ∧ cmsg n = 0x10
        else (t.link p).announcing = false ∧ t.fld o 43 40 = 5 ∧ sends 0x11 t) ∧
      (s.linkState p = 5 → l.announcing = true → is b 0x11 → Completes (.follow p b) s fun t => (t.link p).announcing = false ∧ t.linkState p = 5 ∧
        (t.link p).peerLanes.toNat = bits (b.word 0) 37 30 ∧ (t.link p).slots = 0 ∧ s.changes [.regs, .fab, .fresh, .out] t)) ∧
    (∀ mine peer : Byte,
      let m := mine &&& l.myLanes
      let q := peer &&& l.peerLanes
      (s.linkState p ≠ 2 → s.linkState p ≠ 5 → exec (.trainDone p mine peer) s = .next s) ∧
      (s.linkState p = 2 ∨ s.linkState p = 5 →
        (laneGroup (m &&& q) = none → Completes (.trainDone p mine peer) s (goes 1 8)) ∧
        ∀ g, laneGroup (m &&& q) = some g →
          (laneCount g < s.widthMin p → Completes (.trainDone p mine peer) s (goes 1 8)) ∧
          (s.widthMin p ≤ laneCount g → Completes (.trainDone p mine peer) s fun t => t.linkState p = 3 ∧ t.fld o 13 6 = g.toNat ∧
            t.fld o 5 4 = widthCode (laneCount g) ∧ t.fld o 16 16 = b2n (decide (s.peerEid p < s.devEid.toNat)) ∧ (t.link p).expect = 0 ∧
            (t.link p).txNext = 0 ∧ (t.link p).myLanes = m ∧ (t.link p).peerLanes = q ∧ sends 1 t ∧ s.changes [.regs, .fab, .out] t))) ∧
    (∀ us : Nat,
      (s.linkState p = 2 → 500000 ≤ us → Completes (.trainTimeout p us) s (goes 1 8)) ∧
      (s.linkState p = 5 → max 20 (bits (s.linkCfg p) 43 32) ≤ us → Completes (.trainTimeout p us) s (goes 1 7)) ∧
      (¬(s.linkState p = 2 ∧ 500000 ≤ us) → ¬(s.linkState p = 5 ∧ max 20 (bits (s.linkCfg p) 43 32) ≤ us) → exec (.trainTimeout p us) s = .next s)) ∧
    (s.linkState p ≠ 4 → (∀ k, exec (.laneErr p k) s = .next s) ∧ exec (.lockLost p) s = .next s) ∧
    (s.linkState p = 4 → (∀ k : Fin 8,
        (sget (fun _ => 0) l.laneRuns k.val < 16 → exec (.laneErr p k) s = .next s) ∧
        (16 ≤ sget (fun _ => 0) l.laneRuns k.val → Completes (.laneErr p k) s fun t => goes 5 3 t ∧ sends 0x10 t ∧
          (t.link p).myLanes.getLsbD k = false ∧ (t.link p).announcing = true)) ∧ Completes (.lockLost p) s (goes 5 4)) ∧
    (l.probEnd = none → exec (.probationEnd p) s = .next s) ∧
    (∀ e, l.probEnd = some e → (later e s.tick = true → exec (.probationEnd p) s = .next s) ∧
      (later e s.tick = false → Completes (.probationEnd p) s fun t => t.fld o 3 3 = 0 ∧ t.link p = { l with probEnd := none } ∧ s.changes [.regs, .fab] t)) ∧
    (s.portLicensed p = false ∨ s.fld (rOff .lnk p 0x208) 3 3 = 1 ∨ s.linkState p ≠ 1 → exec (.trainRetry p) s = .next s) ∧
    (s.portLicensed p = true → s.fld (rOff .lnk p 0x208) 3 3 = 0 → s.linkState p = 1 → Completes (.trainRetry p) s fun t => t.linkState p = 2 ∧
      (t.link p).cfg = some (s.reg (rOff .lnk p 0x200)) ∧ (t.link p).myLanes = ~~~(BitVec.ofNat 8 (s.fld (rOff .lnk p 0x208) 11 4)) ∧
      s.changes [.regs, .fab] t)

/-! ### Every step, and reset -/

/-- Every step keeps HBM in its canonical form: addresses strictly rising, and nothing listed that an unlisted address reads as. -/
def Obligations.MemoryStaysCanonical : Prop :=
  ∀ s t : State, s.memoryOk = true → step s = .next t → t.memoryOk = true

/-- After reset no command waits, DRAIN_DONE is low (R502), HBM is in its canonical form, every field of every page reads as its register table gives its
reset value (TARGET of EVT_ROUTE 2, R440), and every table shows its size (R29). That a field with no reset value, 'per start' or 'per record', reads 0 is
the model's choice (log 2), and that a byte of HBM reads 0 is (log 1). -/
def Obligations.ResetState : Prop :=
  State.reset.pending = [] ∧ State.reset.pins.drainDone = false ∧ State.reset.memoryOk = true ∧ (∀ a, State.reset.rdB a = 0) ∧
  (∀ p pg, pageOf p = some pg → State.reset.fld (p * 4096 + 0x38) 15 14 = 2 ∧ State.reset.fld (p * 4096 + 0x20) 63 0 = 0 ∧
    State.reset.fld (p * 4096 + 0x28) 63 0 = 0 ∧ (pg.blk ∉ [.ext, .fwc3, .mgt] → ∀ r ∈ pg.blk.regs, ∀ k < r.count, ∀ f ∈ r.flds,
      State.reset.fld (p * 4096 + r.off + k * r.stride) f.hi f.lo = f.reset)) ∧
  ∀ t : Table, State.reset.fld (t.group + 0x10) 47 16 = t.entries ∧ 2 ^ State.reset.fld (t.group + 0x10) 3 0 = t.size
end

