-- ==== Sys2Proof/Laws/Sparse.lean ====
section
/-! SUPPORT. Laws of sparse data: reading after writing, and the canonical form, which every update keeps. -/

namespace Sys2Proof.Machine

variable {α : Type}

/-! ### Reading after writing -/

@[simp] theorem sget_nil (d : Nat → α) (k : Nat) : sget d [] k = d k := rfl

theorem sget_cons (d : Nat → α) (e : Nat × α) (m : SMap α) (k : Nat) : sget d (e :: m) k = if k = e.1 then e.2 else sget d m k := rfl

/-- A written key reads as what was written. -/
theorem sget_sput_self (d : Nat → α) (m : SMap α) (k : Nat) (v : α) : sget d (sput m k v) k = v := by
  induction m with
  | nil => simp [sput, sget]
  | cons e r ih =>
    obtain ⟨k', v'⟩ := e
    simp only [sput]
    split_ifs with h1 h2
    · simp [sget]
    · simp [sget]
    · simp [sget, h1, ih]

/-- Writing a key leaves every other key. -/
theorem sget_sput_ne (d : Nat → α) (m : SMap α) {k j : Nat} (v : α) (h : j ≠ k) : sget d (sput m k v) j = sget d m j := by
  induction m with
  | nil => simp [sput, sget, h]
  | cons e r ih =>
    obtain ⟨k', v'⟩ := e
    simp only [sput]
    split_ifs with h1 h2
    · subst h1; simp [sget, h]
    · simp [sget, h]
    · simp only [sget]; rw [ih]

/-- A dropped key reads as its default, and no other key changes, whatever the condition that drops entries. -/
theorem sget_filter (d : Nat → α) (m : SMap α) (p : Nat → Bool) (k : Nat) :
    sget d (m.filter fun e => p e.1) k = if p k then sget d m k else d k := by
  induction m with
  | nil => simp [sget]
  | cons e r ih =>
    by_cases hp : p e.1
    · rw [List.filter_cons_of_pos (by simpa using hp), sget_cons, sget_cons, ih]
      by_cases hk : k = e.1
      · simp [hk, hp]
      · simp [hk]
    · rw [List.filter_cons_of_neg (by simpa using hp), ih, sget_cons]
      by_cases hk : k = e.1
      · simp [hk, hp]
      · simp [hk]

variable [DecidableEq α]

@[simp] theorem sget_sset_self (d : Nat → α) (m : SMap α) (k : Nat) (v : α) : sget d (sset d m k v) k = v := by
  unfold sset
  split_ifs with h
  · exact (sget_filter d m (fun j => decide (j ≠ k)) k).trans (by simp [h])
  · exact sget_sput_self d m k v

theorem sget_sset_ne (d : Nat → α) (m : SMap α) {k j : Nat} (v : α) (h : j ≠ k) : sget d (sset d m k v) j = sget d m j := by
  unfold sset
  split_ifs with hv
  · exact (sget_filter d m (fun i => decide (i ≠ k)) j).trans (by simp [h])
  · exact sget_sput_ne d m v h

/-- What a key reads as after any one write. -/
theorem sget_sset (d : Nat → α) (m : SMap α) (k j : Nat) (v : α) : sget d (sset d m k v) j = if j = k then v else sget d m j := by
  split_ifs with h
  · subst h; simp
  · exact sget_sset_ne d m v h

/-! ### The canonical form -/

/-- The canonical form: keys strictly rising, no entry equal to the default of its key. -/
theorem SMap.wf_iff (d : Nat → α) (m : SMap α) :
    SMap.wf d m = true ↔ m.Pairwise (fun a b => a.1 < b.1) ∧ ∀ e ∈ m, e.2 ≠ d e.1 := by
  induction m with
  | nil => simp [SMap.wf]
  | cons e r ih =>
    obtain ⟨k, v⟩ := e
    cases r with
    | nil => simp [SMap.wf]
    | cons e' r =>
      obtain ⟨k', v'⟩ := e'
      rw [SMap.wf]
      simp only [Bool.and_eq_true, decide_eq_true_eq, ih]
      constructor
      · rintro ⟨⟨hv, hk⟩, hp, hd⟩
        refine ⟨List.pairwise_cons.2 ⟨?_, hp⟩, ?_⟩
        · intro b hb
          rcases List.mem_cons.1 hb with rfl | hb
          · exact hk
          · exact lt_trans hk ((List.pairwise_cons.1 hp).1 b hb)
        · intro b hb
          rcases List.mem_cons.1 hb with rfl | hb
          · exact hv
          · exact hd b hb
      · rintro ⟨hp, hd⟩
        have hp' := List.pairwise_cons.1 hp
        exact ⟨⟨hd (k, v) (by simp), hp'.1 (k', v') (by simp)⟩, hp'.2, fun b hb => hd b (List.mem_cons_of_mem _ hb)⟩

/-- Dropping entries keeps the form. -/
theorem SMap.wf_filter {d : Nat → α} {m : SMap α} (h : SMap.wf d m = true) (p : Nat × α → Bool) : SMap.wf d (m.filter p) = true := by
  rw [SMap.wf_iff] at *
  exact ⟨h.1.sublist List.filter_sublist, fun e he => h.2 e (List.mem_of_mem_filter he)⟩

/-- The entries after a `sput`: the new one, and old ones. -/
theorem mem_sput {m : SMap α} {k : Nat} {v : α} {e : Nat × α} (h : e ∈ sput m k v) : e = (k, v) ∨ e ∈ m := by
  induction m with
  | nil => simpa [sput] using h
  | cons x r ih =>
    obtain ⟨k', v'⟩ := x
    simp only [sput] at h
    split_ifs at h with h1 h2
    · simp only [List.mem_cons] at h ⊢; tauto
    · simp only [List.mem_cons] at h ⊢; tauto
    · rcases List.mem_cons.1 h with h | h
      · right; simp [h]
      · rcases ih h with h | h
        · exact .inl h
        · exact .inr (List.mem_cons_of_mem _ h)

/-- Putting a value that is not the default keeps the form. -/
theorem SMap.wf_sput {d : Nat → α} {m : SMap α} {k : Nat} {v : α} (h : SMap.wf d m = true) (hv : v ≠ d k) : SMap.wf d (sput m k v) = true := by
  rw [SMap.wf_iff] at *
  obtain ⟨hp, hd⟩ := h
  refine ⟨?_, fun e he => ?_⟩
  · clear hd hv
    induction m with
    | nil => simp [sput]
    | cons x r ih =>
      obtain ⟨k', v'⟩ := x
      have hp' := List.pairwise_cons.1 hp
      simp only [sput]
      split_ifs with h1 h2
      · subst h1; exact List.pairwise_cons.2 ⟨hp'.1, hp'.2⟩
      · refine List.pairwise_cons.2 ⟨fun b hb => ?_, hp⟩
        rcases List.mem_cons.1 hb with rfl | hb
        · exact h2
        · exact lt_trans h2 (hp'.1 b hb)
      · refine List.pairwise_cons.2 ⟨fun b hb => ?_, ih hp'.2⟩
        rcases mem_sput hb with rfl | hb
        · simp only; omega
        · exact hp'.1 b hb
  · rcases mem_sput he with rfl | he
    · exact hv
    · exact hd e he

/-- Every write keeps the canonical form. -/
theorem SMap.wf_sset {d : Nat → α} {m : SMap α} (h : SMap.wf d m = true) (k : Nat) (v : α) : SMap.wf d (sset d m k v) = true := by
  unfold sset
  split_ifs with hv
  · exact SMap.wf_filter h _
  · exact SMap.wf_sput h hv

/-- Lists in canonical form, the first with keys below `n`, the second from `n` on, join to one. -/
theorem SMap.wf_append {d : Nat → α} {a b : SMap α} {n : Nat} (ha : SMap.wf d a = true) (hb : SMap.wf d b = true)
    (la : ∀ e ∈ a, e.1 < n) (lb : ∀ e ∈ b, n ≤ e.1) : SMap.wf d (a ++ b) = true := by
  rw [SMap.wf_iff] at *
  refine ⟨List.pairwise_append.2 ⟨ha.1, hb.1, fun x hx y hy => lt_of_lt_of_le (la x hx) (lb y hy)⟩, fun e he => ?_⟩
  rcases List.mem_append.1 he with he | he
  · exact ha.2 e he
  · exact hb.2 e he

end Sys2Proof.Machine
end

