-- ==== Sys2Proof/Laws/State.lean ====
section
/-! SUPPORT. What each primitive update of the state leaves alone: one lemma per field, so that no proof unfolds a record update. -/

namespace Sys2Proof.Machine

variable (s : State)

/-! ### State.setReg -/

@[simp] theorem State.setReg_selBank (off : Nat) (w : Word) : (s.setReg off w).selBank = s.selBank := rfl
@[simp] theorem State.setReg_hbm (off : Nat) (w : Word) : (s.setReg off w).hbm = s.hbm := rfl
@[simp] theorem State.setReg_lmeta (off : Nat) (w : Word) : (s.setReg off w).lmeta = s.lmeta := rfl
@[simp] theorem State.setReg_tim (off : Nat) (w : Word) : (s.setReg off w).tim = s.tim := rfl
@[simp] theorem State.setReg_tier (off : Nat) (w : Word) : (s.setReg off w).tier = s.tier := rfl
@[simp] theorem State.setReg_rsv (off : Nat) (w : Word) : (s.setReg off w).rsv = s.rsv := rfl
@[simp] theorem State.setReg_hmc (off : Nat) (w : Word) : (s.setReg off w).hmc = s.hmc := rfl
@[simp] theorem State.setReg_adm (off : Nat) (w : Word) : (s.setReg off w).adm = s.adm := rfl
@[simp] theorem State.setReg_xlt (off : Nat) (w : Word) : (s.setReg off w).xlt = s.xlt := rfl
@[simp] theorem State.setReg_coh (off : Nat) (w : Word) : (s.setReg off w).coh = s.coh := rfl
@[simp] theorem State.setReg_fab (off : Nat) (w : Word) : (s.setReg off w).fab = s.fab := rfl
@[simp] theorem State.setReg_fw (off : Nat) (w : Word) : (s.setReg off w).fw = s.fw := rfl
@[simp] theorem State.setReg_boot (off : Nat) (w : Word) : (s.setReg off w).boot = s.boot := rfl
@[simp] theorem State.setReg_island (off : Nat) (w : Word) : (s.setReg off w).island = s.island := rfl
@[simp] theorem State.setReg_pins (off : Nat) (w : Word) : (s.setReg off w).pins = s.pins := rfl
@[simp] theorem State.setReg_creset (off : Nat) (w : Word) : (s.setReg off w).creset = s.creset := rfl
@[simp] theorem State.setReg_tileFaults (off : Nat) (w : Word) : (s.setReg off w).tileFaults = s.tileFaults := rfl
@[simp] theorem State.setReg_opened (off : Nat) (w : Word) : (s.setReg off w).opened = s.opened := rfl
@[simp] theorem State.setReg_prng (off : Nat) (w : Word) : (s.setReg off w).prng = s.prng := rfl
@[simp] theorem State.setReg_hostWait (off : Nat) (w : Word) : (s.setReg off w).hostWait = s.hostWait := rfl
@[simp] theorem State.setReg_hostUse (off : Nat) (w : Word) : (s.setReg off w).hostUse = s.hostUse := rfl
@[simp] theorem State.setReg_hostReset (off : Nat) (w : Word) : (s.setReg off w).hostReset = s.hostReset := rfl
@[simp] theorem State.setReg_signalled (off : Nat) (w : Word) : (s.setReg off w).signalled = s.signalled := rfl
@[simp] theorem State.setReg_out (off : Nat) (w : Word) : (s.setReg off w).out = s.out := rfl
@[simp] theorem State.setReg_fresh (off : Nat) (w : Word) : (s.setReg off w).fresh = s.fresh := rfl
@[simp] theorem State.setReg_pending (off : Nat) (w : Word) : (s.setReg off w).pending = s.pending := rfl

/-! ### State.setFld -/

@[simp] theorem State.setFld_selBank (off hi lo v : Nat) : (s.setFld off hi lo v).selBank = s.selBank := rfl
@[simp] theorem State.setFld_hbm (off hi lo v : Nat) : (s.setFld off hi lo v).hbm = s.hbm := rfl
@[simp] theorem State.setFld_lmeta (off hi lo v : Nat) : (s.setFld off hi lo v).lmeta = s.lmeta := rfl
@[simp] theorem State.setFld_tim (off hi lo v : Nat) : (s.setFld off hi lo v).tim = s.tim := rfl
@[simp] theorem State.setFld_tier (off hi lo v : Nat) : (s.setFld off hi lo v).tier = s.tier := rfl
@[simp] theorem State.setFld_rsv (off hi lo v : Nat) : (s.setFld off hi lo v).rsv = s.rsv := rfl
@[simp] theorem State.setFld_hmc (off hi lo v : Nat) : (s.setFld off hi lo v).hmc = s.hmc := rfl
@[simp] theorem State.setFld_adm (off hi lo v : Nat) : (s.setFld off hi lo v).adm = s.adm := rfl
@[simp] theorem State.setFld_xlt (off hi lo v : Nat) : (s.setFld off hi lo v).xlt = s.xlt := rfl
@[simp] theorem State.setFld_coh (off hi lo v : Nat) : (s.setFld off hi lo v).coh = s.coh := rfl
@[simp] theorem State.setFld_fab (off hi lo v : Nat) : (s.setFld off hi lo v).fab = s.fab := rfl
@[simp] theorem State.setFld_fw (off hi lo v : Nat) : (s.setFld off hi lo v).fw = s.fw := rfl
@[simp] theorem State.setFld_boot (off hi lo v : Nat) : (s.setFld off hi lo v).boot = s.boot := rfl
@[simp] theorem State.setFld_island (off hi lo v : Nat) : (s.setFld off hi lo v).island = s.island := rfl
@[simp] theorem State.setFld_pins (off hi lo v : Nat) : (s.setFld off hi lo v).pins = s.pins := rfl
@[simp] theorem State.setFld_creset (off hi lo v : Nat) : (s.setFld off hi lo v).creset = s.creset := rfl
@[simp] theorem State.setFld_tileFaults (off hi lo v : Nat) : (s.setFld off hi lo v).tileFaults = s.tileFaults := rfl
@[simp] theorem State.setFld_opened (off hi lo v : Nat) : (s.setFld off hi lo v).opened = s.opened := rfl
@[simp] theorem State.setFld_prng (off hi lo v : Nat) : (s.setFld off hi lo v).prng = s.prng := rfl
@[simp] theorem State.setFld_hostWait (off hi lo v : Nat) : (s.setFld off hi lo v).hostWait = s.hostWait := rfl
@[simp] theorem State.setFld_hostUse (off hi lo v : Nat) : (s.setFld off hi lo v).hostUse = s.hostUse := rfl
@[simp] theorem State.setFld_hostReset (off hi lo v : Nat) : (s.setFld off hi lo v).hostReset = s.hostReset := rfl
@[simp] theorem State.setFld_signalled (off hi lo v : Nat) : (s.setFld off hi lo v).signalled = s.signalled := rfl
@[simp] theorem State.setFld_out (off hi lo v : Nat) : (s.setFld off hi lo v).out = s.out := rfl
@[simp] theorem State.setFld_fresh (off hi lo v : Nat) : (s.setFld off hi lo v).fresh = s.fresh := rfl
@[simp] theorem State.setFld_pending (off hi lo v : Nat) : (s.setFld off hi lo v).pending = s.pending := rfl

/-! ### State.emit -/

@[simp] theorem State.emit_regs (o : Out) : (s.emit o).regs = s.regs := rfl
@[simp] theorem State.emit_selBank (o : Out) : (s.emit o).selBank = s.selBank := rfl
@[simp] theorem State.emit_hbm (o : Out) : (s.emit o).hbm = s.hbm := rfl
@[simp] theorem State.emit_lmeta (o : Out) : (s.emit o).lmeta = s.lmeta := rfl
@[simp] theorem State.emit_tim (o : Out) : (s.emit o).tim = s.tim := rfl
@[simp] theorem State.emit_tier (o : Out) : (s.emit o).tier = s.tier := rfl
@[simp] theorem State.emit_rsv (o : Out) : (s.emit o).rsv = s.rsv := rfl
@[simp] theorem State.emit_hmc (o : Out) : (s.emit o).hmc = s.hmc := rfl
@[simp] theorem State.emit_adm (o : Out) : (s.emit o).adm = s.adm := rfl
@[simp] theorem State.emit_xlt (o : Out) : (s.emit o).xlt = s.xlt := rfl
@[simp] theorem State.emit_coh (o : Out) : (s.emit o).coh = s.coh := rfl
@[simp] theorem State.emit_fab (o : Out) : (s.emit o).fab = s.fab := rfl
@[simp] theorem State.emit_fw (o : Out) : (s.emit o).fw = s.fw := rfl
@[simp] theorem State.emit_boot (o : Out) : (s.emit o).boot = s.boot := rfl
@[simp] theorem State.emit_island (o : Out) : (s.emit o).island = s.island := rfl
@[simp] theorem State.emit_pins (o : Out) : (s.emit o).pins = s.pins := rfl
@[simp] theorem State.emit_creset (o : Out) : (s.emit o).creset = s.creset := rfl
@[simp] theorem State.emit_tileFaults (o : Out) : (s.emit o).tileFaults = s.tileFaults := rfl
@[simp] theorem State.emit_opened (o : Out) : (s.emit o).opened = s.opened := rfl
@[simp] theorem State.emit_prng (o : Out) : (s.emit o).prng = s.prng := rfl
@[simp] theorem State.emit_hostWait (o : Out) : (s.emit o).hostWait = s.hostWait := rfl
@[simp] theorem State.emit_hostUse (o : Out) : (s.emit o).hostUse = s.hostUse := rfl
@[simp] theorem State.emit_hostReset (o : Out) : (s.emit o).hostReset = s.hostReset := rfl
@[simp] theorem State.emit_signalled (o : Out) : (s.emit o).signalled = s.signalled := rfl
@[simp] theorem State.emit_fresh (o : Out) : (s.emit o).fresh = s.fresh := rfl
@[simp] theorem State.emit_pending (o : Out) : (s.emit o).pending = s.pending := rfl
@[simp] theorem State.emit_out (o : Out) : (s.emit o).out = s.out ++ [o] := rfl

/-! ### State.wrB -/

@[simp] theorem State.wrB_regs (a : Nat) (b : Byte) : (s.wrB a b).regs = s.regs := rfl
@[simp] theorem State.wrB_selBank (a : Nat) (b : Byte) : (s.wrB a b).selBank = s.selBank := rfl
@[simp] theorem State.wrB_lmeta (a : Nat) (b : Byte) : (s.wrB a b).lmeta = s.lmeta := rfl
@[simp] theorem State.wrB_tim (a : Nat) (b : Byte) : (s.wrB a b).tim = s.tim := rfl
@[simp] theorem State.wrB_tier (a : Nat) (b : Byte) : (s.wrB a b).tier = s.tier := rfl
@[simp] theorem State.wrB_rsv (a : Nat) (b : Byte) : (s.wrB a b).rsv = s.rsv := rfl
@[simp] theorem State.wrB_hmc (a : Nat) (b : Byte) : (s.wrB a b).hmc = s.hmc := rfl
@[simp] theorem State.wrB_adm (a : Nat) (b : Byte) : (s.wrB a b).adm = s.adm := rfl
@[simp] theorem State.wrB_xlt (a : Nat) (b : Byte) : (s.wrB a b).xlt = s.xlt := rfl
@[simp] theorem State.wrB_coh (a : Nat) (b : Byte) : (s.wrB a b).coh = s.coh := rfl
@[simp] theorem State.wrB_fab (a : Nat) (b : Byte) : (s.wrB a b).fab = s.fab := rfl
@[simp] theorem State.wrB_fw (a : Nat) (b : Byte) : (s.wrB a b).fw = s.fw := rfl
@[simp] theorem State.wrB_boot (a : Nat) (b : Byte) : (s.wrB a b).boot = s.boot := rfl
@[simp] theorem State.wrB_island (a : Nat) (b : Byte) : (s.wrB a b).island = s.island := rfl
@[simp] theorem State.wrB_pins (a : Nat) (b : Byte) : (s.wrB a b).pins = s.pins := rfl
@[simp] theorem State.wrB_creset (a : Nat) (b : Byte) : (s.wrB a b).creset = s.creset := rfl
@[simp] theorem State.wrB_tileFaults (a : Nat) (b : Byte) : (s.wrB a b).tileFaults = s.tileFaults := rfl
@[simp] theorem State.wrB_opened (a : Nat) (b : Byte) : (s.wrB a b).opened = s.opened := rfl
@[simp] theorem State.wrB_prng (a : Nat) (b : Byte) : (s.wrB a b).prng = s.prng := rfl
@[simp] theorem State.wrB_hostWait (a : Nat) (b : Byte) : (s.wrB a b).hostWait = s.hostWait := rfl
@[simp] theorem State.wrB_hostUse (a : Nat) (b : Byte) : (s.wrB a b).hostUse = s.hostUse := rfl
@[simp] theorem State.wrB_hostReset (a : Nat) (b : Byte) : (s.wrB a b).hostReset = s.hostReset := rfl
@[simp] theorem State.wrB_signalled (a : Nat) (b : Byte) : (s.wrB a b).signalled = s.signalled := rfl
@[simp] theorem State.wrB_out (a : Nat) (b : Byte) : (s.wrB a b).out = s.out := rfl
@[simp] theorem State.wrB_fresh (a : Nat) (b : Byte) : (s.wrB a b).fresh = s.fresh := rfl
@[simp] theorem State.wrB_pending (a : Nat) (b : Byte) : (s.wrB a b).pending = s.pending := rfl
@[simp] theorem State.wrB_hbm (a : Nat) (b : Byte) : (s.wrB a b).hbm = sset cellDefault s.hbm a b := rfl

/-! ### State.setMeta -/

@[simp] theorem State.setMeta_regs (ln : Nat) (m : LineMeta) : (s.setMeta ln m).regs = s.regs := rfl
@[simp] theorem State.setMeta_selBank (ln : Nat) (m : LineMeta) : (s.setMeta ln m).selBank = s.selBank := rfl
@[simp] theorem State.setMeta_hbm (ln : Nat) (m : LineMeta) : (s.setMeta ln m).hbm = s.hbm := rfl
@[simp] theorem State.setMeta_tim (ln : Nat) (m : LineMeta) : (s.setMeta ln m).tim = s.tim := rfl
@[simp] theorem State.setMeta_tier (ln : Nat) (m : LineMeta) : (s.setMeta ln m).tier = s.tier := rfl
@[simp] theorem State.setMeta_rsv (ln : Nat) (m : LineMeta) : (s.setMeta ln m).rsv = s.rsv := rfl
@[simp] theorem State.setMeta_hmc (ln : Nat) (m : LineMeta) : (s.setMeta ln m).hmc = s.hmc := rfl
@[simp] theorem State.setMeta_adm (ln : Nat) (m : LineMeta) : (s.setMeta ln m).adm = s.adm := rfl
@[simp] theorem State.setMeta_xlt (ln : Nat) (m : LineMeta) : (s.setMeta ln m).xlt = s.xlt := rfl
@[simp] theorem State.setMeta_coh (ln : Nat) (m : LineMeta) : (s.setMeta ln m).coh = s.coh := rfl
@[simp] theorem State.setMeta_fab (ln : Nat) (m : LineMeta) : (s.setMeta ln m).fab = s.fab := rfl
@[simp] theorem State.setMeta_fw (ln : Nat) (m : LineMeta) : (s.setMeta ln m).fw = s.fw := rfl
@[simp] theorem State.setMeta_boot (ln : Nat) (m : LineMeta) : (s.setMeta ln m).boot = s.boot := rfl
@[simp] theorem State.setMeta_island (ln : Nat) (m : LineMeta) : (s.setMeta ln m).island = s.island := rfl
@[simp] theorem State.setMeta_pins (ln : Nat) (m : LineMeta) : (s.setMeta ln m).pins = s.pins := rfl
@[simp] theorem State.setMeta_creset (ln : Nat) (m : LineMeta) : (s.setMeta ln m).creset = s.creset := rfl
@[simp] theorem State.setMeta_tileFaults (ln : Nat) (m : LineMeta) : (s.setMeta ln m).tileFaults = s.tileFaults := rfl
@[simp] theorem State.setMeta_opened (ln : Nat) (m : LineMeta) : (s.setMeta ln m).opened = s.opened := rfl
@[simp] theorem State.setMeta_prng (ln : Nat) (m : LineMeta) : (s.setMeta ln m).prng = s.prng := rfl
@[simp] theorem State.setMeta_hostWait (ln : Nat) (m : LineMeta) : (s.setMeta ln m).hostWait = s.hostWait := rfl
@[simp] theorem State.setMeta_hostUse (ln : Nat) (m : LineMeta) : (s.setMeta ln m).hostUse = s.hostUse := rfl
@[simp] theorem State.setMeta_hostReset (ln : Nat) (m : LineMeta) : (s.setMeta ln m).hostReset = s.hostReset := rfl
@[simp] theorem State.setMeta_signalled (ln : Nat) (m : LineMeta) : (s.setMeta ln m).signalled = s.signalled := rfl
@[simp] theorem State.setMeta_out (ln : Nat) (m : LineMeta) : (s.setMeta ln m).out = s.out := rfl
@[simp] theorem State.setMeta_fresh (ln : Nat) (m : LineMeta) : (s.setMeta ln m).fresh = s.fresh := rfl
@[simp] theorem State.setMeta_pending (ln : Nat) (m : LineMeta) : (s.setMeta ln m).pending = s.pending := rfl

/-! ### State.queueHost -/

@[simp] theorem State.queueHost_regs (m : Nat) (op : HostOp) : (s.queueHost m op).regs = s.regs := rfl
@[simp] theorem State.queueHost_selBank (m : Nat) (op : HostOp) : (s.queueHost m op).selBank = s.selBank := rfl
@[simp] theorem State.queueHost_hbm (m : Nat) (op : HostOp) : (s.queueHost m op).hbm = s.hbm := rfl
@[simp] theorem State.queueHost_lmeta (m : Nat) (op : HostOp) : (s.queueHost m op).lmeta = s.lmeta := rfl
@[simp] theorem State.queueHost_tim (m : Nat) (op : HostOp) : (s.queueHost m op).tim = s.tim := rfl
@[simp] theorem State.queueHost_tier (m : Nat) (op : HostOp) : (s.queueHost m op).tier = s.tier := rfl
@[simp] theorem State.queueHost_rsv (m : Nat) (op : HostOp) : (s.queueHost m op).rsv = s.rsv := rfl
@[simp] theorem State.queueHost_hmc (m : Nat) (op : HostOp) : (s.queueHost m op).hmc = s.hmc := rfl
@[simp] theorem State.queueHost_adm (m : Nat) (op : HostOp) : (s.queueHost m op).adm = s.adm := rfl
@[simp] theorem State.queueHost_xlt (m : Nat) (op : HostOp) : (s.queueHost m op).xlt = s.xlt := rfl
@[simp] theorem State.queueHost_coh (m : Nat) (op : HostOp) : (s.queueHost m op).coh = s.coh := rfl
@[simp] theorem State.queueHost_fab (m : Nat) (op : HostOp) : (s.queueHost m op).fab = s.fab := rfl
@[simp] theorem State.queueHost_fw (m : Nat) (op : HostOp) : (s.queueHost m op).fw = s.fw := rfl
@[simp] theorem State.queueHost_boot (m : Nat) (op : HostOp) : (s.queueHost m op).boot = s.boot := rfl
@[simp] theorem State.queueHost_island (m : Nat) (op : HostOp) : (s.queueHost m op).island = s.island := rfl
@[simp] theorem State.queueHost_pins (m : Nat) (op : HostOp) : (s.queueHost m op).pins = s.pins := rfl
@[simp] theorem State.queueHost_creset (m : Nat) (op : HostOp) : (s.queueHost m op).creset = s.creset := rfl
@[simp] theorem State.queueHost_tileFaults (m : Nat) (op : HostOp) : (s.queueHost m op).tileFaults = s.tileFaults := rfl
@[simp] theorem State.queueHost_opened (m : Nat) (op : HostOp) : (s.queueHost m op).opened = s.opened := rfl
@[simp] theorem State.queueHost_prng (m : Nat) (op : HostOp) : (s.queueHost m op).prng = s.prng := rfl
@[simp] theorem State.queueHost_hostUse (m : Nat) (op : HostOp) : (s.queueHost m op).hostUse = s.hostUse := rfl
@[simp] theorem State.queueHost_hostReset (m : Nat) (op : HostOp) : (s.queueHost m op).hostReset = s.hostReset := rfl
@[simp] theorem State.queueHost_signalled (m : Nat) (op : HostOp) : (s.queueHost m op).signalled = s.signalled := rfl
@[simp] theorem State.queueHost_out (m : Nat) (op : HostOp) : (s.queueHost m op).out = s.out := rfl
@[simp] theorem State.queueHost_fresh (m : Nat) (op : HostOp) : (s.queueHost m op).fresh = s.fresh := rfl
@[simp] theorem State.queueHost_pending (m : Nat) (op : HostOp) : (s.queueHost m op).pending = s.pending := rfl
@[simp] theorem State.queueHost_hostWait (m : Nat) (op : HostOp) : (s.queueHost m op).hostWait = s.hostWait ++ [(m, op)] := rfl

/-! ### State.useHost -/

@[simp] theorem State.useHost_regs (st pc : Nat) : (s.useHost st pc).regs = s.regs := rfl
@[simp] theorem State.useHost_selBank (st pc : Nat) : (s.useHost st pc).selBank = s.selBank := rfl
@[simp] theorem State.useHost_hbm (st pc : Nat) : (s.useHost st pc).hbm = s.hbm := rfl
@[simp] theorem State.useHost_lmeta (st pc : Nat) : (s.useHost st pc).lmeta = s.lmeta := rfl
@[simp] theorem State.useHost_tim (st pc : Nat) : (s.useHost st pc).tim = s.tim := rfl
@[simp] theorem State.useHost_tier (st pc : Nat) : (s.useHost st pc).tier = s.tier := rfl
@[simp] theorem State.useHost_rsv (st pc : Nat) : (s.useHost st pc).rsv = s.rsv := rfl
@[simp] theorem State.useHost_hmc (st pc : Nat) : (s.useHost st pc).hmc = s.hmc := rfl
@[simp] theorem State.useHost_adm (st pc : Nat) : (s.useHost st pc).adm = s.adm := rfl
@[simp] theorem State.useHost_xlt (st pc : Nat) : (s.useHost st pc).xlt = s.xlt := rfl
@[simp] theorem State.useHost_coh (st pc : Nat) : (s.useHost st pc).coh = s.coh := rfl
@[simp] theorem State.useHost_fab (st pc : Nat) : (s.useHost st pc).fab = s.fab := rfl
@[simp] theorem State.useHost_fw (st pc : Nat) : (s.useHost st pc).fw = s.fw := rfl
@[simp] theorem State.useHost_boot (st pc : Nat) : (s.useHost st pc).boot = s.boot := rfl
@[simp] theorem State.useHost_island (st pc : Nat) : (s.useHost st pc).island = s.island := rfl
@[simp] theorem State.useHost_pins (st pc : Nat) : (s.useHost st pc).pins = s.pins := rfl
@[simp] theorem State.useHost_creset (st pc : Nat) : (s.useHost st pc).creset = s.creset := rfl
@[simp] theorem State.useHost_tileFaults (st pc : Nat) : (s.useHost st pc).tileFaults = s.tileFaults := rfl
@[simp] theorem State.useHost_opened (st pc : Nat) : (s.useHost st pc).opened = s.opened := rfl
@[simp] theorem State.useHost_prng (st pc : Nat) : (s.useHost st pc).prng = s.prng := rfl
@[simp] theorem State.useHost_hostWait (st pc : Nat) : (s.useHost st pc).hostWait = s.hostWait := rfl
@[simp] theorem State.useHost_hostReset (st pc : Nat) : (s.useHost st pc).hostReset = s.hostReset := rfl
@[simp] theorem State.useHost_signalled (st pc : Nat) : (s.useHost st pc).signalled = s.signalled := rfl
@[simp] theorem State.useHost_out (st pc : Nat) : (s.useHost st pc).out = s.out := rfl
@[simp] theorem State.useHost_fresh (st pc : Nat) : (s.useHost st pc).fresh = s.fresh := rfl
@[simp] theorem State.useHost_pending (st pc : Nat) : (s.useHost st pc).pending = s.pending := rfl

/-! ### State.setDom -/

@[simp] theorem State.setDom_regs (d : Nat) (v : Dom) : (s.setDom d v).regs = s.regs := rfl
@[simp] theorem State.setDom_selBank (d : Nat) (v : Dom) : (s.setDom d v).selBank = s.selBank := rfl
@[simp] theorem State.setDom_hbm (d : Nat) (v : Dom) : (s.setDom d v).hbm = s.hbm := rfl
@[simp] theorem State.setDom_lmeta (d : Nat) (v : Dom) : (s.setDom d v).lmeta = s.lmeta := rfl
@[simp] theorem State.setDom_tim (d : Nat) (v : Dom) : (s.setDom d v).tim = s.tim := rfl
@[simp] theorem State.setDom_tier (d : Nat) (v : Dom) : (s.setDom d v).tier = s.tier := rfl
@[simp] theorem State.setDom_rsv (d : Nat) (v : Dom) : (s.setDom d v).rsv = s.rsv := rfl
@[simp] theorem State.setDom_hmc (d : Nat) (v : Dom) : (s.setDom d v).hmc = s.hmc := rfl
@[simp] theorem State.setDom_adm (d : Nat) (v : Dom) : (s.setDom d v).adm = s.adm := rfl
@[simp] theorem State.setDom_xlt (d : Nat) (v : Dom) : (s.setDom d v).xlt = s.xlt := rfl
@[simp] theorem State.setDom_fab (d : Nat) (v : Dom) : (s.setDom d v).fab = s.fab := rfl
@[simp] theorem State.setDom_fw (d : Nat) (v : Dom) : (s.setDom d v).fw = s.fw := rfl
@[simp] theorem State.setDom_boot (d : Nat) (v : Dom) : (s.setDom d v).boot = s.boot := rfl
@[simp] theorem State.setDom_island (d : Nat) (v : Dom) : (s.setDom d v).island = s.island := rfl
@[simp] theorem State.setDom_pins (d : Nat) (v : Dom) : (s.setDom d v).pins = s.pins := rfl
@[simp] theorem State.setDom_creset (d : Nat) (v : Dom) : (s.setDom d v).creset = s.creset := rfl
@[simp] theorem State.setDom_tileFaults (d : Nat) (v : Dom) : (s.setDom d v).tileFaults = s.tileFaults := rfl
@[simp] theorem State.setDom_opened (d : Nat) (v : Dom) : (s.setDom d v).opened = s.opened := rfl
@[simp] theorem State.setDom_prng (d : Nat) (v : Dom) : (s.setDom d v).prng = s.prng := rfl
@[simp] theorem State.setDom_hostWait (d : Nat) (v : Dom) : (s.setDom d v).hostWait = s.hostWait := rfl
@[simp] theorem State.setDom_hostUse (d : Nat) (v : Dom) : (s.setDom d v).hostUse = s.hostUse := rfl
@[simp] theorem State.setDom_hostReset (d : Nat) (v : Dom) : (s.setDom d v).hostReset = s.hostReset := rfl
@[simp] theorem State.setDom_signalled (d : Nat) (v : Dom) : (s.setDom d v).signalled = s.signalled := rfl
@[simp] theorem State.setDom_out (d : Nat) (v : Dom) : (s.setDom d v).out = s.out := rfl
@[simp] theorem State.setDom_fresh (d : Nat) (v : Dom) : (s.setDom d v).fresh = s.fresh := rfl
@[simp] theorem State.setDom_pending (d : Nat) (v : Dom) : (s.setDom d v).pending = s.pending := rfl

/-! ### State.setTel -/

@[simp] theorem State.setTel_regs (port vc : Nat) (x : Tel) : (s.setTel port vc x).regs = s.regs := rfl
@[simp] theorem State.setTel_selBank (port vc : Nat) (x : Tel) : (s.setTel port vc x).selBank = s.selBank := rfl
@[simp] theorem State.setTel_hbm (port vc : Nat) (x : Tel) : (s.setTel port vc x).hbm = s.hbm := rfl
@[simp] theorem State.setTel_lmeta (port vc : Nat) (x : Tel) : (s.setTel port vc x).lmeta = s.lmeta := rfl
@[simp] theorem State.setTel_tim (port vc : Nat) (x : Tel) : (s.setTel port vc x).tim = s.tim := rfl
@[simp] theorem State.setTel_tier (port vc : Nat) (x : Tel) : (s.setTel port vc x).tier = s.tier := rfl
@[simp] theorem State.setTel_rsv (port vc : Nat) (x : Tel) : (s.setTel port vc x).rsv = s.rsv := rfl
@[simp] theorem State.setTel_hmc (port vc : Nat) (x : Tel) : (s.setTel port vc x).hmc = s.hmc := rfl
@[simp] theorem State.setTel_adm (port vc : Nat) (x : Tel) : (s.setTel port vc x).adm = s.adm := rfl
@[simp] theorem State.setTel_xlt (port vc : Nat) (x : Tel) : (s.setTel port vc x).xlt = s.xlt := rfl
@[simp] theorem State.setTel_coh (port vc : Nat) (x : Tel) : (s.setTel port vc x).coh = s.coh := rfl
@[simp] theorem State.setTel_fw (port vc : Nat) (x : Tel) : (s.setTel port vc x).fw = s.fw := rfl
@[simp] theorem State.setTel_boot (port vc : Nat) (x : Tel) : (s.setTel port vc x).boot = s.boot := rfl
@[simp] theorem State.setTel_island (port vc : Nat) (x : Tel) : (s.setTel port vc x).island = s.island := rfl
@[simp] theorem State.setTel_pins (port vc : Nat) (x : Tel) : (s.setTel port vc x).pins = s.pins := rfl
@[simp] theorem State.setTel_creset (port vc : Nat) (x : Tel) : (s.setTel port vc x).creset = s.creset := rfl
@[simp] theorem State.setTel_tileFaults (port vc : Nat) (x : Tel) : (s.setTel port vc x).tileFaults = s.tileFaults := rfl
@[simp] theorem State.setTel_opened (port vc : Nat) (x : Tel) : (s.setTel port vc x).opened = s.opened := rfl
@[simp] theorem State.setTel_prng (port vc : Nat) (x : Tel) : (s.setTel port vc x).prng = s.prng := rfl
@[simp] theorem State.setTel_hostWait (port vc : Nat) (x : Tel) : (s.setTel port vc x).hostWait = s.hostWait := rfl
@[simp] theorem State.setTel_hostUse (port vc : Nat) (x : Tel) : (s.setTel port vc x).hostUse = s.hostUse := rfl
@[simp] theorem State.setTel_hostReset (port vc : Nat) (x : Tel) : (s.setTel port vc x).hostReset = s.hostReset := rfl
@[simp] theorem State.setTel_signalled (port vc : Nat) (x : Tel) : (s.setTel port vc x).signalled = s.signalled := rfl
@[simp] theorem State.setTel_out (port vc : Nat) (x : Tel) : (s.setTel port vc x).out = s.out := rfl
@[simp] theorem State.setTel_fresh (port vc : Nat) (x : Tel) : (s.setTel port vc x).fresh = s.fresh := rfl
@[simp] theorem State.setTel_pending (port vc : Nat) (x : Tel) : (s.setTel port vc x).pending = s.pending := rfl

/-! ### State.setSched -/

@[simp] theorem State.setSched_regs (p : Nat) (c : Sched) : (s.setSched p c).regs = s.regs := rfl
@[simp] theorem State.setSched_selBank (p : Nat) (c : Sched) : (s.setSched p c).selBank = s.selBank := rfl
@[simp] theorem State.setSched_hbm (p : Nat) (c : Sched) : (s.setSched p c).hbm = s.hbm := rfl
@[simp] theorem State.setSched_lmeta (p : Nat) (c : Sched) : (s.setSched p c).lmeta = s.lmeta := rfl
@[simp] theorem State.setSched_tim (p : Nat) (c : Sched) : (s.setSched p c).tim = s.tim := rfl
@[simp] theorem State.setSched_tier (p : Nat) (c : Sched) : (s.setSched p c).tier = s.tier := rfl
@[simp] theorem State.setSched_rsv (p : Nat) (c : Sched) : (s.setSched p c).rsv = s.rsv := rfl
@[simp] theorem State.setSched_hmc (p : Nat) (c : Sched) : (s.setSched p c).hmc = s.hmc := rfl
@[simp] theorem State.setSched_adm (p : Nat) (c : Sched) : (s.setSched p c).adm = s.adm := rfl
@[simp] theorem State.setSched_xlt (p : Nat) (c : Sched) : (s.setSched p c).xlt = s.xlt := rfl
@[simp] theorem State.setSched_coh (p : Nat) (c : Sched) : (s.setSched p c).coh = s.coh := rfl
@[simp] theorem State.setSched_fw (p : Nat) (c : Sched) : (s.setSched p c).fw = s.fw := rfl
@[simp] theorem State.setSched_boot (p : Nat) (c : Sched) : (s.setSched p c).boot = s.boot := rfl
@[simp] theorem State.setSched_island (p : Nat) (c : Sched) : (s.setSched p c).island = s.island := rfl
@[simp] theorem State.setSched_pins (p : Nat) (c : Sched) : (s.setSched p c).pins = s.pins := rfl
@[simp] theorem State.setSched_creset (p : Nat) (c : Sched) : (s.setSched p c).creset = s.creset := rfl
@[simp] theorem State.setSched_tileFaults (p : Nat) (c : Sched) : (s.setSched p c).tileFaults = s.tileFaults := rfl
@[simp] theorem State.setSched_opened (p : Nat) (c : Sched) : (s.setSched p c).opened = s.opened := rfl
@[simp] theorem State.setSched_prng (p : Nat) (c : Sched) : (s.setSched p c).prng = s.prng := rfl
@[simp] theorem State.setSched_hostWait (p : Nat) (c : Sched) : (s.setSched p c).hostWait = s.hostWait := rfl
@[simp] theorem State.setSched_hostUse (p : Nat) (c : Sched) : (s.setSched p c).hostUse = s.hostUse := rfl
@[simp] theorem State.setSched_hostReset (p : Nat) (c : Sched) : (s.setSched p c).hostReset = s.hostReset := rfl
@[simp] theorem State.setSched_signalled (p : Nat) (c : Sched) : (s.setSched p c).signalled = s.signalled := rfl
@[simp] theorem State.setSched_out (p : Nat) (c : Sched) : (s.setSched p c).out = s.out := rfl
@[simp] theorem State.setSched_fresh (p : Nat) (c : Sched) : (s.setSched p c).fresh = s.fresh := rfl
@[simp] theorem State.setSched_pending (p : Nat) (c : Sched) : (s.setSched p c).pending = s.pending := rfl

/-! ### State.setLink -/

@[simp] theorem State.setLink_regs (p : Nat) (l : Link) : (s.setLink p l).regs = s.regs := rfl
@[simp] theorem State.setLink_selBank (p : Nat) (l : Link) : (s.setLink p l).selBank = s.selBank := rfl
@[simp] theorem State.setLink_hbm (p : Nat) (l : Link) : (s.setLink p l).hbm = s.hbm := rfl
@[simp] theorem State.setLink_lmeta (p : Nat) (l : Link) : (s.setLink p l).lmeta = s.lmeta := rfl
@[simp] theorem State.setLink_tim (p : Nat) (l : Link) : (s.setLink p l).tim = s.tim := rfl
@[simp] theorem State.setLink_tier (p : Nat) (l : Link) : (s.setLink p l).tier = s.tier := rfl
@[simp] theorem State.setLink_rsv (p : Nat) (l : Link) : (s.setLink p l).rsv = s.rsv := rfl
@[simp] theorem State.setLink_hmc (p : Nat) (l : Link) : (s.setLink p l).hmc = s.hmc := rfl
@[simp] theorem State.setLink_adm (p : Nat) (l : Link) : (s.setLink p l).adm = s.adm := rfl
@[simp] theorem State.setLink_xlt (p : Nat) (l : Link) : (s.setLink p l).xlt = s.xlt := rfl
@[simp] theorem State.setLink_coh (p : Nat) (l : Link) : (s.setLink p l).coh = s.coh := rfl
@[simp] theorem State.setLink_fw (p : Nat) (l : Link) : (s.setLink p l).fw = s.fw := rfl
@[simp] theorem State.setLink_boot (p : Nat) (l : Link) : (s.setLink p l).boot = s.boot := rfl
@[simp] theorem State.setLink_island (p : Nat) (l : Link) : (s.setLink p l).island = s.island := rfl
@[simp] theorem State.setLink_pins (p : Nat) (l : Link) : (s.setLink p l).pins = s.pins := rfl
@[simp] theorem State.setLink_creset (p : Nat) (l : Link) : (s.setLink p l).creset = s.creset := rfl
@[simp] theorem State.setLink_tileFaults (p : Nat) (l : Link) : (s.setLink p l).tileFaults = s.tileFaults := rfl
@[simp] theorem State.setLink_opened (p : Nat) (l : Link) : (s.setLink p l).opened = s.opened := rfl
@[simp] theorem State.setLink_prng (p : Nat) (l : Link) : (s.setLink p l).prng = s.prng := rfl
@[simp] theorem State.setLink_hostWait (p : Nat) (l : Link) : (s.setLink p l).hostWait = s.hostWait := rfl
@[simp] theorem State.setLink_hostUse (p : Nat) (l : Link) : (s.setLink p l).hostUse = s.hostUse := rfl
@[simp] theorem State.setLink_hostReset (p : Nat) (l : Link) : (s.setLink p l).hostReset = s.hostReset := rfl
@[simp] theorem State.setLink_signalled (p : Nat) (l : Link) : (s.setLink p l).signalled = s.signalled := rfl
@[simp] theorem State.setLink_out (p : Nat) (l : Link) : (s.setLink p l).out = s.out := rfl
@[simp] theorem State.setLink_fresh (p : Nat) (l : Link) : (s.setLink p l).fresh = s.fresh := rfl
@[simp] theorem State.setLink_pending (p : Nat) (l : Link) : (s.setLink p l).pending = s.pending := rfl

/-! ### State.setMemo -/

@[simp] theorem State.setMemo_regs (tile : Nat) (bank : Bool) (eid : BitVec 20) (m : RouteMemo) : (s.setMemo tile bank eid m).regs = s.regs := rfl
@[simp] theorem State.setMemo_selBank (tile : Nat) (bank : Bool) (eid : BitVec 20) (m : RouteMemo) : (s.setMemo tile bank eid m).selBank = s.selBank := rfl
@[simp] theorem State.setMemo_hbm (tile : Nat) (bank : Bool) (eid : BitVec 20) (m : RouteMemo) : (s.setMemo tile bank eid m).hbm = s.hbm := rfl
@[simp] theorem State.setMemo_lmeta (tile : Nat) (bank : Bool) (eid : BitVec 20) (m : RouteMemo) : (s.setMemo tile bank eid m).lmeta = s.lmeta := rfl
@[simp] theorem State.setMemo_tim (tile : Nat) (bank : Bool) (eid : BitVec 20) (m : RouteMemo) : (s.setMemo tile bank eid m).tim = s.tim := rfl
@[simp] theorem State.setMemo_tier (tile : Nat) (bank : Bool) (eid : BitVec 20) (m : RouteMemo) : (s.setMemo tile bank eid m).tier = s.tier := rfl
@[simp] theorem State.setMemo_rsv (tile : Nat) (bank : Bool) (eid : BitVec 20) (m : RouteMemo) : (s.setMemo tile bank eid m).rsv = s.rsv := rfl
@[simp] theorem State.setMemo_hmc (tile : Nat) (bank : Bool) (eid : BitVec 20) (m : RouteMemo) : (s.setMemo tile bank eid m).hmc = s.hmc := rfl
@[simp] theorem State.setMemo_adm (tile : Nat) (bank : Bool) (eid : BitVec 20) (m : RouteMemo) : (s.setMemo tile bank eid m).adm = s.adm := rfl
@[simp] theorem State.setMemo_xlt (tile : Nat) (bank : Bool) (eid : BitVec 20) (m : RouteMemo) : (s.setMemo tile bank eid m).xlt = s.xlt := rfl
@[simp] theorem State.setMemo_coh (tile : Nat) (bank : Bool) (eid : BitVec 20) (m : RouteMemo) : (s.setMemo tile bank eid m).coh = s.coh := rfl
@[simp] theorem State.setMemo_fw (tile : Nat) (bank : Bool) (eid : BitVec 20) (m : RouteMemo) : (s.setMemo tile bank eid m).fw = s.fw := rfl
@[simp] theorem State.setMemo_boot (tile : Nat) (bank : Bool) (eid : BitVec 20) (m : RouteMemo) : (s.setMemo tile bank eid m).boot = s.boot := rfl
@[simp] theorem State.setMemo_island (tile : Nat) (bank : Bool) (eid : BitVec 20) (m : RouteMemo) : (s.setMemo tile bank eid m).island = s.island := rfl
@[simp] theorem State.setMemo_pins (tile : Nat) (bank : Bool) (eid : BitVec 20) (m : RouteMemo) : (s.setMemo tile bank eid m).pins = s.pins := rfl
@[simp] theorem State.setMemo_creset (tile : Nat) (bank : Bool) (eid : BitVec 20) (m : RouteMemo) : (s.setMemo tile bank eid m).creset = s.creset := rfl
@[simp] theorem State.setMemo_tileFaults (tile : Nat) (bank : Bool) (eid : BitVec 20) (m : RouteMemo) : (s.setMemo tile bank eid m).tileFaults = s.tileFaults := rfl
@[simp] theorem State.setMemo_opened (tile : Nat) (bank : Bool) (eid : BitVec 20) (m : RouteMemo) : (s.setMemo tile bank eid m).opened = s.opened := rfl
@[simp] theorem State.setMemo_prng (tile : Nat) (bank : Bool) (eid : BitVec 20) (m : RouteMemo) : (s.setMemo tile bank eid m).prng = s.prng := rfl
@[simp] theorem State.setMemo_hostWait (tile : Nat) (bank : Bool) (eid : BitVec 20) (m : RouteMemo) : (s.setMemo tile bank eid m).hostWait = s.hostWait := rfl
@[simp] theorem State.setMemo_hostUse (tile : Nat) (bank : Bool) (eid : BitVec 20) (m : RouteMemo) : (s.setMemo tile bank eid m).hostUse = s.hostUse := rfl
@[simp] theorem State.setMemo_hostReset (tile : Nat) (bank : Bool) (eid : BitVec 20) (m : RouteMemo) : (s.setMemo tile bank eid m).hostReset = s.hostReset := rfl
@[simp] theorem State.setMemo_signalled (tile : Nat) (bank : Bool) (eid : BitVec 20) (m : RouteMemo) : (s.setMemo tile bank eid m).signalled = s.signalled := rfl
@[simp] theorem State.setMemo_out (tile : Nat) (bank : Bool) (eid : BitVec 20) (m : RouteMemo) : (s.setMemo tile bank eid m).out = s.out := rfl
@[simp] theorem State.setMemo_fresh (tile : Nat) (bank : Bool) (eid : BitVec 20) (m : RouteMemo) : (s.setMemo tile bank eid m).fresh = s.fresh := rfl
@[simp] theorem State.setMemo_pending (tile : Nat) (bank : Bool) (eid : BitVec 20) (m : RouteMemo) : (s.setMemo tile bank eid m).pending = s.pending := rfl

/-! ### State.setPft -/

@[simp] theorem State.setPft_regs (p : Nat) (v : Pft) : (s.setPft p v).regs = s.regs := rfl
@[simp] theorem State.setPft_selBank (p : Nat) (v : Pft) : (s.setPft p v).selBank = s.selBank := rfl
@[simp] theorem State.setPft_hbm (p : Nat) (v : Pft) : (s.setPft p v).hbm = s.hbm := rfl
@[simp] theorem State.setPft_lmeta (p : Nat) (v : Pft) : (s.setPft p v).lmeta = s.lmeta := rfl
@[simp] theorem State.setPft_tim (p : Nat) (v : Pft) : (s.setPft p v).tim = s.tim := rfl
@[simp] theorem State.setPft_rsv (p : Nat) (v : Pft) : (s.setPft p v).rsv = s.rsv := rfl
@[simp] theorem State.setPft_hmc (p : Nat) (v : Pft) : (s.setPft p v).hmc = s.hmc := rfl
@[simp] theorem State.setPft_adm (p : Nat) (v : Pft) : (s.setPft p v).adm = s.adm := rfl
@[simp] theorem State.setPft_xlt (p : Nat) (v : Pft) : (s.setPft p v).xlt = s.xlt := rfl
@[simp] theorem State.setPft_coh (p : Nat) (v : Pft) : (s.setPft p v).coh = s.coh := rfl
@[simp] theorem State.setPft_fab (p : Nat) (v : Pft) : (s.setPft p v).fab = s.fab := rfl
@[simp] theorem State.setPft_fw (p : Nat) (v : Pft) : (s.setPft p v).fw = s.fw := rfl
@[simp] theorem State.setPft_boot (p : Nat) (v : Pft) : (s.setPft p v).boot = s.boot := rfl
@[simp] theorem State.setPft_island (p : Nat) (v : Pft) : (s.setPft p v).island = s.island := rfl
@[simp] theorem State.setPft_pins (p : Nat) (v : Pft) : (s.setPft p v).pins = s.pins := rfl
@[simp] theorem State.setPft_creset (p : Nat) (v : Pft) : (s.setPft p v).creset = s.creset := rfl
@[simp] theorem State.setPft_tileFaults (p : Nat) (v : Pft) : (s.setPft p v).tileFaults = s.tileFaults := rfl
@[simp] theorem State.setPft_opened (p : Nat) (v : Pft) : (s.setPft p v).opened = s.opened := rfl
@[simp] theorem State.setPft_prng (p : Nat) (v : Pft) : (s.setPft p v).prng = s.prng := rfl
@[simp] theorem State.setPft_hostWait (p : Nat) (v : Pft) : (s.setPft p v).hostWait = s.hostWait := rfl
@[simp] theorem State.setPft_hostUse (p : Nat) (v : Pft) : (s.setPft p v).hostUse = s.hostUse := rfl
@[simp] theorem State.setPft_hostReset (p : Nat) (v : Pft) : (s.setPft p v).hostReset = s.hostReset := rfl
@[simp] theorem State.setPft_signalled (p : Nat) (v : Pft) : (s.setPft p v).signalled = s.signalled := rfl
@[simp] theorem State.setPft_out (p : Nat) (v : Pft) : (s.setPft p v).out = s.out := rfl
@[simp] theorem State.setPft_fresh (p : Nat) (v : Pft) : (s.setPft p v).fresh = s.fresh := rfl
@[simp] theorem State.setPft_pending (p : Nat) (v : Pft) : (s.setPft p v).pending = s.pending := rfl

/-! ### State.setFht -/

@[simp] theorem State.setFht_regs (f : Nat) (v : Fht) : (s.setFht f v).regs = s.regs := rfl
@[simp] theorem State.setFht_selBank (f : Nat) (v : Fht) : (s.setFht f v).selBank = s.selBank := rfl
@[simp] theorem State.setFht_hbm (f : Nat) (v : Fht) : (s.setFht f v).hbm = s.hbm := rfl
@[simp] theorem State.setFht_lmeta (f : Nat) (v : Fht) : (s.setFht f v).lmeta = s.lmeta := rfl
@[simp] theorem State.setFht_tim (f : Nat) (v : Fht) : (s.setFht f v).tim = s.tim := rfl
@[simp] theorem State.setFht_rsv (f : Nat) (v : Fht) : (s.setFht f v).rsv = s.rsv := rfl
@[simp] theorem State.setFht_hmc (f : Nat) (v : Fht) : (s.setFht f v).hmc = s.hmc := rfl
@[simp] theorem State.setFht_adm (f : Nat) (v : Fht) : (s.setFht f v).adm = s.adm := rfl
@[simp] theorem State.setFht_xlt (f : Nat) (v : Fht) : (s.setFht f v).xlt = s.xlt := rfl
@[simp] theorem State.setFht_coh (f : Nat) (v : Fht) : (s.setFht f v).coh = s.coh := rfl
@[simp] theorem State.setFht_fab (f : Nat) (v : Fht) : (s.setFht f v).fab = s.fab := rfl
@[simp] theorem State.setFht_fw (f : Nat) (v : Fht) : (s.setFht f v).fw = s.fw := rfl
@[simp] theorem State.setFht_boot (f : Nat) (v : Fht) : (s.setFht f v).boot = s.boot := rfl
@[simp] theorem State.setFht_island (f : Nat) (v : Fht) : (s.setFht f v).island = s.island := rfl
@[simp] theorem State.setFht_pins (f : Nat) (v : Fht) : (s.setFht f v).pins = s.pins := rfl
@[simp] theorem State.setFht_creset (f : Nat) (v : Fht) : (s.setFht f v).creset = s.creset := rfl
@[simp] theorem State.setFht_tileFaults (f : Nat) (v : Fht) : (s.setFht f v).tileFaults = s.tileFaults := rfl
@[simp] theorem State.setFht_opened (f : Nat) (v : Fht) : (s.setFht f v).opened = s.opened := rfl
@[simp] theorem State.setFht_prng (f : Nat) (v : Fht) : (s.setFht f v).prng = s.prng := rfl
@[simp] theorem State.setFht_hostWait (f : Nat) (v : Fht) : (s.setFht f v).hostWait = s.hostWait := rfl
@[simp] theorem State.setFht_hostUse (f : Nat) (v : Fht) : (s.setFht f v).hostUse = s.hostUse := rfl
@[simp] theorem State.setFht_hostReset (f : Nat) (v : Fht) : (s.setFht f v).hostReset = s.hostReset := rfl
@[simp] theorem State.setFht_signalled (f : Nat) (v : Fht) : (s.setFht f v).signalled = s.signalled := rfl
@[simp] theorem State.setFht_out (f : Nat) (v : Fht) : (s.setFht f v).out = s.out := rfl
@[simp] theorem State.setFht_fresh (f : Nat) (v : Fht) : (s.setFht f v).fresh = s.fresh := rfl
@[simp] theorem State.setFht_pending (f : Nat) (v : Fht) : (s.setFht f v).pending = s.pending := rfl

/-! ### State.setLsm -/

@[simp] theorem State.setLsm_regs (ln : Nat) (v : LineSt) : (s.setLsm ln v).regs = s.regs := rfl
@[simp] theorem State.setLsm_selBank (ln : Nat) (v : LineSt) : (s.setLsm ln v).selBank = s.selBank := rfl
@[simp] theorem State.setLsm_hbm (ln : Nat) (v : LineSt) : (s.setLsm ln v).hbm = s.hbm := rfl
@[simp] theorem State.setLsm_lmeta (ln : Nat) (v : LineSt) : (s.setLsm ln v).lmeta = s.lmeta := rfl
@[simp] theorem State.setLsm_tim (ln : Nat) (v : LineSt) : (s.setLsm ln v).tim = s.tim := rfl
@[simp] theorem State.setLsm_rsv (ln : Nat) (v : LineSt) : (s.setLsm ln v).rsv = s.rsv := rfl
@[simp] theorem State.setLsm_hmc (ln : Nat) (v : LineSt) : (s.setLsm ln v).hmc = s.hmc := rfl
@[simp] theorem State.setLsm_adm (ln : Nat) (v : LineSt) : (s.setLsm ln v).adm = s.adm := rfl
@[simp] theorem State.setLsm_xlt (ln : Nat) (v : LineSt) : (s.setLsm ln v).xlt = s.xlt := rfl
@[simp] theorem State.setLsm_coh (ln : Nat) (v : LineSt) : (s.setLsm ln v).coh = s.coh := rfl
@[simp] theorem State.setLsm_fab (ln : Nat) (v : LineSt) : (s.setLsm ln v).fab = s.fab := rfl
@[simp] theorem State.setLsm_fw (ln : Nat) (v : LineSt) : (s.setLsm ln v).fw = s.fw := rfl
@[simp] theorem State.setLsm_boot (ln : Nat) (v : LineSt) : (s.setLsm ln v).boot = s.boot := rfl
@[simp] theorem State.setLsm_island (ln : Nat) (v : LineSt) : (s.setLsm ln v).island = s.island := rfl
@[simp] theorem State.setLsm_pins (ln : Nat) (v : LineSt) : (s.setLsm ln v).pins = s.pins := rfl
@[simp] theorem State.setLsm_creset (ln : Nat) (v : LineSt) : (s.setLsm ln v).creset = s.creset := rfl
@[simp] theorem State.setLsm_tileFaults (ln : Nat) (v : LineSt) : (s.setLsm ln v).tileFaults = s.tileFaults := rfl
@[simp] theorem State.setLsm_opened (ln : Nat) (v : LineSt) : (s.setLsm ln v).opened = s.opened := rfl
@[simp] theorem State.setLsm_prng (ln : Nat) (v : LineSt) : (s.setLsm ln v).prng = s.prng := rfl
@[simp] theorem State.setLsm_hostWait (ln : Nat) (v : LineSt) : (s.setLsm ln v).hostWait = s.hostWait := rfl
@[simp] theorem State.setLsm_hostUse (ln : Nat) (v : LineSt) : (s.setLsm ln v).hostUse = s.hostUse := rfl
@[simp] theorem State.setLsm_hostReset (ln : Nat) (v : LineSt) : (s.setLsm ln v).hostReset = s.hostReset := rfl
@[simp] theorem State.setLsm_signalled (ln : Nat) (v : LineSt) : (s.setLsm ln v).signalled = s.signalled := rfl
@[simp] theorem State.setLsm_out (ln : Nat) (v : LineSt) : (s.setLsm ln v).out = s.out := rfl
@[simp] theorem State.setLsm_fresh (ln : Nat) (v : LineSt) : (s.setLsm ln v).fresh = s.fresh := rfl
@[simp] theorem State.setLsm_pending (ln : Nat) (v : LineSt) : (s.setLsm ln v).pending = s.pending := rfl

/-! ### State.setFgroup -/

@[simp] theorem State.setFgroup_regs (p g : Nat) (v : FGroup) : (s.setFgroup p g v).regs = s.regs := rfl
@[simp] theorem State.setFgroup_selBank (p g : Nat) (v : FGroup) : (s.setFgroup p g v).selBank = s.selBank := rfl
@[simp] theorem State.setFgroup_hbm (p g : Nat) (v : FGroup) : (s.setFgroup p g v).hbm = s.hbm := rfl
@[simp] theorem State.setFgroup_lmeta (p g : Nat) (v : FGroup) : (s.setFgroup p g v).lmeta = s.lmeta := rfl
@[simp] theorem State.setFgroup_tim (p g : Nat) (v : FGroup) : (s.setFgroup p g v).tim = s.tim := rfl
@[simp] theorem State.setFgroup_rsv (p g : Nat) (v : FGroup) : (s.setFgroup p g v).rsv = s.rsv := rfl
@[simp] theorem State.setFgroup_hmc (p g : Nat) (v : FGroup) : (s.setFgroup p g v).hmc = s.hmc := rfl
@[simp] theorem State.setFgroup_adm (p g : Nat) (v : FGroup) : (s.setFgroup p g v).adm = s.adm := rfl
@[simp] theorem State.setFgroup_xlt (p g : Nat) (v : FGroup) : (s.setFgroup p g v).xlt = s.xlt := rfl
@[simp] theorem State.setFgroup_coh (p g : Nat) (v : FGroup) : (s.setFgroup p g v).coh = s.coh := rfl
@[simp] theorem State.setFgroup_fab (p g : Nat) (v : FGroup) : (s.setFgroup p g v).fab = s.fab := rfl
@[simp] theorem State.setFgroup_fw (p g : Nat) (v : FGroup) : (s.setFgroup p g v).fw = s.fw := rfl
@[simp] theorem State.setFgroup_boot (p g : Nat) (v : FGroup) : (s.setFgroup p g v).boot = s.boot := rfl
@[simp] theorem State.setFgroup_island (p g : Nat) (v : FGroup) : (s.setFgroup p g v).island = s.island := rfl
@[simp] theorem State.setFgroup_pins (p g : Nat) (v : FGroup) : (s.setFgroup p g v).pins = s.pins := rfl
@[simp] theorem State.setFgroup_creset (p g : Nat) (v : FGroup) : (s.setFgroup p g v).creset = s.creset := rfl
@[simp] theorem State.setFgroup_tileFaults (p g : Nat) (v : FGroup) : (s.setFgroup p g v).tileFaults = s.tileFaults := rfl
@[simp] theorem State.setFgroup_opened (p g : Nat) (v : FGroup) : (s.setFgroup p g v).opened = s.opened := rfl
@[simp] theorem State.setFgroup_prng (p g : Nat) (v : FGroup) : (s.setFgroup p g v).prng = s.prng := rfl
@[simp] theorem State.setFgroup_hostWait (p g : Nat) (v : FGroup) : (s.setFgroup p g v).hostWait = s.hostWait := rfl
@[simp] theorem State.setFgroup_hostUse (p g : Nat) (v : FGroup) : (s.setFgroup p g v).hostUse = s.hostUse := rfl
@[simp] theorem State.setFgroup_hostReset (p g : Nat) (v : FGroup) : (s.setFgroup p g v).hostReset = s.hostReset := rfl
@[simp] theorem State.setFgroup_signalled (p g : Nat) (v : FGroup) : (s.setFgroup p g v).signalled = s.signalled := rfl
@[simp] theorem State.setFgroup_out (p g : Nat) (v : FGroup) : (s.setFgroup p g v).out = s.out := rfl
@[simp] theorem State.setFgroup_fresh (p g : Nat) (v : FGroup) : (s.setFgroup p g v).fresh = s.fresh := rfl
@[simp] theorem State.setFgroup_pending (p g : Nat) (v : FGroup) : (s.setFgroup p g v).pending = s.pending := rfl

/-! ### State.setRecall -/

@[simp] theorem State.setRecall_regs (r : Recall) : (s.setRecall r).regs = s.regs := rfl
@[simp] theorem State.setRecall_selBank (r : Recall) : (s.setRecall r).selBank = s.selBank := rfl
@[simp] theorem State.setRecall_hbm (r : Recall) : (s.setRecall r).hbm = s.hbm := rfl
@[simp] theorem State.setRecall_lmeta (r : Recall) : (s.setRecall r).lmeta = s.lmeta := rfl
@[simp] theorem State.setRecall_tim (r : Recall) : (s.setRecall r).tim = s.tim := rfl
@[simp] theorem State.setRecall_tier (r : Recall) : (s.setRecall r).tier = s.tier := rfl
@[simp] theorem State.setRecall_rsv (r : Recall) : (s.setRecall r).rsv = s.rsv := rfl
@[simp] theorem State.setRecall_hmc (r : Recall) : (s.setRecall r).hmc = s.hmc := rfl
@[simp] theorem State.setRecall_adm (r : Recall) : (s.setRecall r).adm = s.adm := rfl
@[simp] theorem State.setRecall_xlt (r : Recall) : (s.setRecall r).xlt = s.xlt := rfl
@[simp] theorem State.setRecall_fab (r : Recall) : (s.setRecall r).fab = s.fab := rfl
@[simp] theorem State.setRecall_fw (r : Recall) : (s.setRecall r).fw = s.fw := rfl
@[simp] theorem State.setRecall_boot (r : Recall) : (s.setRecall r).boot = s.boot := rfl
@[simp] theorem State.setRecall_island (r : Recall) : (s.setRecall r).island = s.island := rfl
@[simp] theorem State.setRecall_pins (r : Recall) : (s.setRecall r).pins = s.pins := rfl
@[simp] theorem State.setRecall_creset (r : Recall) : (s.setRecall r).creset = s.creset := rfl
@[simp] theorem State.setRecall_tileFaults (r : Recall) : (s.setRecall r).tileFaults = s.tileFaults := rfl
@[simp] theorem State.setRecall_opened (r : Recall) : (s.setRecall r).opened = s.opened := rfl
@[simp] theorem State.setRecall_prng (r : Recall) : (s.setRecall r).prng = s.prng := rfl
@[simp] theorem State.setRecall_hostWait (r : Recall) : (s.setRecall r).hostWait = s.hostWait := rfl
@[simp] theorem State.setRecall_hostUse (r : Recall) : (s.setRecall r).hostUse = s.hostUse := rfl
@[simp] theorem State.setRecall_hostReset (r : Recall) : (s.setRecall r).hostReset = s.hostReset := rfl
@[simp] theorem State.setRecall_signalled (r : Recall) : (s.setRecall r).signalled = s.signalled := rfl
@[simp] theorem State.setRecall_out (r : Recall) : (s.setRecall r).out = s.out := rfl
@[simp] theorem State.setRecall_fresh (r : Recall) : (s.setRecall r).fresh = s.fresh := rfl
@[simp] theorem State.setRecall_pending (r : Recall) : (s.setRecall r).pending = s.pending := rfl

/-! ### State.setWork -/

@[simp] theorem State.setWork_regs (rid : Nat) (w : Work) : (s.setWork rid w).regs = s.regs := rfl
@[simp] theorem State.setWork_selBank (rid : Nat) (w : Work) : (s.setWork rid w).selBank = s.selBank := rfl
@[simp] theorem State.setWork_hbm (rid : Nat) (w : Work) : (s.setWork rid w).hbm = s.hbm := rfl
@[simp] theorem State.setWork_lmeta (rid : Nat) (w : Work) : (s.setWork rid w).lmeta = s.lmeta := rfl
@[simp] theorem State.setWork_tim (rid : Nat) (w : Work) : (s.setWork rid w).tim = s.tim := rfl
@[simp] theorem State.setWork_tier (rid : Nat) (w : Work) : (s.setWork rid w).tier = s.tier := rfl
@[simp] theorem State.setWork_rsv (rid : Nat) (w : Work) : (s.setWork rid w).rsv = s.rsv := rfl
@[simp] theorem State.setWork_hmc (rid : Nat) (w : Work) : (s.setWork rid w).hmc = s.hmc := rfl
@[simp] theorem State.setWork_xlt (rid : Nat) (w : Work) : (s.setWork rid w).xlt = s.xlt := rfl
@[simp] theorem State.setWork_coh (rid : Nat) (w : Work) : (s.setWork rid w).coh = s.coh := rfl
@[simp] theorem State.setWork_fab (rid : Nat) (w : Work) : (s.setWork rid w).fab = s.fab := rfl
@[simp] theorem State.setWork_fw (rid : Nat) (w : Work) : (s.setWork rid w).fw = s.fw := rfl
@[simp] theorem State.setWork_boot (rid : Nat) (w : Work) : (s.setWork rid w).boot = s.boot := rfl
@[simp] theorem State.setWork_island (rid : Nat) (w : Work) : (s.setWork rid w).island = s.island := rfl
@[simp] theorem State.setWork_pins (rid : Nat) (w : Work) : (s.setWork rid w).pins = s.pins := rfl
@[simp] theorem State.setWork_creset (rid : Nat) (w : Work) : (s.setWork rid w).creset = s.creset := rfl
@[simp] theorem State.setWork_tileFaults (rid : Nat) (w : Work) : (s.setWork rid w).tileFaults = s.tileFaults := rfl
@[simp] theorem State.setWork_opened (rid : Nat) (w : Work) : (s.setWork rid w).opened = s.opened := rfl
@[simp] theorem State.setWork_prng (rid : Nat) (w : Work) : (s.setWork rid w).prng = s.prng := rfl
@[simp] theorem State.setWork_hostWait (rid : Nat) (w : Work) : (s.setWork rid w).hostWait = s.hostWait := rfl
@[simp] theorem State.setWork_hostUse (rid : Nat) (w : Work) : (s.setWork rid w).hostUse = s.hostUse := rfl
@[simp] theorem State.setWork_hostReset (rid : Nat) (w : Work) : (s.setWork rid w).hostReset = s.hostReset := rfl
@[simp] theorem State.setWork_signalled (rid : Nat) (w : Work) : (s.setWork rid w).signalled = s.signalled := rfl
@[simp] theorem State.setWork_out (rid : Nat) (w : Work) : (s.setWork rid w).out = s.out := rfl
@[simp] theorem State.setWork_fresh (rid : Nat) (w : Work) : (s.setWork rid w).fresh = s.fresh := rfl
@[simp] theorem State.setWork_pending (rid : Nat) (w : Work) : (s.setWork rid w).pending = s.pending := rfl

/-! ### State.setReq -/

@[simp] theorem State.setReq_regs (r : Req) : (s.setReq r).regs = s.regs := rfl
@[simp] theorem State.setReq_selBank (r : Req) : (s.setReq r).selBank = s.selBank := rfl
@[simp] theorem State.setReq_hbm (r : Req) : (s.setReq r).hbm = s.hbm := rfl
@[simp] theorem State.setReq_lmeta (r : Req) : (s.setReq r).lmeta = s.lmeta := rfl
@[simp] theorem State.setReq_tim (r : Req) : (s.setReq r).tim = s.tim := rfl
@[simp] theorem State.setReq_tier (r : Req) : (s.setReq r).tier = s.tier := rfl
@[simp] theorem State.setReq_rsv (r : Req) : (s.setReq r).rsv = s.rsv := rfl
@[simp] theorem State.setReq_hmc (r : Req) : (s.setReq r).hmc = s.hmc := rfl
@[simp] theorem State.setReq_xlt (r : Req) : (s.setReq r).xlt = s.xlt := rfl
@[simp] theorem State.setReq_coh (r : Req) : (s.setReq r).coh = s.coh := rfl
@[simp] theorem State.setReq_fab (r : Req) : (s.setReq r).fab = s.fab := rfl
@[simp] theorem State.setReq_fw (r : Req) : (s.setReq r).fw = s.fw := rfl
@[simp] theorem State.setReq_boot (r : Req) : (s.setReq r).boot = s.boot := rfl
@[simp] theorem State.setReq_island (r : Req) : (s.setReq r).island = s.island := rfl
@[simp] theorem State.setReq_pins (r : Req) : (s.setReq r).pins = s.pins := rfl
@[simp] theorem State.setReq_creset (r : Req) : (s.setReq r).creset = s.creset := rfl
@[simp] theorem State.setReq_tileFaults (r : Req) : (s.setReq r).tileFaults = s.tileFaults := rfl
@[simp] theorem State.setReq_opened (r : Req) : (s.setReq r).opened = s.opened := rfl
@[simp] theorem State.setReq_prng (r : Req) : (s.setReq r).prng = s.prng := rfl
@[simp] theorem State.setReq_hostWait (r : Req) : (s.setReq r).hostWait = s.hostWait := rfl
@[simp] theorem State.setReq_hostUse (r : Req) : (s.setReq r).hostUse = s.hostUse := rfl
@[simp] theorem State.setReq_hostReset (r : Req) : (s.setReq r).hostReset = s.hostReset := rfl
@[simp] theorem State.setReq_signalled (r : Req) : (s.setReq r).signalled = s.signalled := rfl
@[simp] theorem State.setReq_out (r : Req) : (s.setReq r).out = s.out := rfl
@[simp] theorem State.setReq_fresh (r : Req) : (s.setReq r).fresh = s.fresh := rfl
@[simp] theorem State.setReq_pending (r : Req) : (s.setReq r).pending = s.pending := rfl

end Sys2Proof.Machine
end

