-- ==== Sys2Proof/Laws/Memory.lean ====
section
/-! SUPPORT. Bytes of HBM: reading after writing, and the canonical form, which every memory operation keeps. -/

namespace Sys2Proof.Machine

variable (s : State)

/-! ### Bytes -/

/-- A stored byte reads as stored, and every other byte as before. -/
theorem State.rdB_wrB (a x : Nat) (b : Byte) : (s.wrB a b).rdB x = if x = a then b else s.rdB x := by
  simp [State.rdB, State.wrB, sget_sset]

/-- Bytes outside a store are as before. -/
theorem State.rdB_wrBs_of_not_mem (bs : List Byte) : ∀ (s : State) (a x : Nat), x < a ∨ a + bs.length ≤ x → (s.wrBs a bs).rdB x = s.rdB x := by
  induction bs with
  | nil => intro s a x _; simp [State.wrBs]
  | cons b r ih =>
    intro s a x h
    simp only [List.length_cons] at h
    rw [State.wrBs, ih _ _ _ (by omega), State.rdB_wrB, if_neg (by omega)]

/-- A stored byte string reads as stored. -/
theorem State.rdB_wrBs_of_mem (bs : List Byte) : ∀ (s : State) (a i : Nat) (h : i < bs.length), (s.wrBs a bs).rdB (a + i) = bs[i] := by
  induction bs with
  | nil => intro s a i h; simp at h
  | cons b r ih =>
    intro s a i h
    rw [State.wrBs]
    cases i with
    | zero => rw [State.rdB_wrBs_of_not_mem _ _ _ _ (by omega), State.rdB_wrB]; simp
    | succ n =>
      have hn : n < r.length := by simpa using h
      rw [show a + (n + 1) = a + 1 + n by omega, ih _ _ _ hn]; simp

/-- The bytes of a store, read together. -/
theorem State.rdBs_wrBs (a : Nat) (bs : List Byte) : (s.wrBs a bs).rdBs a bs.length = bs := by
  apply List.ext_getElem
  · simp [State.rdBs]
  · intro i h1 h2
    simp only [State.rdBs, List.getElem_map, List.getElem_range]
    exact State.rdB_wrBs_of_mem bs s a i h2

/-! ### What a store touches -/

/-- A byte store touches HBM bytes alone. -/
theorem State.wrBs_changes (bs : List Byte) : ∀ (s : State) (a : Nat), s.changes [.hbm] (s.wrBs a bs) := by
  induction bs with
  | nil => intro s a p _; cases p <;> rfl
  | cons b r ih =>
    intro s a p hp
    have h := ih (s.wrB a b) (a + 1) p hp
    cases p <;> first | exact h | exact absurd (by simp) hp

/-! ### The canonical form -/

/-- A byte store keeps the form of HBM's bytes. -/
theorem Memory.wf_wrB (h : Memory.wf s.hbm = true) (a : Nat) (b : Byte) : Memory.wf (s.wrB a b).hbm = true :=
  SMap.wf_sset (d := cellDefault) h a b

/-- A store of bytes keeps it. -/
theorem Memory.wf_wrBs (bs : List Byte) : ∀ (s : State) (a : Nat), Memory.wf s.hbm = true → Memory.wf (s.wrBs a bs).hbm = true := by
  induction bs with
  | nil => intro s a h; exact h
  | cons b r ih => intro s a h; exact ih _ _ (Memory.wf_wrB s h a b)

/-- The two halves of the form. -/
theorem State.memoryOk_iff : s.memoryOk = true ↔ Memory.wf s.hbm = true ∧ SMap.wf (fun _ => ({} : LineMeta)) s.lmeta = true := by
  simp [State.memoryOk]

/-- States with the same HBM have the same form. -/
theorem State.memoryOk_congr {s t : State} (hb : t.hbm = s.hbm) (hm : t.lmeta = s.lmeta) : t.memoryOk = s.memoryOk := by
  simp [State.memoryOk, hb, hm]

theorem State.memoryOk_wrB {s : State} (h : s.memoryOk = true) (a : Nat) (b : Byte) : (s.wrB a b).memoryOk = true := by
  rw [State.memoryOk_iff] at *; exact ⟨Memory.wf_wrB s h.1 a b, h.2⟩

theorem State.memoryOk_wrBs {s : State} (h : s.memoryOk = true) (a : Nat) (bs : List Byte) : (s.wrBs a bs).memoryOk = true := by
  rw [State.memoryOk_iff] at *
  refine ⟨Memory.wf_wrBs bs s a h.1, ?_⟩
  rw [show (s.wrBs a bs).lmeta = s.lmeta from State.wrBs_changes bs s a .lmeta (by simp)]; exact h.2

theorem State.memoryOk_setMeta {s : State} (h : s.memoryOk = true) (ln : Nat) (m : LineMeta) : (s.setMeta ln m).memoryOk = true := by
  rw [State.memoryOk_iff] at *; exact ⟨h.1, SMap.wf_sset h.2 ln m⟩

theorem State.memoryOk_setReg {s : State} (h : s.memoryOk = true) (o : Nat) (w : Word) : (s.setReg o w).memoryOk = true := h

theorem State.memoryOk_bump {s : State} (h : s.memoryOk = true) (b : Blk) (i c : Nat) : (s.bump b i c).memoryOk = true := by
  unfold State.bump State.bumpN; split_ifs <;> exact h

/-- A counter leaves HBM alone. -/
theorem State.bumpN_memoryOk (b : Blk) (i c n : Nat) : (s.bumpN b i c n).memoryOk = s.memoryOk := by
  unfold State.bumpN; split_ifs <;> rfl

theorem State.memoryOk_ite {s t : State} {c : Prop} [Decidable c] (h : s.memoryOk = true) (k : t.memoryOk = true) :
    (if c then s else t).memoryOk = true := by split_ifs <;> assumption

/-- A first-error capture leaves HBM alone. -/
theorem State.memoryOk_capture {s : State} (h : s.memoryOk = true) (b : Blk) (i : Nat) (e : ErrInfo) : (s.capture b i e).memoryOk = true := by
  unfold State.capture
  simp only
  split
  · exact h
  · cases e.cycle <;> exact h

/-- A signal owed leaves HBM alone. -/
theorem State.memoryOk_oweSignal {s : State} (h : s.memoryOk = true) (st k : Nat) : (s.oweSignal st k).memoryOk = true := by
  have hh : ∀ x : Hmc, State.memoryOk { s with hmc := x } = true := fun _ => h
  unfold State.oweSignal
  simp only
  exact State.memoryOk_setReg (State.memoryOk_ite (hh _) h) _ _

/-- A queued repair leaves HBM alone. -/
theorem State.memoryOk_queueRepair {s : State} (h : s.memoryOk = true) (ln : Nat) (d : Option (List Byte × Bool)) :
    (s.queueRepair ln d).memoryOk = true := by
  have hh : ∀ x : Hmc, State.memoryOk { s with hmc := x } = true := fun _ => h
  exact State.memoryOk_ite h (State.memoryOk_ite (State.memoryOk_bump h _ _ _) (hh _))

/-- The read that a narrow write merges into leaves HBM alone. -/
theorem State.memoryOk_mergeRead {s : State} (h : s.memoryOk = true) (ln : Nat) (bad : Bool) : (s.mergeRead ln bad).memoryOk = true := by
  have h0 := State.memoryOk_bump h .hmc (stackOf ln) 0x100
  have h1 := fun e => State.memoryOk_capture (State.memoryOk_bump h0 .hmc (stackOf ln) 0x118) .hmc (stackOf ln) e
  have hp : ∀ (t : State) (c : Bool), t.memoryOk = true → (if c = true then (t.bump .hmc (stackOf ln) 0x140).oweSignal (stackOf ln) 1 else t).memoryOk = true :=
    fun t c k => State.memoryOk_ite (State.memoryOk_oweSignal (State.memoryOk_bump k _ _ _) _ _) k
  unfold State.mergeRead
  simp only
  refine hp _ _ (State.memoryOk_ite ?_ h0)
  exact State.memoryOk_queueRepair (State.memoryOk_oweSignal (State.memoryOk_ite (h1 _) (State.memoryOk_bump (h1 _) _ _ _)) _ _) _ _

theorem State.memoryOk_dropRewrite {s : State} (h : s.memoryOk = true) (ln : Nat) : (s.dropRewrite ln).memoryOk = true := by
  unfold State.dropRewrite
  have hh : ∀ x : Hmc, State.memoryOk { s with hmc := x } = true := fun _ => h
  exact State.memoryOk_ite (State.memoryOk_bump (hh _) _ _ _) h

/-- A line write keeps the form. -/
theorem State.memoryOk_writeLine {s : State} (h : s.memoryOk = true) (p : Nat) (bs : List Byte) (poison bad : Bool) (fmt : BitVec 4) (mirror : Bool)
    (tag : Option Nat) : (s.writeLine p bs poison bad fmt mirror tag).memoryOk = true := by
  have hb : ∀ (t : State) (c : Bool) (b : Blk) (i k : Nat), t.memoryOk = true → (if c = true then t.bump b i k else t).memoryOk = true :=
    fun t c b i k ht => State.memoryOk_ite (State.memoryOk_bump ht b i k) ht
  have hw : ∀ (t : State) (f : Fw), t.memoryOk = true → State.memoryOk { t with fw := f } = true := fun _ _ ht => ht
  have h0 : ∀ c : Bool, (if c = true then s else s.mergeRead (p / 256) bad).memoryOk = true :=
    fun c => State.memoryOk_ite h (State.memoryOk_mergeRead h _ _)
  unfold State.writeLine
  simp only
  refine State.memoryOk_dropRewrite (State.memoryOk_ite ?_ (State.memoryOk_bump ?_ _ _ _)) _
  all_goals
    refine hb _ _ _ _ _ (State.memoryOk_bump (State.memoryOk_setMeta (State.memoryOk_ite ?_ ?_) _ _) _ _ _)
    · exact State.memoryOk_wrBs (h0 _) _ _
    · exact hw _ _ (State.memoryOk_wrBs (h0 _) _ _)

/-- A write to the host or control region keeps the form. -/
theorem State.memoryOk_writeRegion {s : State} (h : s.memoryOk = true) (a : Nat) (bs : List Byte) (poison : Bool) :
    (s.writeRegion a bs poison).memoryOk = true := by
  unfold State.writeRegion
  generalize pieces (bs.length + 1) a bs = ps
  induction ps generalizing s with
  | nil => exact h
  | cons p r ih =>
    simp only [List.foldl_cons]
    apply ih
    split
    · exact State.memoryOk_writeLine h _ _ _ _ _ _ _
    · exact h

theorem State.memoryOk_writeWords {s : State} (h : s.memoryOk = true) (a : Nat) (ws : List Word) : (s.writeWords a ws).memoryOk = true :=
  State.memoryOk_writeRegion h _ _ _

/-- Metadata with that of one frame's lines replaced keeps the form: either every line of it is as an unlisted one, or none is. -/
theorem SMap.wf_frame {l : List (Nat × LineMeta)} (h : SMap.wf (fun _ => ({} : LineMeta)) l = true) (f : Nat) (m : Nat → LineMeta)
    (hne : ∀ i, m 0 ≠ {} → m i ≠ {}) :
    SMap.wf (fun _ => ({} : LineMeta)) ((l.filter fun e => decide (e.1 < f * 8192)) ++
      ((if m 0 = ({} : LineMeta) then [] else (List.range 8192).map fun i => (f * 8192 + i, m i)) ++
        l.filter fun e => decide (f * 8192 + 8192 ≤ e.1))) = true := by
  have hms : ∀ e ∈ (if m 0 = ({} : LineMeta) then [] else (List.range 8192).map fun i => (f * 8192 + i, m i)),
      f * 8192 ≤ e.1 ∧ e.1 < f * 8192 + 8192 := by
    intro e he
    split_ifs at he with h1
    · simp at he
    · obtain ⟨i, hi, rfl⟩ := List.mem_map.1 he
      have := List.mem_range.1 hi
      simp only; omega
  have hwf : SMap.wf (fun _ => ({} : LineMeta)) (if m 0 = ({} : LineMeta) then [] else (List.range 8192).map fun i => (f * 8192 + i, m i)) = true := by
    split_ifs with h1
    · rfl
    · rw [SMap.wf_iff]
      refine ⟨?_, ?_⟩
      · rw [List.pairwise_map]
        exact List.pairwise_lt_range.imp fun hab => by simp only; omega
      · intro e he
        obtain ⟨i, _, rfl⟩ := List.mem_map.1 he
        exact hne i h1
  have hlo : ∀ e ∈ l.filter fun e => decide (e.1 < f * 8192), e.1 < f * 8192 := fun e he => by simpa using (List.mem_filter.1 he).2
  have hhi : ∀ e ∈ l.filter fun e => decide (f * 8192 + 8192 ≤ e.1), f * 8192 + 8192 ≤ e.1 := fun e he => by simpa using (List.mem_filter.1 he).2
  refine SMap.wf_append (n := f * 8192) (SMap.wf_filter h _)
    (SMap.wf_append (n := f * 8192 + 8192) hwf (SMap.wf_filter h _) (fun e he => (hms e he).2) hhi) hlo ?_
  intro e he
  rcases List.mem_append.1 he with he | he
  · exact (hms e he).1
  · exact le_trans (Nat.le_add_right _ _) (hhi e he)

/-- A frame of zero lines keeps the form. -/
theorem State.memoryOk_zeroFrame {s : State} (h : s.memoryOk = true) (f fmt : Nat) (mirror : Bool) (parcel : Option Nat) :
    (s.zeroFrame f fmt mirror parcel).memoryOk = true := by
  unfold State.zeroFrame
  simp only
  rw [State.bumpN_memoryOk, List.append_assoc]
  rw [State.memoryOk_iff] at *
  refine ⟨SMap.wf_filter h.1 _, SMap.wf_frame h.2 f
    (fun l => { format := BitVec.ofNat 4 fmt, mirror := mirror, tag := parcel.map fun p => poolTag p l }) ?_⟩
  intro i h0 hi
  apply h0
  cases parcel <;> simp_all

/-- Discarding bytes and metadata keeps the form. -/
theorem State.memoryOk_filter {s t : State} (h : s.memoryOk = true) (p : Host.Cell → Bool) (q : Nat × LineMeta → Bool)
    (hb : t.hbm = s.hbm.filter p) (hm : t.lmeta = s.lmeta.filter q) : t.memoryOk = true := by
  rw [State.memoryOk_iff] at *
  rw [hb, hm]
  exact ⟨SMap.wf_filter (d := cellDefault) h.1 p, SMap.wf_filter h.2 q⟩

end Sys2Proof.Machine
end

