-- ==== Sys2Proof/Laws/Registers.lean ====
section
/-! SUPPORT. Registers, fields, counters: reading after writing. -/

namespace Sys2Proof.Machine

variable (s : State)

/-! ### Whole registers -/

/-- A written register reads as written, every other one as before. -/
theorem State.reg_setReg (o x : Nat) (w : Word) : (s.setReg o w).reg x = if x = o then w else s.reg x := by
  simp [State.reg, State.setReg, sget_sset]

@[simp] theorem State.reg_setReg_self (o : Nat) (w : Word) : (s.setReg o w).reg o = w := by simp [State.reg_setReg]

theorem State.reg_setReg_ne {o x : Nat} (h : x ≠ o) (w : Word) : (s.setReg o w).reg x = s.reg x := by simp [State.reg_setReg, h]

/-- A write of a field leaves every other register. -/
theorem State.reg_setFld_ne {o x : Nat} (h : x ≠ o) (hi lo v : Nat) : (s.setFld o hi lo v).reg x = s.reg x := s.reg_setReg_ne h _

@[simp] theorem State.reg_setFld_self (o hi lo v : Nat) : (s.setFld o hi lo v).reg o = setBits (s.reg o) hi lo v := s.reg_setReg_self o _

/-- Nothing but register `o` is written. -/
theorem State.setReg_regsBut (o : Nat) (w : Word) : s.regsBut [o] (s.setReg o w) := fun x hx => s.reg_setReg_ne (by simpa using hx) w

/-! ### Bits -/

/-- Bit `k` of a placed value. -/
theorem bit_place {hi lo : Nat} (hl : lo ≤ hi) (v k : Nat) : bit (place hi lo v) k = (decide (lo ≤ k ∧ k ≤ hi ∧ k < 64) && v.testBit (k - lo)) := by
  unfold bit place
  simp only [BitVec.getLsbD_shiftLeft, BitVec.getLsbD_ofNat, Nat.testBit_mod_two_pow]
  by_cases h : lo ≤ k ∧ k ≤ hi ∧ k < 64
  · have h1 : k - lo < hi - lo + 1 := by omega
    have h2 : k - lo < 64 := by omega
    have h3 : ¬k < lo := by omega
    rw [decide_eq_true h, decide_eq_true h1, decide_eq_true h2, decide_eq_false h3, decide_eq_true h.2.2]; simp
  · rw [decide_eq_false h, Bool.false_and]
    by_cases a : k < 64
    · by_cases c : k < lo
      · rw [decide_eq_true c]; simp
      · by_cases e : k - lo < hi - lo + 1
        · exact absurd ⟨by omega, by omega, a⟩ h
        · rw [decide_eq_false e]; simp
    · rw [decide_eq_false a]; simp

/-- Bit `k` of a mask. -/
theorem bit_mask {hi lo : Nat} (hl : lo ≤ hi) (k : Nat) : bit (mask hi lo) k = decide (lo ≤ k ∧ k ≤ hi ∧ k < 64) := by
  unfold mask
  rw [bit_place hl]
  by_cases h : lo ≤ k ∧ k ≤ hi ∧ k < 64
  · have : k - lo < hi - lo + 1 := by omega
    simp [h, Nat.testBit_two_pow_sub_one, this]
  · simp [h]

/-- Bit `k` after a field write: of the value within the field, of the old word outside it. -/
theorem bit_setBits (w : Word) {hi lo : Nat} (hl : lo ≤ hi) (v k : Nat) :
    bit (setBits w hi lo v) k = if lo ≤ k ∧ k ≤ hi ∧ k < 64 then v.testBit (k - lo) else bit w k := by
  have hm : bit (mask hi lo) k = decide (lo ≤ k ∧ k ≤ hi ∧ k < 64) := bit_mask hl k
  have hp := bit_place hl v k
  unfold setBits
  unfold bit at *
  simp only [BitVec.getLsbD_or, BitVec.getLsbD_and, BitVec.getLsbD_not, hm, hp]
  by_cases h : lo ≤ k ∧ k ≤ hi ∧ k < 64
  · rw [if_pos h, decide_eq_true h]; simp
  · rw [if_neg h, decide_eq_false h]
    by_cases hk : k < 64
    · simp [hk]
    · simp [BitVec.getLsbD_of_ge w k (by omega)]

/-! ### Counters -/

/-- A counter's bump leaves every other register. -/
theorem State.reg_bump_ne {b : Blk} {i c x : Nat} (h : x ≠ rOff b i c) : (s.bump b i c).reg x = s.reg x := by
  unfold State.bump State.bumpN
  split_ifs
  · rfl
  · exact s.reg_setReg_ne h _

/-- A counter counts unless its page is frozen (R441). -/
theorem State.reg_bump_self {b : Blk} {i c : Nat} (h : s.fld (rOff b i 0x80) 0 0 ≠ 1) : (s.bump b i c).reg (rOff b i c) = s.reg (rOff b i c) + 1 := by
  unfold State.bump State.bumpN
  rw [if_neg h, State.reg_setReg_self]; rfl

end Sys2Proof.Machine
end

