-- ==== Sys2Proof/Laws/Changes.lean ====
section
/-! SUPPORT. What each shared operation may change, said once, for proofs to cite in place of unfolding it. -/

namespace Sys2Proof.Machine

/-! ### The calculus of changes -/

theorem State.same_trans {s t u : State} {p : Part} (h : s.same t p) (k : t.same u p) : s.same u p := by
  cases p <;> exact Eq.trans k h

theorem State.changes_refl (s : State) (ps : List Part) : s.changes ps s := fun p _ => by cases p <;> rfl

/-- Fewer parts allowed say more. -/
theorem State.changes_mono {s t : State} {ps qs : List Part} (h : s.changes ps t) (hs : ps ⊆ qs) : s.changes qs t :=
  fun p hp => h p fun hm => hp (hs hm)

/-- Two operations together change what either may. -/
theorem State.changes_trans {s t u : State} {ps : List Part} (h : s.changes ps t) (k : t.changes ps u) : s.changes ps u :=
  fun p hp => State.same_trans (h p hp) (k p hp)

/-- An operation over two branches. -/
theorem State.changes_ite {s t u : State} {ps : List Part} {c : Prop} [Decidable c] (h : s.changes ps t) (k : s.changes ps u) :
    s.changes ps (if c then t else u) := by split_ifs <;> assumption

/-- An operation folded over a list. -/
theorem State.changes_foldl {β : Type} {ps : List Part} {f : State → β → State} (h : ∀ (s : State) (b : β), s.changes ps (f s b)) (l : List β) :
    ∀ s : State, s.changes ps (l.foldl f s) := by
  induction l with
  | nil => intro s; exact s.changes_refl ps
  | cons b r ih => intro s; exact State.changes_trans (h s b) (ih _)

/-! ### Registers, counters, outputs -/

theorem State.setReg_changes (s : State) (o : Nat) (w : Word) : s.changes [.regs] (s.setReg o w) := fun p hp => by
  cases p <;> first | rfl | exact absurd (by simp) hp

theorem State.setFld_changes (s : State) (o hi lo v : Nat) : s.changes [.regs] (s.setFld o hi lo v) := s.setReg_changes _ _

theorem State.emit_changes (s : State) (x : Out) : s.changes [.out] (s.emit x) := fun p hp => by
  cases p <;> first | rfl | exact absurd (by simp) hp

theorem State.bumpN_changes (s : State) (b : Blk) (i c n : Nat) : s.changes [.regs] (s.bumpN b i c n) :=
  State.changes_ite (s.changes_refl _) (s.setReg_changes _ _)

theorem State.bump_changes (s : State) (b : Blk) (i c : Nat) : s.changes [.regs] (s.bump b i c) := s.bumpN_changes b i c 1

theorem State.hostErr_changes (s : State) : s.changes [.regs, .out] s.hostErr :=
  State.changes_trans (State.changes_mono (s.emit_changes _) (by simp)) (State.changes_mono (State.bump_changes _ _ _ _) (by simp))

/-- An answer to a register write touches the responses and ERR_RESP alone. -/
theorem State.respond_changes (s : State) (by' : Agent) (ok : Bool) : s.changes [.regs, .out] (s.respond by' ok) := by
  unfold State.respond
  split
  · exact State.changes_ite (State.changes_mono (s.emit_changes _) (by simp)) s.hostErr_changes
  · exact s.changes_refl _

theorem State.withFresh_changes (s : State) (n : Nat) : s.changes [.fresh] { s with fresh := n } := fun p hp => by
  cases p <;> first | rfl | exact absurd (by simp) hp

/-- A first-error capture writes the page's eight words, and may draw a free cycle. -/
theorem State.capture_changes (s : State) (b : Blk) (i : Nat) (e : ErrInfo) : s.changes [.regs, .fresh] (s.capture b i e) := by
  have h : ∀ (t : State) (o : Nat) (w : Word), t.changes [.regs, .fresh] (t.setReg o w) := fun t o w => State.changes_mono (t.setReg_changes o w) (by simp)
  unfold State.capture
  simp only
  split
  · exact h _ _ _
  · refine State.changes_trans (t := (match e.cycle with
      | some c => (c, s)
      | none => s.drawNat).2) ?_ ?_
    · split
      · exact s.changes_refl _
      · exact State.changes_mono (s.withFresh_changes _) (by simp)
    · iterate 7 refine State.changes_trans ?_ (h _ _ _)
      exact h _ _ _

/-! ### Memory -/

theorem State.setMeta_changes (s : State) (ln : Nat) (m : LineMeta) : s.changes [.lmeta] (s.setMeta ln m) := fun p hp => by
  cases p <;> first | rfl | exact absurd (by simp) hp

theorem State.withFw_changes (s : State) (f : Fw) : s.changes [.fw] { s with fw := f } := fun p hp => by
  cases p <;> first | rfl | exact absurd (by simp) hp

theorem State.withHmc_changes (s : State) (h : Hmc) : s.changes [.hmc] { s with hmc := h } := fun p hp => by
  cases p <;> first | rfl | exact absurd (by simp) hp

theorem State.oweSignal_changes (s : State) (st k : Nat) : s.changes [.regs, .hmc] (s.oweSignal st k) := by
  have hh : ∀ (c : Bool) (h : Hmc), s.changes [.regs, .hmc] (if c = true then { s with hmc := h } else s) :=
    fun c h => State.changes_ite (State.changes_mono (s.withHmc_changes h) (by simp)) (s.changes_refl _)
  unfold State.oweSignal
  simp only
  exact State.changes_trans (hh _ _) (State.changes_mono (State.setReg_changes _ _ _) (by simp))

/-- A queued repair, or one dropped on a full queue. -/
theorem State.queueRepair_changes (s : State) (ln : Nat) (d : Option (List Byte × Bool)) : s.changes [.regs, .hmc] (s.queueRepair ln d) :=
  State.changes_ite (s.changes_refl _) (State.changes_ite (State.changes_mono (s.bump_changes _ _ _) (by simp))
    (State.changes_mono (s.withHmc_changes _) (by simp)))

/-- The read that a narrow write merges into counts, records a failed check and queues its repair, and delivers poison. -/
theorem State.mergeRead_changes (s : State) (ln : Nat) (bad : Bool) : s.changes [.regs, .hmc, .fresh] (s.mergeRead ln bad) := by
  have hb : ∀ (t : State) (b : Blk) (i c : Nat), t.changes [.regs, .hmc, .fresh] (t.bump b i c) :=
    fun t b i c => State.changes_mono (t.bump_changes b i c) (by simp)
  have hc : ∀ (t : State) (b : Blk) (i : Nat) (e : ErrInfo), t.changes [.regs, .hmc, .fresh] (t.capture b i e) :=
    fun t b i e => State.changes_mono (t.capture_changes b i e) (by simp)
  have hi : ∀ (t : State) (c : Bool) (b : Blk) (i k : Nat), t.changes [.regs, .hmc, .fresh] (if c = true then t else t.bump b i k) :=
    fun t c b i k => State.changes_ite (t.changes_refl _) (hb t b i k)
  have ho : ∀ (t : State) (st k : Nat), t.changes [.regs, .hmc, .fresh] (t.oweSignal st k) :=
    fun t st k => State.changes_mono (t.oweSignal_changes st k) (by simp)
  have hq : ∀ (t : State) (ln : Nat), t.changes [.regs, .hmc, .fresh] (t.queueRepair ln none) :=
    fun t ln => State.changes_mono (t.queueRepair_changes ln none) (by simp)
  have hp : ∀ (t : State) (c : Bool) (b : Blk) (i k st j : Nat), t.changes [.regs, .hmc, .fresh] (if c = true then (t.bump b i k).oweSignal st j else t) :=
    fun t c b i k st j => State.changes_ite (State.changes_trans (hb t b i k) (ho _ st j)) (t.changes_refl _)
  unfold State.mergeRead
  simp only
  refine State.changes_trans (State.changes_trans (hb s .hmc (stackOf ln) 0x100) (State.changes_ite ?_ (State.changes_refl _ _))) (hp _ _ _ _ _ _ _)
  exact State.changes_trans (State.changes_trans (State.changes_trans (State.changes_trans (hb _ _ _ _) (hc _ _ _ _)) (hi _ _ _ _ _)) (ho _ _ _)) (hq _ _)

theorem State.dropRewrite_changes (s : State) (ln : Nat) : s.changes [.regs, .hmc] (s.dropRewrite ln) := by
  unfold State.dropRewrite
  exact State.changes_ite (State.changes_trans (State.changes_mono (s.withHmc_changes _) (by simp)) (State.changes_mono (State.bump_changes _ _ _ _) (by simp)))
    (s.changes_refl _)

theorem State.writeLine_changes (s : State) (p : Nat) (bs : List Byte) (poison bad : Bool) (fmt : BitVec 4) (mirror : Bool) (tag : Option Nat) :
    s.changes lineParts (s.writeLine p bs poison bad fmt mirror tag) := by
  have hw : ∀ t : State, t.changes lineParts (t.wrBs p bs) := fun t => State.changes_mono (State.wrBs_changes bs t p) (by simp [lineParts])
  have hm : ∀ (t : State) (ln : Nat) (m : LineMeta), t.changes lineParts (t.setMeta ln m) :=
    fun t ln m => State.changes_mono (t.setMeta_changes ln m) (by simp [lineParts])
  have hb : ∀ (t : State) (b : Blk) (i c : Nat), t.changes lineParts (t.bump b i c) :=
    fun t b i c => State.changes_mono (t.bump_changes b i c) (by simp [lineParts])
  have hi : ∀ (t : State) (c : Bool) (b : Blk) (i k : Nat), t.changes lineParts (if c = true then t.bump b i k else t) :=
    fun t c b i k => State.changes_ite (hb t b i k) (t.changes_refl _)
  have hj : ∀ (t : State) (c : Bool) (b : Blk) (i k : Nat), t.changes lineParts (if c = true then t else t.bump b i k) :=
    fun t c b i k => State.changes_ite (t.changes_refl _) (hb t b i k)
  have hr : ∀ (t : State) (c : Bool) (ln : Nat), t.changes lineParts (if c = true then t else t.mergeRead ln bad) :=
    fun t c ln => State.changes_ite (t.changes_refl _) (State.changes_mono (t.mergeRead_changes ln bad) (by simp [lineParts]))
  have hf : ∀ (t : State) (c : Bool) (f : Fw), t.changes lineParts (if c = true then t else { t with fw := f }) :=
    fun t c f => State.changes_ite (t.changes_refl _) (State.changes_mono (t.withFw_changes f) (by simp [lineParts]))
  have hd : ∀ (t : State) (ln : Nat), t.changes lineParts (t.dropRewrite ln) :=
    fun t ln => State.changes_mono (t.dropRewrite_changes ln) (by simp [lineParts])
  unfold State.writeLine
  simp only
  exact State.changes_trans (State.changes_trans (State.changes_trans (State.changes_trans (State.changes_trans (State.changes_trans
    (State.changes_trans (hr s _ _) (hw _)) (hf _ _ _)) (hm _ _ _)) (hb _ _ _ _)) (hi _ _ _ _ _)) (hj _ _ _ _ _)) (hd _ _)

theorem State.writeRegion_changes (s : State) (a : Nat) (bs : List Byte) (poison : Bool) : s.changes lineParts (s.writeRegion a bs poison) := by
  unfold State.writeRegion
  refine State.changes_foldl (fun s pb => ?_) _ s
  split
  · exact s.writeLine_changes _ _ _ _ _ _ _
  · exact s.changes_refl _

theorem State.writeWords_changes (s : State) (a : Nat) (ws : List Word) : s.changes lineParts (s.writeWords a ws) :=
  s.writeRegion_changes _ _ _

theorem State.shadow_changes (s : State) (o v : Nat) : s.changes lineParts (s.shadow o v) := s.writeWords_changes _ _

/-! ### Rings and vectors -/

theorem State.vecSignal_changes (s : State) (v : Nat) : s.changes [.regs, .out] (s.vecSignal v) := by
  unfold State.vecSignal
  simp only
  split
  · exact State.changes_mono (s.setReg_changes _ _) (by simp)
  · exact State.changes_trans (State.changes_mono (s.emit_changes _) (by simp)) (State.changes_mono (State.bump_changes _ _ _ _) (by simp))

theorem State.ringSignal_changes (s : State) (r : RingId) : s.changes [.regs, .fw, .out] (s.ringSignal r) := by
  unfold State.ringSignal
  simp only
  split
  · exact State.changes_trans (State.changes_mono (s.withFw_changes _) (by simp)) (State.changes_mono (State.vecSignal_changes _ _) (by simp))
  · exact State.changes_mono (s.withFw_changes _) (by simp)

/-- Firmware's table-fetch slots are its own record. -/
theorem State.useFwSlots_changes (s : State) (a n : Nat) : s.changes [.fw] (s.useFwSlots a n) := by
  unfold State.useFwSlots
  refine State.changes_foldl (fun s i => ?_) _ s
  split
  · exact s.withFw_changes _
  · exact s.changes_refl _

/-- An entry put into a ring touches registers, ring memory, firmware's queues and the signals alone. -/
theorem State.ringPut_changes (s : State) (r : RingId) (ws : List Word) : s.changes postParts (s.ringPut r ws) := by
  unfold State.ringPut
  simp only
  refine State.changes_trans (State.changes_trans (State.changes_trans (State.changes_trans (State.changes_mono (s.useFwSlots_changes _ _) ?_)
    (State.changes_mono (State.writeWords_changes _ _ _) ?_)) (State.changes_mono (State.setFld_changes _ _ _ _ _) ?_)) (State.changes_mono (State.shadow_changes _ _ _) ?_))
    (State.changes_mono (State.ringSignal_changes _ _) ?_) <;> simp [postParts, lineParts]

theorem State.putCpl_changes (s : State) (i : Fin 4) (c : Cpl) : s.changes postParts (s.putCpl i c) := by
  unfold State.putCpl
  simp only
  split
  · exact s.ringPut_changes _ _
  · exact State.changes_trans (s.ringPut_changes _ _) (State.changes_mono (State.bump_changes _ _ _ _) (by simp [postParts, lineParts]))

/-- A completion, posted or held, touches nothing else. -/
theorem State.postCpl_changes (s : State) (i : Fin 4) (c : Cpl) : s.changes postParts (s.postCpl i c) := by
  have hf : ∀ (t : State) (f : Fw), t.changes postParts { t with fw := f } := fun t f => State.changes_mono (t.withFw_changes f) (by simp [postParts, lineParts])
  have hb : ∀ (t : State) (b : Blk) (i c n : Nat), t.changes postParts (t.bumpN b i c n) :=
    fun t b i c n => State.changes_mono (t.bumpN_changes b i c n) (by simp [postParts, lineParts])
  unfold State.postCpl
  simp only
  split
  · exact State.changes_trans (State.changes_trans (hf s _) (hb _ _ _ _ _)) (State.putCpl_changes _ _ _)
  · exact State.changes_trans (State.changes_trans (State.changes_trans (hf s _) (hb _ _ _ _ _)) (hf _ _)) (hb _ _ _ _ _)

theorem State.endCmd_changes (s : State) (op : Nat) (e : Entry) (status : Nat) (r1 : Word) (reason : Nat) :
    s.changes postParts (s.endCmd op e status r1 reason) := s.postCpl_changes _ _

theorem State.refuse_changes (s : State) (op : Nat) (e : Entry) (retry : Nat) : s.changes postParts (s.refuse op e retry) := s.postCpl_changes _ _

theorem State.journal_changes (s : State) (op : Nat) (e : Entry) (obj : Obj) (wait : Wait) (r1 : Word) :
    s.changes [.fw] (s.journal op e obj wait r1) := s.withFw_changes _

theorem State.finish_changes (s : State) (j : Journal) (status : Nat) (r1 : Word) : s.changes postParts (s.finish j status r1) :=
  State.changes_trans (State.changes_mono (s.withFw_changes _) (by simp [postParts, lineParts])) (State.postCpl_changes _ _ _)

theorem State.finishAll_changes (s : State) (p : Journal → Bool) (status : Nat) : s.changes postParts (s.finishAll p status) :=
  State.changes_foldl (fun s j => s.finish_changes j _ _) _ s

/-! ### Events -/

theorem State.withSignalled_changes (s : State) (l : List Nat) : s.changes [.signalled] { s with signalled := l } := fun p hp => by
  cases p <;> first | rfl | exact absurd (by simp) hp

theorem State.dropEvent_changes (s : State) : s.changes [.signalled, .regs, .fw, .out] s.dropEvent := by
  have h1 : ∀ t : State, t.changes [.signalled, .regs, .fw, .out] (t.bump .fwc 0 0x128) := fun t => State.changes_mono (t.bump_changes _ _ _) (by simp)
  have h2 : ∀ (t : State) (f : Fw), t.changes [.signalled, .regs, .fw, .out] { t with fw := f } := fun t f => State.changes_mono (t.withFw_changes f) (by simp)
  have h3 : ∀ (t : State) (o : Nat) (w : Word), t.changes [.signalled, .regs, .fw, .out] (t.setReg o w) :=
    fun t o w => State.changes_mono (t.setReg_changes o w) (by simp)
  have h4 : ∀ (t : State) (l : List Nat), t.changes [.signalled, .regs, .fw, .out] { t with signalled := l } :=
    fun t l => State.changes_mono (t.withSignalled_changes l) (by simp)
  have h5 : ∀ (t : State) (v : Nat), t.changes [.signalled, .regs, .fw, .out] (t.vecSignal v) :=
    fun t v => State.changes_mono (t.vecSignal_changes v) (by simp)
  unfold State.dropEvent
  simp only
  split
  · exact State.changes_trans (State.changes_trans (State.changes_trans (State.changes_trans (h1 s) (h2 _ _)) (h3 _ _ _)) (h4 _ _)) (h5 _ _)
  · exact State.changes_trans (State.changes_trans (h1 s) (h2 _ _)) (h3 _ _ _)

/-- An event, posted, held or dropped, touches nothing but the parts of raising one. -/
theorem State.postEvent_changes (s : State) (e : EventRec) : s.changes raiseParts (s.postEvent e) := by
  unfold State.postEvent State.postEventAt
  split_ifs
  · exact State.changes_trans (State.changes_mono (s.ringPut_changes _ _) (by simp [raiseParts]))
      (State.changes_mono (State.bump_changes _ _ _ _) (by simp [raiseParts, postParts, lineParts]))
  · exact State.changes_mono (s.withFw_changes _) (by simp [raiseParts, postParts, lineParts])
  · exact State.changes_mono s.dropEvent_changes (by simp [raiseParts, postParts, lineParts])

/-- A vector and an event under conditions of their own. -/
theorem State.signalBoth_changes (u : State) (c d : Bool) (v : Nat) (e : State → EventRec) :
    u.changes raiseParts (if d then (if c then u.vecSignal v else u).postEvent (e (if c then u.vecSignal v else u)) else if c then u.vecSignal v else u) := by
  have h : u.changes raiseParts (if c then u.vecSignal v else u) :=
    State.changes_ite (State.changes_mono (u.vecSignal_changes v) (by simp [raiseParts, postParts, lineParts])) (u.changes_refl _)
  exact State.changes_ite (State.changes_trans h (State.postEvent_changes _ _)) h

theorem State.signalPage_changes (s : State) (b : Blk) (i : Nat) : s.changes raiseParts (s.signalPage b i) := by
  unfold State.signalPage
  refine State.changes_ite (s.changes_refl _) ?_
  exact State.changes_trans (t := { s with signalled := b.base i / 4096 :: s.signalled })
    (State.changes_mono (s.withSignalled_changes _) (by simp [raiseParts]))
    (State.signalBoth_changes { s with signalled := b.base i / 4096 :: s.signalled } _ _ _ (fun s =>
      ⟨BitVec.ofNat 8 b.code, BitVec.ofNat 8 i, 0x00FF, s.reg (rOff b i 0x20), s.reg (rOff b i 0x40)⟩))

/-- Raising an event bit. -/
theorem State.raise_changes (s : State) (b : Blk) (i k : Nat) : s.changes raiseParts (s.raise b i k) := by
  have h : ∀ (o : Nat) (w : Word), s.changes raiseParts (s.setReg o w) :=
    fun o w => State.changes_mono (s.setReg_changes o w) (by simp [raiseParts, postParts, lineParts])
  unfold State.raise
  simp only
  split_ifs
  · exact State.changes_trans (h _ _) (State.signalPage_changes _ _ _)
  · exact h _ _

theorem State.error_changes (s : State) (b : Blk) (i : Nat) (e : ErrInfo) : s.changes (.fresh :: raiseParts) (s.error b i e) := by
  have h : ∀ t : State, t.changes (.fresh :: raiseParts) ((t.capture b i e).raise b i e.evtBit) := fun t =>
    State.changes_trans (State.changes_mono (t.capture_changes b i e) (by simp [raiseParts, postParts, lineParts])) (State.changes_mono (State.raise_changes _ _ _ _) (by simp))
  unfold State.error
  simp only
  split_ifs
  · exact h s
  · exact State.changes_trans (State.changes_mono (s.bump_changes _ _ _) (by simp [raiseParts, postParts, lineParts])) (h _)

end Sys2Proof.Machine
end

