-- ==== Sys2Proof/Laws/Regions.lean ====
section
/-! SUPPORT. The host and control regions: which addresses lie there, and where a page of the control window lies in HBM. -/

namespace Sys2Proof.Machine

variable (s : State)

/-! ### Low addresses and page-aligned ranges -/

/-- An address below every window is in no region. -/
theorem State.regionPhys_low {a : Nat} (h : a < 0x80000000) : s.regionPhys a = none := by
  unfold State.regionPhys State.win
  simp only
  rw [if_neg (by omega), if_neg (by omega), if_neg (by omega), if_neg (by omega), if_neg (by omega)]

/-- A page of the control window lies in one piece. -/
theorem State.win_ctl_page {a o i : Nat} (h : s.win a = .ctl o) (ho : o % 4096 = 0) (hi : i < 4096) : s.win (a + i) = .ctl (o + i) := by
  unfold State.win at h ⊢
  generalize s.fld (rOff .ext 0 0x300) 15 0 = low at *
  generalize s.fld (rOff .ext 0 0x300) 31 16 = high at *
  simp only at h ⊢
  by_cases h1 : 0x80000000 ≤ a ∧ a < 0x80000000 + low * 2 ^ 30
  · rw [if_pos h1] at h; exact absurd h (by simp)
  rw [if_neg h1] at h
  by_cases h2 : 0x1000000000 ≤ a ∧ a < 0x1001000000
  · rw [if_pos h2] at h; exact absurd h (by simp)
  rw [if_neg h2] at h
  by_cases h3 : 0x1100000000 ≤ a ∧ a < 0x1100000000 + high * 2 ^ 30
  · rw [if_pos h3] at h; exact absurd h (by simp)
  rw [if_neg h3] at h
  by_cases h4 : 0x10000000000 ≤ a ∧ a < 0x10200000000
  swap
  · rw [if_neg h4] at h
    by_cases h5 : 0x400000000000 ≤ a ∧ a < 0x800000000000
    · rw [if_pos h5] at h; exact absurd h (by simp)
    · rw [if_neg h5] at h; exact absurd h (by simp)
  rw [if_pos h4] at h
  have h' : a - 0x10000000000 = o := Win.ctl.inj h
  have g1 : ¬(0x80000000 ≤ a + i ∧ a + i < 0x80000000 + low * 2 ^ 30) := by omega
  have g2 : ¬(0x1000000000 ≤ a + i ∧ a + i < 0x1001000000) := by omega
  have g3 : ¬(0x1100000000 ≤ a + i ∧ a + i < 0x1100000000 + high * 2 ^ 30) := by omega
  have g4 : 0x10000000000 ≤ a + i ∧ a + i < 0x10200000000 := by omega
  rw [if_neg g1, if_neg g2, if_neg g3, if_pos g4]
  rw [Nat.sub_add_comm h4.1, h']

theorem State.regionPhys_ctl_page {a o i : Nat} (h : s.win a = .ctl o) (ho : o % 4096 = 0) (hi : i < 4096) :
    s.regionPhys (a + i) = some (s.ctlPhys o + i) := by
  unfold State.regionPhys
  rw [s.win_ctl_page h ho hi]
  simp only [Option.some.injEq]
  unfold State.ctlPhys
  have h1 : (o + i) / 4096 = o / 4096 := by omega
  have h2 : (o + i) % 4096 = i := by omega
  simp only [h1, h2, ho]
  omega

/-- A range within a page of the control window is there. -/
theorem State.placed_ctl_page {a o n : Nat} (h : s.win a = .ctl o) (ho : o % 4096 = 0) (hn : n ≤ 4096) : s.placed a n := by
  intro i hi
  rw [s.regionPhys_ctl_page h ho (by omega)]; simp

/-- Ranges within two pages of the control window that lie in different places share no byte. -/
theorem State.apart_ctl_pages {a o n b q m : Nat} (ha : s.win a = .ctl o) (ho : o % 4096 = 0) (hn : n ≤ 4096) (hb : s.win b = .ctl q)
    (hq : q % 4096 = 0) (hm : m ≤ 4096) (h : s.ctlPhys o + n ≤ s.ctlPhys q ∨ s.ctlPhys q + m ≤ s.ctlPhys o) : s.apart a n b m := by
  intro i hi j hj
  rw [s.regionPhys_ctl_page ha ho (by omega), s.regionPhys_ctl_page hb hq (by omega)]
  simp only [ne_eq, Option.some.injEq]
  omega

/-- A range inside a page of the control window is there. -/
theorem State.placed_ctl_in {a o i n : Nat} (h : s.win a = .ctl o) (ho : o % 4096 = 0) (hn : i + n ≤ 4096) : s.placed (a + i) n := by
  intro j hj
  rw [Nat.add_assoc, s.regionPhys_ctl_page h ho (by omega)]; simp

/-- Ranges inside two pages of the control window that lie in different places share no byte. -/
theorem State.apart_ctl_in {a o i n b q j m : Nat} (ha : s.win a = .ctl o) (ho : o % 4096 = 0) (hn : i + n ≤ 4096) (hb : s.win b = .ctl q)
    (hq : q % 4096 = 0) (hm : j + m ≤ 4096) (h : s.ctlPhys o + 4096 ≤ s.ctlPhys q ∨ s.ctlPhys q + 4096 ≤ s.ctlPhys o) :
    s.apart (a + i) n (b + j) m := by
  intro x hx y hy
  rw [Nat.add_assoc, Nat.add_assoc, s.regionPhys_ctl_page ha ho (by omega), s.regionPhys_ctl_page hb hq (by omega)]
  simp only [ne_eq, Option.some.injEq]
  omega

/-- A range that is there shares no byte with one below every window. -/
theorem State.apart_low {a n b m : Nat} (h : s.placed a n) (hb : b + m ≤ 0x80000000) : s.apart a n b m := by
  intro i hi j hj
  rw [s.regionPhys_low (a := b + j) (by omega)]
  exact h i hi

end Sys2Proof.Machine
end

