-- ==== Sys2Proof/Tests/Slice0.lean ====
section
/-! SUPPORT. Tests: ill-formed commands that the checks refuse, single commands on small states with results taken from the spec's rules, and for
every statement with hypotheses a witness: concrete states and operands that meet them, clause by clause. -/

namespace Sys2Proof.Machine.Tests

set_option Elab.async false

/-! ### Small states -/

/-- A state with the listed registers written. -/
def regs (s : State) (l : List (Nat × Word)) : State := l.foldl (fun s x => s.setReg x.1 x.2) s

/-- Tick 1000 with the rails up, variant 1 with every feature, an active tenant of epoch 1. -/
def lic : State :=
  regs { State.reset with tim := { State.reset.tim with tick := 1000, netTime := 2000000 }, pins := { State.reset.pins with mainPg := true } }
    [(0x1200, 0x3E1), (0x5200, 0x100000002)]

/-- An entry of ring 0 with all words 0 and tag 7. -/
def ent : Entry := ⟨0, 0, 0, 7, 0, 0, 0, 0, 0, 0, 0⟩

/-- An entry with words 1 to 4 given. -/
def entW (arg : BitVec 16) (w1 w2 w3 w4 : Word) : Entry := ⟨0, 0, arg, 7, w1, w2, w3, w4, 0, 0, 0⟩

/-! ### Ill-formed commands (one for each check) -/

/-- A link block of a type with body byte 0 given. -/
def blk (type : BitVec 4) (first : Byte) (n : Nat) : Block := ⟨0, 0, 0, false, type, 0, 0, 0, first :: List.replicate n 0⟩

/-- A start that finds nothing wrong. -/
def startEnv : StartEnv := ⟨[], false, [], [], [], true, true, some 5000, List.replicate 24 40, [], 100⟩

theorem test_wf_log_args : (Instr.logRecord ⟨0, 0, 0, 0, 0, List.replicate 6 0⟩).wf = false := by decide +kernel
theorem test_wf_log_severity : (Instr.logRecord ⟨6, 0, 0, 0, 0, []⟩).wf = false := by decide +kernel
theorem test_wf_boundary : (Instr.tickBoundary ⟨54000, 0, [⟨24 * 2 ^ 28, [], 1, false, 0, false, 0⟩], [], [], [], []⟩).wf = false := by decide +kernel
theorem test_wf_sample : (Instr.thermalSample ⟨[0, 0, 0], List.replicate 24 0, List.replicate 16 0, 0⟩).wf = false ∧
    (Instr.thermalSample ⟨[0, 0, 0, 0], List.replicate 23 0, List.replicate 16 0, 0⟩).wf = false ∧
    (Instr.thermalSample ⟨[0, 0, 0, 0], List.replicate 24 0, List.replicate 15 0, 0⟩).wf = false := by decide +kernel
theorem test_wf_start : (Instr.coldStart { startEnv with stackTempC := [] }).wf = false ∧
    (Instr.warmStart 0 { startEnv with stackTempC := List.replicate 25 40 }).wf = false ∧
    (Instr.coldStart { startEnv with eyes := [(0, ⟨0, false, 0xF⟩)] }).wf = true := by decide +kernel
theorem test_wf_host_write : (Instr.write256 0 (List.replicate 255 0) false).wf = false ∧ (Instr.write64 0 (List.replicate 65 0) false).wf = false := by
  decide +kernel
theorem test_wf_data_block : (Instr.dataBlock 0 (blk 1 0 248) 0).wf = false ∧ (Instr.dataBlock 0 (blk 0 0 247) 0).wf = false := by decide +kernel
theorem test_wf_idle_block : (Instr.idleBlock 0 { blk 0 0 247 with sop := true } 0).wf = false ∧ (Instr.nak 0 { blk 2 0 247 with poison := 1 } 0).wf = false ∧
    (Instr.nak 0 { blk 2 0 247 with vc := 1 } 0).wf = false := by decide +kernel
theorem test_wf_crc_block : (Instr.blockCrcFail 0 (blk 1 0 246) false).wf = false := by decide +kernel
theorem test_wf_ctl : (Instr.linkId 0 (blk 3 2 247)).wf = false ∧ (Instr.rttProbe 0 (blk 3 1 247)).wf = false ∧ (Instr.rttReply 0 (blk 3 1 247) 0).wf = false ∧
    (Instr.initDone 0 (blk 3 1 247)).wf = false ∧ (Instr.retrainReq 0 (blk 3 1 247)).wf = false ∧ (Instr.follow 0 (blk 3 1 247)).wf = false := by decide +kernel
theorem test_wf_undefined : (Instr.undefinedBlock 0 (blk 3 0x10 247)).wf = false ∧ (Instr.undefinedBlock 0 (blk 2 0 247)).wf = false ∧
    (Instr.undefinedBlock 0 (blk 3 0x05 247)).wf = true := by decide +kernel
theorem test_wf_parcels : (Instr.backgroundFetchFill (2 ^ 25) 0).wf = false ∧ (Instr.sectorRebuild (2 ^ 25) 0 false).wf = false ∧
    (Instr.relocate (2 ^ 25) 0).wf = false := by decide +kernel
theorem test_wf_host_read : (Instr.hostRead 0x1000 0).wf = false ∧ (Instr.hostRead 0x1000 257).wf = false ∧ (Instr.hostRead 0x1000 4).wf = true := by decide +kernel

/-! ### Places in the control window -/

/-- A range inside one page of the control window is there. -/
theorem inCtl {s : State} {a n : Nat} (p i o : Nat) (h : a = p + i) (hw : s.win p = .ctl o) (ho : o % 4096 = 0) (hn : i + n ≤ 4096) : s.placed a n := by
  subst h; exact s.placed_ctl_in hw ho hn

/-- Such a range is apart from anything below every window. -/
theorem offLow {s : State} {a n b m : Nat} (p i o : Nat) (h : a = p + i) (hw : s.win p = .ctl o) (ho : o % 4096 = 0) (hn : i + n ≤ 4096)
    (hb : b + m ≤ 0x80000000) : s.apart a n b m := s.apart_low (inCtl p i o h hw ho hn) hb

/-- Such ranges of two pages in different places are apart. -/
theorem inPages {s : State} {a n b m : Nat} (p i o q j r : Nat) (ha : a = p + i) (hb : b = q + j) (hp : s.win p = .ctl o) (ho : o % 4096 = 0)
    (hn : i + n ≤ 4096) (hq : s.win q = .ctl r) (hr : r % 4096 = 0) (hm : j + m ≤ 4096)
    (h : s.ctlPhys o + 4096 ≤ s.ctlPhys r ∨ s.ctlPhys r + 4096 ≤ s.ctlPhys o) : s.apart a n b m := by
  subst ha; subst hb; exact s.apart_ctl_in hp ho hn hq hr hm h

/-- `lic` with a host region of 2 GiB below and 1 GiB above 4 GiB. -/
def licH : State := regs lic [(0x7300, 0x10002)]

/-- `lic` with the tables' banks in pages of the control window: CTXT 0x20000 and 0x820000, EXTT 0x2000000 and 0x3000000, PKT 0x4000000 and 0xC000000, RTT
0x14000000 and 0x14800000, DOMT 0x15000000 and 0x15100000, PRGT 0x15200000 and 0x15240000, TFT 0x15300000 and 0x15700000, SLT 0x15B00000 and 0x15B20000. -/
def licT : State := regs licH
  [(0x7310, 0x2000000), (0x7200, 0x10000020000), (0x7208, 0x10000820000), (0x7220, 0x10002000000), (0x7228, 0x10003000000), (0x7240, 0x10004000000), (0x7248, 0x1000C000000),
   (0x7260, 0x10014000000), (0x7268, 0x10014800000), (0x7280, 0x10015000000), (0x7288, 0x10015100000), (0x72A0, 0x10015200000), (0x72A8, 0x10015240000),
   (0x72C0, 0x10015300000), (0x72C8, 0x10015700000), (0x72E0, 0x10015B00000), (0x72E8, 0x10015B20000)]

/-- An entry written into both banks of a table. -/
def entry (s : State) (t : Table) (i : Nat) (ws : List Word) : State := (s.writeWords (s.entryAddr t false i) ws).writeWords (s.entryAddr t true i) ws

/-! ### Witnesses: the queue and the common checks -/

theorem witness_StepRunsTheFrontCommand : ({ lic with pending := [.hostResetReq, .demandReport] } : State).pending = .hostResetReq :: [.demandReport] := rfl

theorem witness_CommandsLeaveTheQueue :
    step { State.reset with pending := [.trainRetry 0, .demandReport] } = .next { State.reset with pending := [.demandReport] } ∧
    exec (.trainRetry 31) State.reset = .next State.reset := ⟨rfl, rfl⟩

theorem witness_WellFormedCommandsComplete : (Instr.write256 0 (List.replicate 256 0) false).wf = true ∧ (Instr.logRecord ⟨5, 0, 0, 0, 7, [0, 0, 0, 0, 0]⟩).wf = true := by
  decide +kernel

/-- An earlier command of ring 1 that holds an object until its tick of effect 1003. -/
def holding (o : Obj) : State := { lic with fw := { lic.fw with journal := [⟨1, 9, 0x24, 1000, o, .tick 1003, 0, 0⟩] } }

theorem witness_CommonChecksRefuseCommands :
    (State.reset.variant = 0 ∧ (0x10 : Nat) ≠ 0 ∧ isQuery 0x10 = false) ∧ (lic.variant ≠ 0 ∧ ({ ent with w7 := 1 } : Entry).w7 ≠ 0) ∧
    ((holding (.ctx 65535)).busyTick (.ctx (entW 65535 0 0 0 0).arg.toNat) = some 1003 ∧ (entW 65535 0 0 0 0).rsvOk 0xFFFF 0 0 0 0 0 0 0 = true) ∧
    ((holding (.ext 0x3FFFF)).busyTick (.ext (entW 0 0x3FFFF 0 0 0).ext) = some 1003 ∧ (entW 0 0x3FFFF 0 0 0).onlyExt = true) ∧
    ((holding (.dom 4095)).busyTick (.dom (bits (0xFFF : Word) 11 0)) = some 1003 ∧ (entW 0 0xFFF 0 0 0).rsvOk 0 (mask 11 0) 0 0 0 0 0 0 = true) ∧
    ((holding (.port 31)).busyTick (.port (bits (0xFF071F : Word) 4 0)) = some 1003 ∧
      (entW 0 0xFF071F 0 0 0).rsvOk 0 (mask 4 0 ||| mask 10 8 ||| mask 23 16) 0 0 0 0 0 0 = true) := by decide +kernel
/-- Completion ring 0 on, 4096 entries, HEAD at the last slot of its first pass, and room. -/
def licC : State := regs licT [(0x9208, 0x2C), (0x9220, 0x10000000000), (0x9228, 4095), (0x9230, 2000)]

theorem witness_NopAndQueriesEndInTheirTick : ent.bare = true ∧
    lic.admitsCommand 0x41 ((entW 0 0x7FF 0 0 0).rsvOk 0 (mask 10 0) 0 0 0 0 0 0) true .none false ∧
    ((entW 0 0xFFFFFFC0 0 0 0).rsvOk 0 (mask 51 6) 0 0 0 0 0 0 = true ∧ licH.hostBuf (bits (0xFFFFFFC0 : Word) 51 6 * 64) 64 = true) ∧
    ((entW 0 0x3FFFF 0x80000000 0 0).rsvOk 0 (mask 17 0) (mask 51 6) 0 0 0 0 0 = true ∧ licH.hostBuf (bits (0x80000000 : Word) 51 6 * 64) 64 = true) ∧
    ((entW 0 0x1FFFFFF 0x113FFFFFC0 0 0).rsvOk 0 (mask 24 0) (mask 51 6) 0 0 0 0 0 = true ∧
      licH.hostBuf (bits (0x113FFFFFC0 : Word) 51 6 * 64) 64 = true) ∧
    (lic.pftOf (bits (0x1FFFFFF : Word) 24 0)).has = false := by
  unfold State.admitsCommand; decide +kernel

theorem witness_CompletionsAreWrittenAtHead :
    licC.cplRoom ent.ring = true ∧ (licC.fw.held.any fun x => decide (x.1 = ent.ring.val)) = false ∧
    licC.placed (licC.fld (RingId.cpl ent.ring).base 51 12 * 4096 + licC.fld (RingId.cpl ent.ring).head 16 0 % licC.ringN (.cpl ent.ring) * 32) 32 ∧
    licC.apart (licC.fld (RingId.cpl ent.ring).base 51 12 * 4096 + licC.fld (RingId.cpl ent.ring).head 16 0 % licC.ringN (.cpl ent.ring) * 32) 32
      (licC.fld 0x8220 51 12 * 4096) 4096 :=
  ⟨by decide +kernel, by decide +kernel, inCtl 0x1000001F000 4064 0x1F000 (by decide +kernel) (by decide +kernel) (by decide) (by decide),
    offLow 0x1000001F000 4064 0x1F000 (by decide +kernel) (by decide +kernel) (by decide) (by decide) (by decide +kernel)⟩

/-- Completion ring 0 full. -/
def licFull : State := regs licC [(0x9228, 4096), (0x9230, 0)]

theorem witness_FullCompletionRingsHoldInOrder :
    (({} : Cpl).accepted = false ∧ licFull.ringFull (.cpl 0) = true ∧
      ∀ h ∈ licFull.fw.held, h.1 = (0 : Fin 4).val → h.2.accepted = true → ¬(h.2.tag = ({} : Cpl).tag ∧ h.2.opcode = ({} : Cpl).opcode)) ∧
    (let s : State := { licC with fw := { licC.fw with held := [(0, {})] } }
     s.fw.held = ((0 : Fin 4).val, {}) :: [] ∧ s.cplRoom 0 = true ∧
       (({ s with fw := { s.fw with held := [] } }.putCpl 0 {}).cplRoom 0 = false ∨ ([] : List (Nat × Cpl)) = [])) ∧
    (let s : State := { regs licC [(0x9228, 4095), (0x9230, 0)] with fw := { licC.fw with held := [(0, {}), (0, {})] } }
     s.fw.held = ((0 : Fin 4).val, {}) :: [(0, {})] ∧ s.cplRoom 0 = true ∧
       (({ s with fw := { s.fw with held := [(0, {})] } }.putCpl 0 {}).cplRoom 0 = false ∨ ([(0, {})] : List (Nat × Cpl)) = [])) := by
  decide +kernel

/-- A context image at 0x80000000: valid, HOST, XLT_MODE 1, CLASS_RIGHTS all, CLIENT 0, with a list of one extent at 0x80000100. -/
def licImg : State :=
  (regs licT [(0x7218, 4)]).writeWords 0x80000000 [0x7, 0, 0, 0, 0xFF0000, 0x0010000080000100, 0, 0, 0, 0, 0, 0, 0, 0, 0, 0]

/-- The image with its list's entry: extent 3, one parcel, VA 0x200000. -/
def licImgL : State := licImg.writeWords 0x80000100 [0x8000000001000003, 0x200000]

theorem witness_ContextsChangeBySwitch :
    (licImgL.tableFree .ctxt ∧
      licImgL.admitsCommand 0x11 ((entW 65535 0 0 0 0).rsvOk 0xFFFF 0 0 0 0 0 0 0) true (.ctx (entW 65535 0 0 0 0).arg.toNat) false) ∧
    (let e := entW 1 0x80000000 0x80000100 0 0
     let s := licImgL
     let c := ctxtOf (s.readWords (bits e.w1 51 4 * 16) 16)
     s.admitsCommand 0x10 (e.rsvOk 0xFFFF (mask 51 4) (mask 51 4) 0 0 0 0 0 && s.hostBuf (bits e.w1 51 4 * 16) 128 &&
       (decide (c.eblCount = 0) || s.hostBuf (bits e.w2 51 4 * 16) (16 * c.eblCount))) true (.ctx e.arg.toNat) true ∧
     bindAccess e.arg.toNat c = false ∧ c.eblCount = 1 ∧ c.eblCount ≤ 256 ∧ eblOk (s.ebl { c with ebl := bits e.w2 51 4 * 16 }) c.xlt = true) ∧
    (let e := entW 1 0x80000000 0x80000200 0 0
     let s := licImgL.writeWords 0x80000200 [0x8000000001000003, 0x100000]
     let c := ctxtOf (s.readWords (bits e.w1 51 4 * 16) 16)
     s.admitsCommand 0x10 (e.rsvOk 0xFFFF (mask 51 4) (mask 51 4) 0 0 0 0 0 && s.hostBuf (bits e.w1 51 4 * 16) 128 &&
       (decide (c.eblCount = 0) || s.hostBuf (bits e.w2 51 4 * 16) (16 * c.eblCount))) true (.ctx e.arg.toNat) true ∧
     bindAccess e.arg.toNat c = false ∧ eblOk (s.ebl { c with ebl := bits e.w2 51 4 * 16 }) c.xlt = false) ∧
    -- the five ways to ACCESS
    (let c := ctxtOf [0x5, 0, 0, 0, 0, 0, 0, 0, 0]; c.host = false ∧ c.xlt ≠ 0) ∧ (ctxtOf [0xF, 0, 0, 0, 0, 0, 0, 0, 0]).xlt = 3 ∧
    (let c := ctxtOf [0x3, 0, 0, 0, 0x800000, 0, 0, 0, 0]; c.may 7 = true ∧ c.xlt = 0) ∧
    (let c := ctxtOf [0x1, 0, 0, 0, 0, 0, 0, 0, 0]; (entW 0 0 0 0 0).arg = 0 ∧ c.host = false) ∧
    bits ((ctxtOf [0x3, 0, 0, 0, 0, 0, 0, 0, 0x7]).sub.headD 0) 2 0 = 7 := by
  unfold State.admitsCommand State.tableFree; decide +kernel
theorem witness_IgnoredSwitchesAndBaseWrites :
    -- the driver asks for RTT while its switch is pending, firmware for EXTT while OLD_FREE is 0
    (mayCtrl .hostDie .rtt = true ∧ bit (0x2 : Word) 1 = true ∧ (regs lic [(0x7278, 0x6)]).switchPending .rtt = true) ∧
    (mayCtrl .firmware .extt = true ∧ (regs lic [(0x7238, 0)]).oldFree .extt = false) ∧
    -- the capture free, and held
    (bit ((regs lic [(0x7278, 0x6)]).reg 0x7040) 0 = false ∧ bit ((regs lic [(0x7278, 0x6), (0x7040, 1)]).reg 0x7040) 0 = true) ∧
    -- the base of the active bank; the other bank with a free table
    (false = (regs lic [(0x7218, 4)]).activeBank .ctxt ∧
      (true ≠ (regs lic [(0x7218, 4)]).activeBank .ctxt ∧
        ¬((regs lic [(0x7218, 4)]).switchPending .ctxt = true ∨ (regs lic [(0x7218, 4)]).oldFree .ctxt = false))) := by
  decide +kernel

/-- Port 31 with a new list to run from the start of tick 1001, 2000 ns each. -/
def licZs : State :=
  { lic with fab := { lic.fab with scheds := [(31, { (lic.sched 31) with next := some {}, z := some 2001999 })] } }

theorem witness_SwitchRequests :
    (mayCtrl .hostDie .slt = true ∧ bit (0x2 : Word) 1 = true ∧ (regs lic [(0x72F8, 4)]).switchPending .slt = false ∧
      (regs lic [(0x72F8, 4)]).oldFree .slt = true) ∧
    (mayCtrl .firmware .ctxt = true ∧ bit (0x2 : Word) 1 = true ∧ (regs lic [(0x7218, 4)]).switchPending .ctxt = false ∧
      (regs lic [(0x7218, 4)]).oldFree .ctxt = true) ∧
    (bit (0x10000 : Word) 1 = false ∧ (regs lic [(0x7218, 6)]).switchPending .ctxt = true ∧ (regs lic [(0x7218, 4)]).switchPending .ctxt = false) ∧
    ((licZs.sched 31).next = some {} ∧ (licZs.sched 31).z = some 2001999 ∧ licZs.switchPending .slt = false ∧ 2001999 < (licZs.tick + 1) * licZs.periodNs) ∧
    (lic.tick + 1) * lic.periodNs ≤ 2002000 := by decide +kernel

/-- A RAW extent (CREATE of extent 5, key 1, 2 parcels, PLACE on stacks 0 and 1 from 1), and the same coherent in domain 0. -/
def creates (coh : Word) : Entry := entW 0 (0x5 ||| coh) 0x100000002 0x81000003 0

/-- A valid entry of domain 0. -/
def licD : State := entry licT .domt 0 [1]

theorem witness_ExtentsAreCreated :
    licD.admitsCommand 0x20 (createWf (creates 0)) ((!bit (creates 0).w1 26 || licD.hasCoh) && (!licD.createAssured (creates 0) || licD.hasAssured))
      (.ext (creates 0).ext) true ∧ (licD.exttNow (creates 0).ext).valid = false ∧ bit (creates 0).w3 31 = true ∧
    licD.taken.createFits (licD.taken.createEntry (creates 0) (bits (creates 0).w3 23 0) (bits (creates 0).w3 28 24) 0) = true ∧
    bit (creates 0).w1 26 = false ∧
    licD.admitsCommand 0x20 (createWf (creates 0x4000000)) ((!bit (creates 0x4000000).w1 26 || licD.hasCoh) &&
      (!licD.createAssured (creates 0x4000000) || licD.hasAssured)) (.ext (creates 0x4000000).ext) true ∧
    licD.taken.createFits (licD.taken.createEntry (creates 0x4000000) (bits (creates 0x4000000).w3 23 0) (bits (creates 0x4000000).w3 28 24) 0) = true ∧
    bit (creates 0x4000000).w1 26 = true ∧
    (domtOf (licD.entryMem .domt (licD.activeBank .domt) (bits (creates 0x4000000).w1 38 27))).valid = true := by
  unfold State.admitsCommand; decide +kernel
/-- A RAW extent of 2 parcels on stack 0, active. -/
def ex : Extt := ⟨true, 0, false, false, false, 0, 0, 0, 0, 2, 2, 0, 0, 0, 0, 0, 1, 0⟩

/-- `licT` with extent 0x3FFFF, the last, as given. -/
def withX (x : Extt) : State := entry licT .extt 0x3FFFF x.words

/-- W1 of a command on extent 0x3FFFF, W2 to W4 given. -/
def onX (w2 w3 w4 : Word) : Entry := entW 0 0x3FFFF w2 w3 w4

theorem placedX {s : State} (h : s.entryAddr .extt false 0x3FFFF = 0x10002FFF000 + 0xFC0 ∧ s.entryAddr .extt true 0x3FFFF = 0x10003FFF000 + 0xFC0 ∧
    s.win 0x10002FFF000 = .ctl 0x2FFF000 ∧ s.win 0x10003FFF000 = .ctl 0x3FFF000 ∧
    (s.ctlPhys 0x2FFF000 + 4096 ≤ s.ctlPhys 0x3FFF000 ∨ s.ctlPhys 0x3FFF000 + 4096 ≤ s.ctlPhys 0x2FFF000)) : s.entryPlaced .extt 0x3FFFF :=
  ⟨inCtl _ _ _ h.1 h.2.2.1 (by decide) (by decide), inCtl _ _ _ h.2.1 h.2.2.2.1 (by decide) (by decide),
    inPages _ _ _ _ _ _ h.1 h.2.1 h.2.2.1 (by decide) (by decide) h.2.2.2.1 (by decide) (by decide) h.2.2.2.2⟩

theorem witness_RevocationsBeginADrain :
    ((withX ex).admitsCommand 0x24 (onX 0 0 0).onlyExt true (.ext (onX 0 0 0).ext) false ∧ ((withX ex).exttNow (onX 0 0 0).ext).valid = true ∧
      ((withX ex).exttNow (onX 0 0 0).ext).revoked = false ∧ ((withX ex).exttNow (onX 0 0 0).ext).coherent = false) ∧
    (withX ex).entryPlaced .extt 0x3FFFF ∧
    (let s : State := { withX { ex with coherent := true } with coh := { (withX ex).coh with doms := [(0, { st := .quiet })] } }
     (s.exttNow (onX 0 0 0).ext).coherent = true ∧ (s.dom (s.exttNow (onX 0 0 0).ext).domain).st = .quiet) := by
  refine ⟨?_, placedX (by decide +kernel), by decide +kernel⟩
  unfold State.admitsCommand; decide +kernel

/-- Extent 0x3FFFF pinned. -/
def pinX : Extt := { ex with pinned := true }

theorem witness_ShrinksAndUnpinsDrain :
    ((withX pinX).exttNow (onX 0 0 0).ext).valid = true ∧ ((withX pinX).exttNow (onX 0 0 0).ext).revoked = false ∧
    ((withX pinX).admitsCommand 0x21 ((onX 1 0 0).rsvOk 0 0x3FFFF 0xFFFFFF 0 0 0 0 0 && decide (bits (onX 1 0 0).w2 23 0 < 0x800000)) true
        (.ext (onX 1 0 0).ext) true ∧ parcelCount (bits (onX 1 0 0).w2 23 0) < ((withX pinX).exttNow (onX 1 0 0).ext).parcels ∧
      ((withX pinX).tier.drains.any fun j => decide (j.ext = (onX 1 0 0).ext ∧ j.kind = .shrink)) = false ∧
      ((withX pinX).exttNow (onX 1 0 0).ext).coherent = false) ∧
    ((withX pinX).admitsCommand 0x23 (onX 0 0 0).onlyExt (withX pinX).hasFlash (.ext (onX 0 0 0).ext) false ∧
      ((withX pinX).exttNow (onX 0 0 0).ext).pinned = true ∧ (withX pinX).pinPending (onX 0 0 0).ext = false) ∧
    (withX pinX).entryPlaced .extt 0x3FFFF := by
  refine ⟨by decide +kernel, by decide +kernel, ?_, ?_, placedX (by decide +kernel)⟩ <;> · unfold State.admitsCommand; decide +kernel

/-- Extent 0x3FFFF revoked, its two parcels 0 and 1 allocated; `done`: its drain is over. -/
def revX (done : Bool) : State :=
  let s := withX { ex with state := 1, revoke := 900 }
  { s with tier := { s.tier with parcels := [(0, ⟨0x3FFFF, 0, true⟩), (1, ⟨0x3FFFF, 1, true⟩)], revDrained := if done then [0x3FFFF] else [],
                                 drains := if done then [] else [{ ext := 0x3FFFF, kind := .revoke, b := 900, due := some 1100 }] } }

theorem witness_PinsAndDestroys :
    ((withX ex).admitsCommand 0x22 (onX 0 0 0).onlyExt true (.ext (onX 0 0 0).ext) true ∧ ((withX ex).exttNow (onX 0 0 0).ext).valid = true ∧
      ((withX ex).exttNow (onX 0 0 0).ext).revoked = false ∧ (withX ex).pinPending (onX 0 0 0).ext = false ∧
      (withX ex).taken.pinFits (onX 0 0 0).ext = true) ∧
    ((revX true).admitsCommand 0x25 (onX 0 0 0).onlyExt true (.ext (onX 0 0 0).ext) false ∧ ((revX true).exttNow (onX 0 0 0).ext).valid = true ∧
      ((revX true).exttNow (onX 0 0 0).ext).revoked = true ∧ (onX 0 0 0).ext ∈ (revX true).tier.revDrained) ∧
    ((onX 0 0 0).ext ∉ (revX false).tier.revDrained ∧
      (revX false).tier.drains.find? (fun j => decide (j.ext = (onX 0 0 0).ext ∧ j.kind = .revoke)) =
        some { ext := 0x3FFFF, kind := .revoke, b := 900, due := some 1100 }) := by
  unfold State.admitsCommand; decide +kernel

/-- An update descriptor for extent 0x3FFFF as FP32 rows of 64 elements in 1 line. -/
def updX : Extt := { ex with format := 1, rowElems := 64, rowLines := 1 }

theorem witness_ExtentsUpdateOrRefuse :
    (let e := onX 0 0 0
     let s := withX updX
     s.admitsCommand 0x26 (e.rsvOk 0 0x3FFFF (place 3 0 15 ||| place 49 8 (2 ^ 42 - 1)) (~~~0) 0xFFFF 0 0 0) true (.ext e.ext) true ∧
      (s.exttNow e.ext).valid = true ∧ (s.exttNow e.ext).revoked = false ∧
      s.updFits e.ext (s.exttNow e.ext) (updDesc e.w2 e.w3 (bits e.w4 15 0)) = true ∧ (updDesc e.w2 e.w3 (bits e.w4 15 0)).usesComp = false) ∧
    (withX updX).entryPlaced .extt 0x3FFFF ∧
    (let e := onX 5 0 0
     let s := withX ex
     e.rsvOk 0 0x3FFFF (place 3 0 15 ||| place 49 8 (2 ^ 42 - 1)) (~~~0) 0xFFFF 0 0 0 = true ∧
      s.updFits e.ext (s.exttNow e.ext) (updDesc e.w2 e.w3 (bits e.w4 15 0)) = false) ∧
    (licT.variant ≠ 0 ∧ licT.hasFlash = true ∧ licT.tenantActive = true ∧ licT.busyTick (.ext (onX 0 0 0).ext) = none ∧ (onX 0 0 0).onlyExt = true ∧
      (licT.exttNow (onX 0 0 0).ext).valid = false) ∧
    ((revX true).variant ≠ 0 ∧ (revX true).hasFlash = true ∧ (revX true).tenantActive = true ∧ (revX true).busyTick (.ext (onX 0 0 0).ext) = none ∧
      ((revX true).exttNow (onX 0 0 0).ext).valid = true ∧ ((revX true).exttNow (onX 0 0 0).ext).revoked = true) := by
  refine ⟨?_, placedX (by decide +kernel), by decide +kernel⟩
  unfold State.admitsCommand; decide +kernel
/-- DOMT free, domain 0xFFF in a state. -/
def domS (st : DomSt) : State :=
  let s := regs licT [(0x7298, 4)]
  { s with coh := { s.coh with doms := if st = DomSt.unused then [] else [(0xFFF, { st := st })] } }

theorem leNat_zeros (n : Nat) : leNat (List.replicate n (0#8)) = 0 := by
  induction n with
  | zero => rfl
  | succ n ih => rw [List.replicate_succ]; simp only [leNat]; rw [ih]; rfl

/-- An all-zero member list is in order for no member. -/
theorem no_members_ok (m : Nat) : memberListOk (List.replicate m (0#8)) 0 = true := by
  have h : ∀ i, memberOf (List.replicate m (0#8)) i = (false, 0) := by
    intro i
    unfold memberOf
    rw [List.drop_replicate, List.take_replicate, leNat_zeros]; rfl
  unfold memberListOk
  simp only [List.map_congr_left fun i _ => h i, List.take_zero, List.drop_zero, List.all_nil, List.map_nil, List.zip_nil_left, Bool.true_and, Bool.and_true]
  rw [List.all_map]
  exact List.all_eq_true.mpr fun _ _ => rfl

theorem readRegion_empty {s : State} (h : s.hbm = []) (a n : Nat) : s.readRegion a n = List.replicate n (0#8) := by
  unfold State.readRegion
  refine List.eq_replicate_iff.mpr ⟨by rw [List.length_map, List.length_range], fun b hb => ?_⟩
  obtain ⟨i, -, rfl⟩ := List.mem_map.mp hb
  split
  · unfold State.rdB; rw [h]; rfl
  · rfl

theorem witness_DomainsChange :
    memberListOk ((domS .quiet).readRegion (bits (0x80000000 : Word) 51 12 * 4096) 4096) (bits (0 : Word) 10 0) = true ∧
    (domS .unused).tableFree .domt ∧
    (let e := entW 0 0xFFF 100 0 0
     (domS .unused).admitsCommand 0x30 (e.rsvOk 0 (mask 11 0 ||| mask 23 16) (mask 15 0) 0 0 0 0 0) (domS .unused).hasCoh (.dom (bits e.w1 11 0)) true ∧
      ((domS .unused).dom (bits e.w1 11 0)).st = .unused ∧ ((domS .quiet).dom (bits e.w1 11 0)).st ≠ .unused ∧
      (domS .quiet).admitsCommand 0x30 (e.rsvOk 0 (mask 11 0 ||| mask 23 16) (mask 15 0) 0 0 0 0 0) (domS .quiet).hasCoh (.dom (bits e.w1 11 0)) true) ∧
    (let e := entW 0 0xFFF 0x80000000 0 0
     let s := domS .quiet
     s.tableFree .domt ∧
     s.admitsCommand 0x31 (e.rsvOk 0 (mask 11 0) (mask 51 12) (mask 10 0) 0 0 0 0 && decide (bits e.w3 10 0 ≤ 1024) &&
        s.hostBuf (bits e.w2 51 12 * 4096) 4096) s.hasCoh (.dom (bits e.w1 11 0)) true ∧
      (s.dom (bits e.w1 11 0)).st = .quiet ∧
      s.domUnpinned (bits e.w1 11 0) = false) ∧
    (let e := entW 0 0xFFF 0 0 0
     let a := domS .active
     let q := domS .quiet
     q.admitsCommand 0x33 (e.rsvOk 0 (mask 11 0) 0 0 0 0 0 0) true (.dom (bits e.w1 11 0)) false ∧ (q.dom (bits e.w1 11 0)).st = .quiet ∧
      q.domExtents (bits e.w1 11 0) = [] ∧ (q.dom (bits e.w1 11 0)).st ≠ .active ∧
      a.admitsCommand 0x32 (e.rsvOk 0 (mask 11 0) 0 0 0 0 0 0) true (.dom (bits e.w1 11 0)) false ∧ (a.dom (bits e.w1 11 0)).st = .active ∧
      (a.dom (bits e.w1 11 0)).goingDown = none ∧ (a.dom (bits e.w1 11 0)).st ≠ .quiet) := by
  refine ⟨?_, by unfold State.admitsCommand State.tableFree; decide +kernel⟩
  rw [show bits (0 : Word) 10 0 = 0 from rfl, readRegion_empty rfl]; exact no_members_ok _

theorem witness_TableTickAndPolicyCommands :
    (let e := entW 0 2 (0x2000000 - 1) 1 0
     bits e.w1 3 0 = Table.pkt.num ∧ lic.admitsCommand 0x40 (e.rsvOk 0 (mask 3 0) (mask 31 0) (mask 31 0) 0 0 0 0 && decide (1 ≤ bits e.w3 31 0) &&
        decide (bits e.w2 31 0 + bits e.w3 31 0 ≤ Table.pkt.entries)) true .none false) ∧
    (let e := entW 0 32 0 0 0
     lic.admitsCommand 0x42 (e.rsvOk 0 (mask 5 0) 0 0 0 0 0 0 && decide (4 ≤ bits e.w1 5 0 ∧ bits e.w1 5 0 ≤ 32)) true .none false ∧
      lic.anySwitch = false ∧ lic.tim.period = none ∧ (regs lic [(0x7218, 2)]).anySwitch = true) ∧
    -- HDG page 0x200 bits 15 to 8 of every instance; a bit outside; a register that the table does not give
    (let e := entW 0 (place 31 24 0xFF ||| place 23 16 (Blk.code .hdg) ||| place 15 0 0x200) 0x300 0xFF00 0
     e.rsvOk 0 (mask 31 0) (~~~0) (~~~0) 0 0 0 0 = true ∧ lic.variant ≠ 0 ∧
      policyReg (bits e.w1 23 16) (bits e.w1 15 0) = some (.hdg, 0, mask 15 8) ∧ bits e.w1 31 24 = 0xFF ∧ e.w3 &&& ~~~(mask 15 8) = 0 ∧
      (0x1FF00 : Word) &&& ~~~(mask 15 8) ≠ 0) ∧
    (let e := entW 0 (place 31 24 3 ||| place 23 16 (Blk.code .coh) ||| place 15 0 0x200) 0 0 0
     policyReg (bits e.w1 23 16) (bits e.w1 15 0) = some (.coh, 4, mask 15 0) ∧ bits e.w1 31 24 < 4) ∧
    policyReg (Blk.code .hdg) 0x218 = none := by unfold State.admitsCommand; decide +kernel

/-- `lic` with port 31 in a state and every port licensed. -/
def port31 (st : Nat) : State := regs lic [(0x1208, 0xFFFFFFFF), (rOff .lnk 31 0x208, 0), (rOff .lnk 31 0x210, BitVec.ofNat 64 st)]

theorem witness_LinkCommands :
    (let e := entW 0 0xFF001F 0 0 0
     (∀ st ∈ [0, 1, 4], (port31 st).admitsCommand 0x44 (e.rsvOk 0 (mask 4 0 ||| mask 10 8 ||| mask 23 16) 0 0 0 0 0 0) true (.port (bits e.w1 4 0)) false ∧
        bit ((port31 st).reg (rOff .lnk (bits e.w1 4 0) 0x208)) 3 = false ∧ (port31 st).linkState (bits e.w1 4 0) = st) ∧
      (port31 0).portLicensed (bits e.w1 4 0) = true ∧ (regs (port31 0) [(0x1208, 0)]).portLicensed (bits e.w1 4 0) = false) := by
  unfold State.admitsCommand; decide +kernel

/-- An invalidation taken in tick 997 by a ring command. -/
def inv997 : XltInv := { taken := 997, byPage := none, scope := 2, asid := 0, page := 0 }

theorem witness_TranslationInvalidates :
    (let e := entW 0 0xFFFF0002 0x1FFFFFFFFFFF000 0 0
     lic.admitsCommand 0x45 (e.rsvOk 0 (mask 31 16 ||| mask 1 0) (mask 56 12) 0 0 0 0 0 && decide (bits e.w1 1 0 ≠ 3)) true .none false ∧
      lic.xlt.inv = [] ∧ ({ lic with xlt := { lic.xlt with inv := [inv997] } } : State).xlt.inv = [inv997]) ∧
    (lic.blockReset .xlt = false ∧ bit (0x10 : Word) 4 = true ∧ lic.xlt.inv = [] ∧ bits (0x10 : Word) 1 0 ≠ 3 ∧ bits (0x13 : Word) 1 0 = 3 ∧
      bit (0x13 : Word) 4 = true) := by
  unfold State.admitsCommand; decide +kernel

/-- A request bound to bank 1 of every table. -/
def req0 : Req := ⟨1, 0, 0, 0, none, 0, .near, 999, 1007, none, [], 0xFF, 1, [], none, [], [], 0, .read 0 0 0 [] 0 false, false⟩

theorem witness_RequestedChangesTakeEffect :
    (let s := regs lic [(0x7218, place 63 16 1000 ||| 6)]
     s.switchPending .ctxt = true ∧ tle (s.fld 0x7218 63 16) s.tick = true) ∧ lic.switchPending .ctxt = false ∧
    (let s := regs lic [(0x7218, 0)]
     s.oldFree .ctxt = false ∧ s.bankHeld .ctxt = false ∧ (s.fw.deferred.any fun w => decide (w.table = .ctxt)) = false) ∧
    ({ lic with adm := { lic.adm with reqs := [req0] } } : State).bankHeld .ctxt = true ∧
    -- of several invalidations the later is kept, a parcel that is allocated is kept
    (later (⟨.extt, 0, 1, 1001⟩ : Inval).effect lic.tick = true ∧ later (⟨.extt, 0, 1, 1000⟩ : Inval).effect lic.tick = false) ∧
    (let j : PolicyJob := ⟨1000, [0x2200], 5, 0xF⟩
     let s := { lic with fw := { lic.fw with policies := [j] } }
     s.fw.policies = [j] ∧ tle j.effect s.tick = true ∧ j.offsets = [0x2200] ∧ ∀ k ∈ s.fw.journal, k.opcode ≠ 0x43) ∧
    (later (tadd ({ inv997 with taken := 999 } : XltInv).taken 2) lic.tick = true ∧ later (tadd ({ inv997 with taken := 999 } : XltInv).taken 3) lic.tick = true) ∧
    (inv997.dropped = false ∧ tle (tadd inv997.taken 2) lic.tick = true ∧ tle (tadd inv997.taken 3) lic.tick = true ∧ inv997.byPage.getD 0 < 4 ∧
      ({ inv997 with byPage := some 3 } : XltInv).byPage.getD 0 < 4) := by
  decide +kernel

/-- Fault group 4095 of tile 3, GEN 15. -/
def grp : FaultGroup := ⟨3, 4095, 15, 7, 0x200, false, 1, 0, 1, 0, 990, 1, true, none⟩

/-- `lic` with that group. -/
def licG : State := { lic with xlt := { lic.xlt with groups := [grp] } }

theorem witness_GroupsResumeAndAbort :
    (let e := entW 0 0x31FFFF 0 0 0
     licG.admitsCommand 0x46 (e.rsvOk 0 (mask 21 20 ||| mask 16 0) 0 0 0 0 0 0) true .none false ∧
      licG.xlt.groups.find? (fun x => decide (x.tile = bits e.w1 21 20 ∧ x.index = bits e.w1 11 0)) = some grp ∧ grp.gen.toNat = bits e.w1 15 12 ∧
      grp.closing = none) ∧
    (let e := entW 0 0x30EFFF 0 0 0
     licG.admitsCommand 0x46 (e.rsvOk 0 (mask 21 20 ||| mask 16 0) 0 0 0 0 0 0) true .none false ∧
      licG.xlt.groups.find? (fun x => decide (x.tile = bits e.w1 21 20 ∧ x.index = bits e.w1 11 0)) = some grp ∧ grp.gen.toNat ≠ bits e.w1 15 12) ∧
    (licG.blockReset .xlt = false ∧ bit (0x3FFFF : Word) 17 = true ∧
      licG.xlt.groups.find? (fun x => decide (x.tile = (3 : Fin 4).val ∧ x.index = bits (0x3FFFF : Word) 11 0)) = some grp ∧
      grp.gen.toNat = bits (0x3FFFF : Word) 15 12) := by
  unfold State.admitsCommand; decide +kernel

theorem witness_FlushResumeAndReset :
    lic.admitsCommand 0x60 ent.bare lic.hasFlash .none false ∧ lic.draining = false ∧
    ({ lic with rsv := { lic.rsv with drain := some { why := .flush, f0 := 999 } } } : State).draining = true ∧
    lic.admitsCommand 0x61 ent.bare true .none false ∧ lic.creset = none ∧ lic.rsv.flushed = false ∧
    ({ lic with rsv := { lic.rsv with flushed := true } } : State).rsv.flushed = true := by
  unfold State.admitsCommand; decide +kernel

/-- Command ring 3 on with 64 entries, one command waiting at the last slot of its second pass, the others off, all cores live. -/
def licK : State := regs licT [(0x92C8, 0x26), (0x92C0, 0x10000008000), (0x92D0, 0), (0x92D8, 127), (0x8208, 0xFF), (0x8218, 1)]

theorem witness_CommandsAreTakenInTurn :
    (∀ i < 4, lic.canTake i = false) ∧
    (licK.cmdPerTick = licK.fw.cmdUsed + 1 ∧ 3 < 4 ∧ licK.canTake ((licK.tick % 4 + 3) % 4) = true ∧ ∀ j < 3, licK.canTake ((licK.tick % 4 + j) % 4) = false) ∧
    (∀ p ∈ ringRows, ∃ c, rowOf p.1 (entW 0 0 0 0 0) = some c) ∧
    (rowOf 0x01 (entryOf 3 ((entry licK .ctxt 0 []).cmdWords 3)) = none ∧ rowOf 0x44 (entW 0 0x500 0 0 0) = none ∧ (licK.tailMoved 3).variant ≠ 0) := by
  refine ⟨by decide +kernel, by decide +kernel, ?_, by decide +kernel⟩
  intro p hp
  have : (ringRows.all fun p => (rowOf p.1 (entW 0 0 0 0 0)).isSome) = true := by decide +kernel
  exact Option.isSome_iff_exists.mp (List.all_eq_true.mp this p hp)
/-- The event, log and trace rings on, 2^16 entries each, in the control window at 0x10000000, 0x10400000 and 0x11000000, HEAD at the last slot. -/
def licR : State := regs licT
  [(0xA208, 0x30), (0xA200, 0x10010000000), (0xA210, 0xFFFF), (0xA218, 0xFFFF), (0xA248, 0x30), (0xA240, 0x10010400000), (0xA250, 0xFFFF), (0xA258, 0xFFFF),
   (0xA288, 0x30), (0xA280, 0x10011000000), (0xA290, 0xFFFF), (0xA298, 0xFFFF), (0x8228, 3), (0xA300, 1), (0xA378, 0x8000000000000000)]

/-- `licR` without its enables: every ring off. -/
def licOff : State := regs licR [(0xA208, 0x10), (0xA248, 0x10), (0xA288, 0x10)]

theorem slotR : licR.ringOn RingId.evt.cfg = true ∧ licR.ringFull .evt = false ∧ licR.slotPlaced .evt ∧ licR.ringOn RingId.log.cfg = true ∧
    licR.ringFull .log = false ∧ licR.slotPlaced .log ∧ licR.ringOn RingId.trc.cfg = true ∧ licR.ringFull .trc = false ∧ licR.slotPlaced .trc := by
  refine ⟨by decide +kernel, by decide +kernel,
    ⟨inCtl 0x100101FF000 0xFE0 0x101FF000 (by decide +kernel) (by decide +kernel) (by decide) (by decide),
      offLow 0x100101FF000 0xFE0 0x101FF000 (by decide +kernel) (by decide +kernel) (by decide) (by decide) (by decide +kernel)⟩,
    by decide +kernel, by decide +kernel,
    ⟨inCtl 0x100107FF000 0xFC0 0x107FF000 (by decide +kernel) (by decide +kernel) (by decide) (by decide),
      offLow 0x100107FF000 0xFC0 0x107FF000 (by decide +kernel) (by decide +kernel) (by decide) (by decide) (by decide +kernel)⟩,
    by decide +kernel, by decide +kernel,
    ⟨inCtl 0x100111FF000 0xFE0 0x111FF000 (by decide +kernel) (by decide +kernel) (by decide) (by decide),
      offLow 0x100111FF000 0xFE0 0x111FF000 (by decide +kernel) (by decide +kernel) (by decide) (by decide) (by decide +kernel)⟩⟩

theorem witness_EventLogAndTraceRecords :
    ((⟨2, 0, 0, 0, 7, []⟩ : LogRec).wf = true ∧ (2 : BitVec 3).toNat < min 5 (licR.fld 0x8228 2 0) ∧ (⟨3, 0, 0, 0, 7, [1, 2, 3, 4, 5]⟩ : LogRec).wf = true ∧
      min 5 (licR.fld 0x8228 2 0) ≤ (3 : BitVec 3).toNat) ∧
    (licR.ringOn RingId.log.cfg = true ∧ licR.ringFull .log = false ∧ licR.slotPlaced .log) ∧ licOff.ringOn RingId.log.cfg = false ∧
    (regs licR [(0xA250, 0x1FFFF)]).ringFull .log = true ∧
    (bit (licR.reg (0xA300 + (1023 : BitVec 10).toNat / 64 * 8)) ((1023 : BitVec 10).toNat % 64) = true ∧
      bit (licR.reg (0xA300 + (1 : BitVec 10).toNat / 64 * 8)) ((1 : BitVec 10).toNat % 64) = false) ∧
    (licR.fw.trcUsed < 256 ∧ licR.ringOn RingId.trc.cfg = true ∧ licR.ringFull .trc = false ∧ licR.slotPlaced .trc) ∧
    256 ≤ ({ licR with fw := { licR.fw with trcUsed := 256 } } : State).fw.trcUsed := by
  obtain ⟨-, -, -, h4, h5, h6, h7, h8, h9⟩ := slotR
  exact ⟨by decide +kernel, ⟨h4, h5, h6⟩, by decide +kernel, by decide +kernel, by decide +kernel, ⟨by decide +kernel, h7, h8, h9⟩, by decide⟩

/-- The ring area at 0x10012000000, command ring 3 and the event ring on with 64 entries. -/
def licA : State := regs licT [(0x8220, 0x10012000000), (0x92C8, 0x26), (0xA208, 0x26)]

theorem witness_RingPointersAndConfiguration :
    (licA.placed (licA.fld 0x8220 51 12 * 4096 + 0x20 * (3 : Fin 4)) 8 ∧ licA.ringOn (0x9208 + 0x40 * (3 : Fin 4).val) = true ∧
      ringDist (licA.cmdN 3) (bits (64 : Word) 16 0) (licA.fld (cmdTail 3) 16 0) ≤ licA.cmdN 3 ∧
      licA.cmdN 3 < ringDist (licA.cmdN 3) (bits (65 : Word) 16 0) (licA.fld (cmdTail 3) 16 0) ∧ licA.ringOn 0x9208 = false) ∧
    (licA.placed (licA.fld 0x8220 51 12 * 4096 + RingId.evt.shadow + 8) 8 ∧ licA.ringOn RingId.evt.cfg = true ∧
      ringDist (licA.ringN .evt) (licA.fld RingId.evt.head 16 0) (bits (64 : Word) 16 0) ≤ licA.ringN .evt ∧
      licA.ringN .evt < ringDist (licA.ringN .evt) (licA.fld RingId.evt.head 16 0) (bits (1 : Word) 16 0) ∧ licA.ringOn RingId.log.cfg = false) ∧
    (bit (0x26 : Word) 5 = true ∧ bit (0x6 : Word) 5 = false ∧ licA.ringOn (CfgId.pair 0).off = false ∧ licA.ringOn (CfgId.pair 3).off = true) ∧
    (let a := fun (v : Word) => bits v 51 12 * 4096
     let size := ringSize (licA.reg BaseId.log.cfg) BaseId.log.maxLog * BaseId.log.entry
     let area := licA.fld 0x8220 51 12 * 4096
     licA.ringOn BaseId.log.cfg = false ∧ licA.ringOn BaseId.evt.cfg = true ∧
      (area + 4096 ≤ a 0x10012001000 ∧ a 0x10012001000 + size ≤ area + 2 ^ 24 ∧ a 0x10012001000 % size = 0) ∧
      ¬(area + 4096 ≤ a 0x10012000000 ∧ a 0x10012000000 + size ≤ area + 2 ^ 24 ∧ a 0x10012000000 % size = 0)) := by
  refine ⟨⟨inCtl 0x10012000000 0x60 0x12000000 (by decide +kernel) (by decide +kernel) (by decide) (by decide), by decide +kernel⟩,
    ⟨inCtl 0x10012000000 0x88 0x12000000 (by decide +kernel) (by decide +kernel) (by decide) (by decide), by decide +kernel⟩, by decide +kernel, by decide +kernel⟩

/-- An event. -/
def evnt : EventRec := ⟨0x10, 0, 3, 0, 0⟩

theorem witness_EventRecords :
    (licR.ringOn RingId.evt.cfg = true ∧ licR.ringFull .evt = false ∧ licR.taskDown 7 = false ∧ licR.fw.evtHeld = [] ∧ licR.slotPlaced .evt) ∧
    (licOff.ringOn RingId.evt.cfg = false ∧ licOff.fw.evtHeld.length < 1024) ∧
    (let s : State := { licOff with fw := { licOff.fw with evtHeld := List.replicate 1024 (evnt, 990) } }
     s.ringOn RingId.evt.cfg = false ∧ 1024 ≤ s.fw.evtHeld.length) ∧
    (let s : State := { licR with fw := { licR.fw with evtHeld := [(evnt, 990)] } }
     s.ringOn RingId.evt.cfg = true ∧ s.ringFull .evt = false ∧ s.taskDown 7 = false ∧ s.fw.evtHeld = [(evnt, 990)] ∧ s.fw.evtLost = 0) := by
  obtain ⟨h1, h2, h3, -⟩ := slotR
  exact ⟨⟨h1, h2, by decide +kernel, rfl, h3⟩, by decide +kernel, by decide +kernel, by decide +kernel⟩

/-- HEAD's advance: never signalled, the window just past, and within it; masked and not. -/
theorem witness_VectorsAreModerated : licR.slotPlaced .evt ∧
    (let f := fun (last mods : Nat) => decide (last = 0 ∨ later licR.tick (tadd (last - 1) mods) = true)
     [0x0, 0x1, 0x2, 0x3].length = RingId.evt.words ∧ f 0 5 = true ∧ f (994 + 1) 5 = true ∧ f (995 + 1) 5 = false) ∧
    (bit ((regs licR [(rOff .uci 0 0x240, 0)]).reg (rOff .uci 0 0x240)) 0 = false ∧ bit (licR.reg (rOff .uci 0 0x240)) 0 = true) ∧
    (sget (fun _ => 0) licR.fw.sigDue RingId.evt.num = 0 ∧
      sget (fun _ => 0) ({ licR with fw := { licR.fw with sigDue := [(4, 1001)] } } : State).fw.sigDue RingId.evt.num ≠ 0 ∧
      tle (1001 - 1) licR.tick = true ∧ later (1002 - 1) licR.tick = true) := by
  obtain ⟨-, -, h3, -⟩ := slotR
  exact ⟨h3, by decide +kernel, by decide +kernel, by decide +kernel⟩

theorem witness_CoresAndTasks :
    (lic.tick % 1024 ≠ 0 ∧ ({ lic with tim := { lic.tim with tick := 1024 } } : State).tick % 1024 = 0) ∧
    (bit ((regs lic [(0x8208, 0x7F)]).reg 0x8208) (7 : Fin 8) = false ∧ bit ((regs lic [(0x8208, 0x80)]).reg 0x8208) (7 : Fin 8) = true) ∧
    (let s : State := { regs lic [(0x8208, 0x01)] with fw := { lic.fw with moving := [7] } }
     s.fw.moving = [(7 : Fin 8).val] ∧ s.liveCores ≠ [] ∧ s.fld (coreReg (7 : Fin 8)) 57 56 ≠ 2) := by decide +kernel

/-- Extent 0x3FFFF with one parcel, number 0, and a drain of a kind due at tick `d`. -/
def drainX (k : DrainKind) (d : Nat) : State :=
  let s := withX ex
  { s with tier := { s.tier with parcels := [(0, ⟨0x3FFFF, 0, true⟩)], drains := [{ ext := 0x3FFFF, kind := k, b := 990, due := some d, oldCount := 1 }] } }

/-- The same extent on a device without flash, its parcel in frame 100; `p`: the tick of the pin. -/
def pinning (p : Option Nat) : State :=
  let s := regs (withX ex) [(0x1200, 0x3C1)]
  { s with tier := { s.tier with parcels := [(0, ⟨0x3FFFF, 0, true⟩)], pft := [(0, ⟨100, true⟩)], fht := [(100, { st := .pinned })], pins := [{ ext := 0x3FFFF, p := p }] } }

theorem witness_DrainsAndPinsComplete :
    (∀ k ∈ [DrainKind.revoke, .shrink, .unpin], (drainX k 1000).drainOf (0x3FFFF : BitVec 18).toNat =
        some { ext := 0x3FFFF, kind := k, b := 990, due := some 1000, oldCount := 1 } ∧ tle 1000 (drainX k 1000).tick = true ∧
      later 1001 (drainX k 1001).tick = true ∧ (∀ j ∈ (drainX k 1000).fw.journal, j.obj ≠ .ext (0x3FFFF : BitVec 18).toNat)) ∧
    (((drainX .unpin 1000).exttNow 0x3FFFF).pinned = false ∧ (drainX .unpin 1000).pinPending 0x3FFFF = false) ∧
    ((pinning none).tier.pins.find? (fun k => decide (k.ext = (0x3FFFF : BitVec 18).toNat)) = some { ext := 0x3FFFF, p := none } ∧
      (pinning none).allResident 0x3FFFF = true ∧ (pinning none).hasFlash = false ∧ (pinning none).entryPlaced .extt 0x3FFFF) ∧
    ((regs (pinning none) [(0x1200, 0x3E1)]).allResident 0x3FFFF = false) ∧
    (later 1001 (pinning (some 1001)).tick = true ∧ tle 1000 (pinning (some 1000)).tick = true) ∧
    lic.opened = false ∧
    (let s : State := { regs (withX ex) [(rOff .hdg 0 0x200, 0)] with opened := true, tier := { (withX ex).tier with repins := [0x3FFFF] } }
     s.opened = true ∧ s.stopped = false ∧ s.tier.repins = [0x3FFFF] ∧ s.pinFits 0x3FFFF = true) := by
  refine ⟨by decide +kernel, by decide +kernel, ⟨by decide +kernel, by decide +kernel, by decide +kernel, placedX (by decide +kernel)⟩, by decide +kernel, by decide +kernel,
    by decide +kernel, by decide +kernel⟩
theorem witness_TicksAndShares :
    (State.reset.pins.mainPg = false ∧ lic.pins.mainPg = true ∧ lic.adm.ingress = []) ∧ (regs lic [(0x1200, 0x3C1)]).hasFlash = false ∧ lic.hasFlash = true ∧
    lic.blockReset .tier = false ∧ lic.tim.period = none ∧
    (let j : PeriodJob := ⟨32, 1000⟩
     let s : State := { regs lic [(rOff .hdg 0 0x200, 2)] with tim := { lic.tim with period := some j }, adm := { lic.adm with reqs := [{ req0 with pct := 999 }] } }
     s.tim.period = some j ∧ tle j.stopAt s.tick = true ∧ s.stopped = true ∧ s.latestPct = some 999 ∧ later s.tick 999 = true ∧ j.q ≠ 0 ∧
      (s.fw.journal.filter fun k => decide (k.wait = .tickSet)).length ≤ 1) ∧
    (let j : PeriodJob := ⟨32, 1001⟩
     let s : State := { regs lic [(rOff .hdg 0 0x200, 0)] with tim := { lic.tim with period := some j }, adm := { lic.adm with reqs := [{ req0 with pct := 1000 }] } }
     later j.stopAt s.tick = true ∧ s.stopped = false ∧ s.latestPct = some 1000 ∧ later s.tick 1000 = false) := by decide +kernel

/-- `licT` as device 0x12345 with ports 0 and 31 in UP at 8 lanes, admission running. -/
def licP : State := regs licT
  [(0x1208, 0xFFFFFFFF), (rOff .rtr 0 0x200, 0x12345), (rOff .lnk 0 0x210, place 2 0 4 ||| place 5 4 3), (rOff .lnk 31 0x210, place 2 0 4 ||| place 5 4 3), (rOff .hdg 0 0x200, 0)]

/-- Context 1: fabric, owner 0x00777, every right, key 1 read and write. -/
def licX : State := entry licP .ctxt 1 [0x1 ||| place 35 16 0x777, 0, 1, 0, 0xFF0003, 0, 0, 0, 0, 0, 0, 0, 0, 0, 0, 0]

/-- A packet of owner 0x777 for the device, context 1. -/
def pkt (op : Byte) (words : List Word) (dst : BitVec 20) : Packet :=
  mkPacket dst 0x777 1 op.toNat 0 false 9 0 (wordsBytes words) []

/-- The same packet from a port's queue. -/
def queued (k : Packet) (p at' : Nat) : Queued := ⟨k, none, p, at'⟩

/-- `State.takes` as a check, where nothing waits before the packet. -/
def takesB (s : State) (p : Nat) (k : Packet) : Bool :=
  decide (s.linkState p = 4) && !s.portsStopped && !s.mustWait p 0 k && k.lenOk && k.crcOk

theorem takes_of {s : State} {p : Nat} {k : Packet} (h : takesB s p k = true) : s.takes p k := by
  simp only [takesB, Bool.and_eq_true, decide_eq_true_eq, Bool.not_eq_true'] at h
  exact ⟨h.1.1.1.1, h.1.1.1.2, h.1.1.2, h.1.2, h.2⟩

set_option maxRecDepth 100000 in
theorem witness_PacketsArrive :
    licP.linkState (30 : Fin 32) ≠ 4 ∧
    (licX.linkState (31 : Fin 32) = 4 ∧ licX.portsStopped = false ∧ licX.mustWait (31 : Fin 32) (7 : Fin 8) (pkt 1 [0x8000000000000000, 64] 0x54321) = false ∧
      ({ licX with adm := { licX.adm with ingress := [(31, 7, pkt 1 [0x8000000000000000, 64] 0x54321)] } } : State).mustWait (31 : Fin 32) (7 : Fin 8)
        (pkt 1 [0x8000000000000000, 64] 0x54321) = true ∧ (pkt 1 [0x8000000000000000, 64] 0x54321).lenOk = true ∧
      (0x54321 : BitVec 20) ≠ licX.devEid) ∧
    (∀ op ∈ ([1, 2, 4, 6, 7] : List Byte), licX.takes (31 : Fin 32) (pkt op [0x8000000000000000, 64] 0x12345) ∧
      licX.arrivalStatus (pkt op [0x8000000000000000, 64] 0x12345) = none) ∧ (0x12345 : BitVec 20) = licX.devEid ∧
    (∀ dst ∈ ([0x12345, 0xFFFFF] : List (BitVec 20)), licX.takes (31 : Fin 32) (pkt 0x31 [1, 2, 3, 4, 5, 6, 7, 8] dst) ∧
      (pkt 0x31 [1, 2, 3, 4, 5, 6, 7, 8] dst).payload.length ≤ 64) := by
  refine ⟨by decide +kernel, by decide +kernel, ?_, by decide +kernel, ?_⟩
  · have h : (([1, 2, 4, 6, 7] : List Byte).all fun op => takesB licX 31 (pkt op [0x8000000000000000, 64] 0x12345) &&
        decide (licX.arrivalStatus (pkt op [0x8000000000000000, 64] 0x12345) = none)) = true := by decide +kernel
    intro op ho
    have := List.all_eq_true.mp h op ho
    rw [Bool.and_eq_true, decide_eq_true_eq] at this
    exact ⟨takes_of this.1, this.2⟩
  · have h : (([0x12345, 0xFFFFF] : List (BitVec 20)).all fun d => takesB licX 31 (pkt 0x31 [1, 2, 3, 4, 5, 6, 7, 8] d)) = true := by decide +kernel
    intro d hd
    exact ⟨takes_of (List.all_eq_true.mp h d hd), Nat.le_of_eq rfl⟩

/-- A transit packet of port 31 on link VC 2 for 0x54321, and routes of both RTT banks there: candidates 31 and 0. -/
def trans (waiting held : Bool) (op : Byte) (tick : Nat) : TransitPkt :=
  ⟨pkt op [0x8000000000000000, 64] 0x54321, 31, 2, tick, waiting, false, false, held, false⟩

/-- A device with that packet, the route entry `w` in both banks; `m`: the entry is cached. -/
def licV (w : Word) (m : Bool) (x : TransitPkt) : State :=
  let s := entry licP .rtt 0x54321 [w]
  let s := { s with fab := { s.fab with transit := [x] } }
  s.setMemo 3 false 0x54321 { valid := m, last := 0 }

/-- A valid route with candidates 31 and 0, with or without the transit filter. -/
def route (filter : Bool) : Word := 1 ||| place 2 2 (b2n filter) ||| place 26 24 2 ||| place 13 9 0 ||| place 8 4 31

/-- `State.routed` as a check. -/
def routedB (s : State) (x : TransitPkt) (bank tft : Bool) : Bool :=
  let r := s.rtt bank x.pkt.dst.toNat
  r.valid && (!r.filter || s.filterPass x.pkt tft) && !(s.usable r (some x.port)).isEmpty

theorem routed_of {s : State} {x : TransitPkt} {bank tft : Bool} (h : routedB s x bank tft = true) : s.routed x bank tft := by
  simp only [routedB, Bool.and_eq_true, Bool.or_eq_true, Bool.not_eq_true'] at h
  exact ⟨h.1.1, h.1.2, fun e => by rw [e] at h; exact absurd h.2 (by simp)⟩

/-- Where the line of the route entry stands, and whether a table-fetch slot is free for it. -/
def slotFor (s : State) (x : TransitPkt) : Option State := s.fetchLine ((s.regionPhys (s.entryAddr .rtt x.bank x.pkt.dst.toNat)).getD 0 / 256)

/-- Any link between tiles has room for a packet while nothing has crossed and nothing is reserved. -/
theorem fits_all {s : State} (h : s.fab.crossed = []) (h' : s.adm.claims = []) (a b n : Nat) (hn : n ≤ 600000 * s.tim.periodQ) : s.crossFits a b n = true := by
  simp [State.crossFits, h, h', hn]

theorem witness_TransitPacketsAreForwarded :
    licP.transitHead (31 : Fin 32) (2 : Fin 8) = none ∧
    (let x := trans false false 0x20 1000
     let m := (licV (route false) true x).memo (31 / 8) x.bank x.pkt.dst
     (licV (route false) true x).transitHead (31 : Fin 32) (2 : Fin 8) = some x ∧ x.waiting = false ∧ x.held = false ∧ m.valid = true ∧ m.bad = false) ∧
    (licV (route false) true (trans false false 0x20 1000)).routed (trans false false 0x20 1000) false false ∧
    (∀ o : Nat, (licV (route false) true (trans false false 0x20 1000)).crossFits (31 / 8) (o / 8) 36 = true) ∧
    (let s := licV (route false) true (trans false false 0x20 1000)
     let full : State := { s with fab := { s.fab with crossed := [(12, 4800000)] } }
     ∀ o ∈ full.usable (full.rtt false 0x54321) (some 31), full.crossFits (31 / 8) (o / 8) 36 = false) ∧
    (let x := trans false false 0x20 1000
     ((licV (route false) false x).memo (31 / 8) x.bank x.pkt.dst).valid = false ∧
      (((licV (route false) true x).setMemo 3 false 0x54321 { valid := true, bad := true }).memo (31 / 8) x.bank x.pkt.dst).bad = true ∧
      ((licV (route false) false x).fab.transit.filter fun y => y.waiting && decide (y.port / 8 = (31 : Fin 32).val / 8)).length < 64) ∧
    (let x := trans false true 1 1000
     (licV (route true) true x).transitHead (31 : Fin 32) (2 : Fin 8) = some x ∧ x.held = true ∧ tle x.arrived (licV (route true) true x).tick = true ∧
      (licV (route true) true x).filterPass x.pkt ((licV (route true) true x).activeBank .tft) = false ∧
      ((licV (route true) true x).rtt ((licV (route true) true x).activeBank .rtt) x.pkt.dst.toNat).valid = true ∧
      ((licV (route true) true x).rtt ((licV (route true) true x).activeBank .rtt) x.pkt.dst.toNat).filter = true ∧
      (licV (route true) true x).filterRoom x.port = true ∧ x.port < 32 ∧ (licV (route true) true x).linkState x.port = 4) ∧
    (licV (route false) true (trans false true 1 1000)).routed (trans false true 1 1000)
      ((licV (route false) true (trans false true 1 1000)).activeBank .rtt) ((licV (route false) true (trans false true 1 1000)).activeBank .tft) ∧
    (let x := trans true false 1 999
     let s := licV (route false) false x
     s.transitHead (31 : Fin 32) (2 : Fin 8) = some x ∧ x.waiting = true ∧ (slotFor s x).isSome = true ∧
      s.entryBad .rtt x.bank x.pkt.dst.toNat = false ∧ (s.rtt x.bank x.pkt.dst.toNat).valid = true ∧ s.olds .rtt x.bank x.pkt.dst.toNat = []) ∧
    (licV (route false) false (trans true false 1 999)).routed (trans true false 1 999) false false ∧
    (let x := trans true false 1 999
     let s := licV (route false) false x
     let s := s.setMeta ((s.regionPhys (s.entryAddr .rtt false 0x54321)).getD 0 / 256) { crcDelta := 1 }
     (slotFor s x).isSome = true ∧ s.entryBad .rtt x.bank x.pkt.dst.toNat = true) ∧
    (let x := trans true false 1 999
     let s := licV (route false) false x
     let ln := (s.regionPhys (s.entryAddr .rtt x.bank x.pkt.dst.toNat)).getD 0 / 256
     slotFor ((List.range 8).foldl (fun s _ => s.useSlot 2 (stackOf ln) (s.pcOf ln)) s) x = none) :=
  ⟨by decide +kernel, by decide +kernel, routed_of (by decide +kernel),
    fun _ => fits_all (by decide +kernel) (by decide +kernel) _ _ _ (by decide +kernel), by decide +kernel, by decide +kernel, by decide +kernel,
    routed_of (by decide +kernel), by decide +kernel, routed_of (by decide +kernel), by decide +kernel, by decide +kernel⟩

theorem witness_TimeIsKept :
    (licP.takes (31 : Fin 32) (pkt 0x30 [500, 2] 0xFFFFF)) ∧
    (bit ((regs lic [(0x2210, 0)]).reg 0x2210) 0 = false ∧ bit ((regs lic [(0x2210, 3)]).reg 0x2210) 0 = true ∧ lic.opened = false ∧ lic.tim.gotTime = false ∧
      lic.ppsSpaced 5 = true ∧ ({ lic with tim := { lic.tim with lastPps := some 5 } } : State).ppsSpaced 900000004 = false) ∧
    (let s := regs lic [(0x2210, 0x640003)]
     bit (s.reg 0x2210) 1 = true ∧ s.tim.lastSend + s.beaconUs * 1000 ≤ s.tim.netTime) ∧
    (let s : State := { regs lic [(0x2210, 0x640003)] with tim := { lic.tim with lastSend := 1900001 } }
     s.tim.netTime < s.tim.lastSend + s.beaconUs * 1000) ∧
    (let s := regs lic [(0x2210, 0x640002)]
     s.noPps = true ∧ s.bestSource = none ∧ s.tim.noCand + 3 * s.beaconUs * 1000 ≤ s.tim.netTime) ∧
    (let s : State := { regs lic [(0x2210, 0x640002)] with tim := { lic.tim with noCand := 1700001 } }
     ¬(s.tim.noCand + 3 * s.beaconUs * 1000 ≤ s.tim.netTime)) :=
  ⟨takes_of (by decide +kernel), by decide +kernel, by decide +kernel, by decide +kernel, by decide +kernel, by decide +kernel⟩

/-- Extent 0x3FFFF of 2 parcels, 5 and 6, in frames 100 and 101: FP32 rows of one line, pinned, updated by SGD. -/
def zX : Extt := { ex with pinned := true, format := 1, rowElems := 64, rowLines := 1, pmap := 0x10012100000, upd5 := 1 }

/-- Extent 0x3FFFE of one parcel, 7, in frame 102: RAW, pinned, coherent in domain 0xFFF, its directory in frame 103. -/
def zC : Extt := { ex with pinned := true, coherent := true, domain := 0xFFF, parcels := 1, prev := 1, pmap := 0x10012101000, upd5 := 0x10012102000 }

/-- A program that adds rows of 64 elements. -/
def zP : List Word :=
  (1 ||| place 5 1 3 ||| place 15 8 1 ||| place 23 16 2 ||| place 27 24 1 ||| place 45 32 64) :: List.replicate 15 0 ++
    [place 31 27 1 ||| place 63 59 4, place 31 27 6 ||| place 63 59 10]

/-- A parcel map entry. -/
def pmapW (p st : Nat) : Word := BitVec.ofNat 64 (p + st * 2 ^ 25 + 2 ^ 31)

/-- Domain 0xFFF ACTIVE in epoch 3 with one member, 0x777. -/
def zDomt : List Word := [1 ||| place 31 16 3 ||| place 42 32 1 ||| place 55 48 8, place 51 12 0x10012103, 64]

/-- A route to port 31 alone. -/
def to31 : Word := 1 ||| place 26 24 1 ||| place 8 4 31

/-- Words in untouched memory of the control region, within one page. -/
def put (s : State) (a : Nat) (ws : List Word) : State :=
  { s with hbm := (wordsBytes ws).zipIdx.foldl (fun (m : List (Nat × Byte)) (b : Byte × Nat) =>
      if b.1 = 0 then m else sset (fun _ => (0 : Byte)) m ((s.regionPhys a).getD 0 + b.2) b.1) s.hbm }

/-- An untouched entry of both banks of a table. -/
def putE (s : State) (t : Table) (i : Nat) (ws : List Word) : State := put (put s (s.entryAddr t false i) ws) (s.entryAddr t true i) ws

/-- `licP` without flash, with context 1 of owner 0x777 with every right and key 1, those extents, their parcels, keys and frames, program 1, the domain
and a route `r` to 0x777. -/
def licZ' (r : Word) : State :=
  let s := regs licP [(0x1200, 0x3C1)]
  let s := putE s .ctxt 1 [0x1 ||| place 35 16 0x777, 0, 1, 0, 0xFF0003]
  let s := putE s .extt 0x3FFFF zX.words
  let s := putE s .extt 0x3FFFE zC.words
  let s := putE s .rtt 0x777 [r]
  let s := putE s .prgt 1 zP
  let s := putE s .domt 0xFFF zDomt
  let s := [5, 6, 7].foldl (fun (s : State) p => putE s .pkt p [0x10001]) s
  let s := put s 0x10012100000 [pmapW 5 0 ||| pmapW 6 0 <<< 32]
  let s := put s 0x10012101000 [pmapW 7 0]
  let s := put s 0x10012102000 [103]
  let s := put s 0x10012103000 [0x80000777]
  { s with
    tier := { s.tier with
      parcels := [(5, ⟨0x3FFFF, 0, true⟩), (6, ⟨0x3FFFF, 1, true⟩), (7, ⟨0x3FFFE, 0, true⟩)],
      pft := [(5, ⟨100, true⟩), (6, ⟨101, true⟩), (7, ⟨102, true⟩)],
      fht := [(100, { st := .pinned }), (101, { st := .pinned }), (102, { st := .pinned }), (103, { st := .pinned })] },
    coh := { s.coh with doms := [(0xFFF, { st := .active, epoch := 3 })] } }

/-- The same with the route to port 31. -/
def licZ : State := licZ' to31

/-- Whether the charges of a request fit; none where step 1 ends it. -/
def fitsOf : Decided → Nat → Option Bool
  | .inl _, _ => none
  | .inr a, h => some (a.d.fits h)

theorem ask_of {d : Decided} {h : Nat} {b : Bool} (e : fitsOf d h = some b) : ∃ a, d = .inr a ∧ a.d.fits h = b := by
  cases d with
  | inl _ => exact absurd e (by simp [fitsOf])
  | inr a => exact ⟨a, rfl, by simpa [fitsOf] using e⟩

/-- A request of port 31 for this device. -/
def ask31 (op : Byte) (ws : List Word) : Queued := queued (pkt op ws 0x12345) 31 1000

/-- Port 31 left with nothing beside its control blocks. -/
def tight (s : State) : State := regs s [(rOff .sch 3 0x238, 781)]

/-- A batch of one table, extent 0x3FFFF by program 1, with one lookup of row 0 into one output. -/
def zBatchQ : Queued :=
  { ask31 3 [] with batch := some (wordsBytes [0, place 17 0 0x3FFFF ||| place 27 18 1 ||| place 48 32 1, 1, 0], []) }

/-- The heads of port 31's queue, one of each fabric request but LOOKUP_BATCH. -/
def zHeads : List (Queued × (Nat × Instr × (State → Queued → Decided))) :=
  let x : Word := ptrTo 0x3FFFF 0
  [ask31 1 [x, 64], ask31 2 [x, 64], ask31 4 ((place 17 0 0x3FFFF ||| place 23 20 1 ||| place 47 32 1) :: List.replicate 33 0),
    ask31 5 [place 17 0 0x3FFFF, 0, 0, 0], ask31 6 [x, 256], ask31 7 [x, ptrTo 0x3FFFF 4096, 4096]].zip ((fabricRows 31).eraseIdx 2)

/-- A head in a port's queue. -/
def waits (s : State) (q : Queued) : State := { s with adm := { s.adm with intake := [q] } }

/-- A head in tile 3's home queue. -/
def waitsHome (s : State) (q : Queued) : State := { s with adm := { s.adm with homeQ := [(3, q)] } }

/-- Coherence message `msg` on line 0 of extent 0x3FFFE. -/
def zCoh (msg : Nat) : Queued :=
  ask31 8 ([place 15 0 3 ||| place 19 16 msg ||| place 33 22 0xFFF, ptrTo 0x3FFFE 0] ++ (if msg = 3 ∨ msg = 4 then List.replicate 32 1 else []))

/-- Line 0 of extent 0x3FFFE as message `msg` finds it: owned by member 0 for a write back, in I otherwise. -/
def zDir (s : State) (msg : Nat) : State := if msg = 3 ∨ msg = 4 then s.writeDirEntry zC 0 (dirOne 3 0) else s

/-- A fabric request at the head of its queue, as the statement meets it. -/
def fabMeets (s : State) (q : Queued) (row : Nat × Instr × (State → Queued → Decided)) (fits : Bool) : Bool :=
  decide ((waits s q).headOf 31 row.1 = some q) && !(waits s q).aged q && !(waits s q).stopped && fitsOf (row.2.2 (((waits s q).unqueue q).countHead 3) q) 3 == some fits

/-- A coherence request at the head of its home queue, as the statement meets it. -/
def cohMeets (s : State) (row : Nat × Instr × (Word → Nat → Bool → List Nat → CohAct)) (fits : Bool) : Bool :=
  let q := zCoh row.1
  let u := waitsHome (zDir s row.1) q
  decide (u.homeHead 3 (cohIs row.1) = some q) && !u.aged q && !u.stopped &&
    fitsOf ((({ u with adm := { u.adm with homeQ := u.adm.homeQ.erase (3, q) } } : State).countHead 3).decideCoh 3 row.1 row.2.2 q) 3 == some fits

theorem fab_of {s : State} {q : Queued} {row : Nat × Instr × (State → Queued → Decided)} {b : Bool} (h : fabMeets s q row b = true) :
    ∃ (t : State) (a : Ask), t.headOf 31 row.1 = some q ∧ t.aged q = false ∧ t.stopped = false ∧ row.2.2 ((t.unqueue q).countHead 3) q = .inr a ∧ a.d.fits 3 = b := by
  simp only [fabMeets, Bool.and_eq_true, decide_eq_true_eq, Bool.not_eq_true', beq_iff_eq] at h
  obtain ⟨⟨⟨h1, h2⟩, h3⟩, h4⟩ := h
  obtain ⟨a, h5, h6⟩ := ask_of h4
  exact ⟨waits s q, a, h1, h2, h3, h5, h6⟩

theorem coh_of {s : State} {row : Nat × Instr × (Word → Nat → Bool → List Nat → CohAct)} {b : Bool} (h : cohMeets s row b = true) :
    ∃ (t : State) (q : Queued) (a : Ask), t.homeHead 3 (cohIs row.1) = some q ∧ t.aged q = false ∧ t.stopped = false ∧
      (({ t with adm := { t.adm with homeQ := t.adm.homeQ.erase (3, q) } } : State).countHead 3).decideCoh 3 row.1 row.2.2 q = .inr a ∧ a.d.fits 3 = b := by
  simp only [cohMeets, Bool.and_eq_true, decide_eq_true_eq, Bool.not_eq_true', beq_iff_eq] at h
  obtain ⟨⟨⟨h1, h2⟩, h3⟩, h4⟩ := h
  obtain ⟨a, h5, h6⟩ := ask_of h4
  exact ⟨_, zCoh row.1, a, h1, h2, h3, h5, h6⟩

set_option maxRecDepth 100000 in
theorem admitted_fab : (zHeads.all fun x => fabMeets licZ x.1 x.2 true) = true := by decide +kernel

set_option maxRecDepth 100000 in
theorem admitted_coh : ((cohRows 3).all fun r => cohMeets licZ r true) = true := by decide +kernel

/-- An ATOMIC of line 0 of extent 0x3FFFE, whose directory entry is I, in tile 3's home queue. -/
def zHome : Queued := ask31 5 [place 17 0 0x3FFFE, 0, 0, 0]

set_option maxRecDepth 100000 in
theorem admitted_home : ((waitsHome licZ zHome).headOf 31 5 = none ∧ (waitsHome licZ zHome).homeHead 3 (fun k => decide (k.opcode = 5)) = some zHome) ∧
    (waitsHome licZ zHome).aged zHome = false ∧ (waitsHome licZ zHome).stopped = false ∧
    fitsOf ((({ waitsHome licZ zHome with adm := { (waitsHome licZ zHome).adm with homeQ := (waitsHome licZ zHome).adm.homeQ.erase (3, zHome) } } : State).countHead 3).decideHomeAtomic 3 zHome) 3 = some true := by decide +kernel

set_option maxRecDepth 100000 in
theorem admitted_batch : fitsOf (((waits licZ zBatchQ).unqueue zBatchQ).countHead 3 |>.decideBatchOn [96] 31 zBatchQ) 3 = some true := by decide +kernel

/-- A LOOKUP_BATCH is admitted whole too: here where the free value that gives its index stage a core gives core 96. -/
theorem witness_BatchesAreAdmittedWhole (h : Config.freeNat licZ.fresh % 32 = 0) : (waits licZ zBatchQ).headOf 31 3 = some zBatchQ ∧
    (waits licZ zBatchQ).aged zBatchQ = false ∧ (waits licZ zBatchQ).stopped = false ∧
    ∃ a, (((waits licZ zBatchQ).unqueue zBatchQ).countHead 3).decideBatch 31 zBatchQ = .inr a ∧ a.d.fits 3 = true := by
  refine ⟨by decide +kernel, by decide +kernel, by decide +kernel, ask_of ?_⟩
  have e : (((waits licZ zBatchQ).unqueue zBatchQ).countHead 3).indexCores (31 / 8) ((batchTables (zBatchQ.batch.getD ([], [])).1).map (·.lookups)).sum = [96] := by
    have f : (((waits licZ zBatchQ).unqueue zBatchQ).countHead 3).fresh = licZ.fresh := by decide +kernel
    have n : ((batchTables (zBatchQ.batch.getD ([], [])).1).map (·.lookups)).sum = 1 := by decide +kernel
    rw [State.indexCores, f, n]
    show [3 * 32 + Config.freeNat (licZ.fresh + 0) % 32] = [96]
    rw [Nat.add_zero, h]
  rw [State.decideBatch, e]
  exact admitted_batch

theorem home_of : ∃ (s : State) (q : Queued) (a : Ask), s.headOf 31 5 = none ∧ s.homeHead 3 (fun k => decide (k.opcode = 5)) = some q ∧ s.aged q = false ∧
    s.stopped = false ∧ (({ s with adm := { s.adm with homeQ := s.adm.homeQ.erase (3, q) } } : State).countHead 3).decideHomeAtomic 3 q = .inr a ∧ a.d.fits 3 = true := by
  obtain ⟨⟨h1, h2⟩, h3, h4, h5⟩ := admitted_home
  obtain ⟨a, h6, h7⟩ := ask_of h5
  exact ⟨waitsHome licZ zHome, zHome, a, h1, h2, h3, h4, h6, h7⟩

set_option maxRecDepth 100000 in
theorem refused_rows : ((zHeads.take 1).all fun x => fabMeets (tight licZ) x.1 x.2 false) = true ∧
    (((cohRows 3).take 1).all fun r => cohMeets (tight licZ) r false) = true := by decide +kernel

theorem witness_RequestsAreAdmittedWhole : fitsOf (((waits licX (ask31 1 [ptrTo 0x3FFFF 0, 64])).unqueue (ask31 1 [ptrTo 0x3FFFF 0, 64])).countHead 3 |>.decideRead 31
      (ask31 1 [ptrTo 0x3FFFF 0, 64])) 3 = none ∧
    (∀ x ∈ zHeads, ∃ (s : State) (a : Ask), s.headOf 31 x.2.1 = some x.1 ∧ s.aged x.1 = false ∧ s.stopped = false ∧
      x.2.2.2 ((s.unqueue x.1).countHead 3) x.1 = .inr a ∧ a.d.fits 3 = true) ∧
    (∀ x ∈ zHeads.take 1, ∃ (s : State) (a : Ask), s.headOf 31 x.2.1 = some x.1 ∧ s.aged x.1 = false ∧ s.stopped = false ∧
      x.2.2.2 ((s.unqueue x.1).countHead 3) x.1 = .inr a ∧ a.d.fits 3 = false) ∧
    (∀ row ∈ cohRows 3, ∃ (s : State) (q : Queued) (a : Ask), s.homeHead 3 (cohIs row.1) = some q ∧ s.aged q = false ∧ s.stopped = false ∧
      (({ s with adm := { s.adm with homeQ := s.adm.homeQ.erase (3, q) } } : State).countHead 3).decideCoh 3 row.1 row.2.2 q = .inr a ∧ a.d.fits 3 = true) ∧
    (∃ (s : State) (q : Queued) (a : Ask), s.headOf 31 5 = none ∧ s.homeHead 3 (fun k => decide (k.opcode = 5)) = some q ∧ s.aged q = false ∧ s.stopped = false ∧
      (({ s with adm := { s.adm with homeQ := s.adm.homeQ.erase (3, q) } } : State).countHead 3).decideHomeAtomic 3 q = .inr a ∧ a.d.fits 3 = true) ∧
    ∀ row ∈ (cohRows 3).take 1, ∃ (s : State) (q : Queued) (a : Ask), s.homeHead 3 (cohIs row.1) = some q ∧ s.aged q = false ∧ s.stopped = false ∧
      (({ s with adm := { s.adm with homeQ := s.adm.homeQ.erase (3, q) } } : State).countHead 3).decideCoh 3 row.1 row.2.2 q = .inr a ∧ a.d.fits 3 = false :=
  ⟨by decide +kernel, fun x hx => fab_of (List.all_eq_true.mp admitted_fab x hx), fun x hx => fab_of (List.all_eq_true.mp refused_rows.1 x hx),
    fun row hr => coh_of (List.all_eq_true.mp admitted_coh row hr), home_of, fun row hr => coh_of (List.all_eq_true.mp refused_rows.2 row hr)⟩

/-- READ of the first line of extent 0x3FFFF, waiting since tick `t`. -/
def since (t : Nat) : Queued := { ask31 1 [ptrTo 0x3FFFF 0, 64] with arrived := t }

/-- An assembly of port 31 opened at a tick. -/
def asm1 (t : Nat) : Nat × Assembly :=
  (31, { first := pkt 3 [place 14 8 1, 1] 0x12345, next := 1, opened := t, src := 0x777, ctx := 1, tag := 9, last := 1, data := [], poison := [], complete := false })

set_option maxRecDepth 100000 in
theorem witness_IntakeQueues :
    (licZ.headOf 31 1 = none) ∧
    ((waits licZ (since 968)).headOf 31 1 = some (since 968) ∧ (waits licZ (since 968)).aged (since 968) = true) ∧
    (let s := regs (waits licZ (since 969)) [(rOff .hdg 0 0x200, 2)]
     s.headOf 31 1 = some (since 969) ∧ s.aged (since 969) = false ∧ s.stopped = true) ∧
    (∀ n ∈ [0, 127], let k := pkt 3 [place 14 8 n, 1, 2] 0x12345
      licX.takes (31 : Fin 32) k ∧ k.dst = licX.devEid ∧ k.dst ≠ 0xFFFFF ∧ k.opcode = 3 ∧ bits (k.word 0) 6 0 = 0 ∧ licX.arrivalStatus k = none ∧
        (licX.adm.asm.find? fun a => asmMatch 31 k a && !a.2.complete) = none ∧ licX.asmUsed 31 + bits (k.word 0) 14 8 + 1 ≤ 128) ∧
    (let dead := fun (a : Nat × Assembly) => decide (a.1 = 31) && !a.2.complete && later licX.tick (tadd a.2.opened licX.asmTicks)
     dead (asm1 (1000 - licX.asmTicks)) = false ∧ dead (asm1 (999 - licX.asmTicks)) = true) := by
  refine ⟨by decide +kernel, by decide +kernel, by decide +kernel, ?_, by decide +kernel⟩
  have h : (([0, 127] : List Nat).all fun n => let k := pkt 3 [place 14 8 n, 1, 2] 0x12345
      takesB licX 31 k && decide (k.dst = licX.devEid ∧ k.dst ≠ 0xFFFFF ∧ k.opcode = 3 ∧ bits (k.word 0) 6 0 = 0 ∧ licX.arrivalStatus k = none ∧
        (licX.adm.asm.find? fun a => asmMatch 31 k a && !a.2.complete) = none ∧ licX.asmUsed 31 + bits (k.word 0) 14 8 + 1 ≤ 128)) = true := by decide +kernel
  intro n hn
  have := List.all_eq_true.mp h n hn
  rw [Bool.and_eq_true, decide_eq_true_eq] at this
  exact ⟨takes_of this.1, this.2⟩

theorem witness_ExclusiveGrantsHaveOneHolder :
    (cohRdS 0 1023 false = .allows (dirOne 2 1023) 2 true false ∧ cohRdS 0 1023 true = .allows (dirOne 1 1023) 1 true false ∧
      cohRdX (dirOne 1 0) 0 false [] = .allows (dirOne 3 0) 3 true false ∧ cohUpg (dirOne 1 0) 0 false [] = .allows (dirOne 3 0) 3 false false) ∧
    (cohWb (dirOne 3 1023) 1023 true = .allows (dirOne 1 1023) 1 false true ∧ cohWb (dirOne 2 0) 0 false = .allows dirI 0 false true) := by decide +kernel

/-- A recall of line 0 of extent 0x3FFFE on tile 3, member 0 being asked. -/
def zRec (sent : Option Nat) (ans : Bool) (exp : Nat) : Recall :=
  ⟨3, 0xFFF, 0x3FFFE, 0, 1, 8, false, 0, exp, [⟨0, 8, sent, ans⟩], false, none, false⟩

/-- `licZ` with that recall, the domain's quota free. -/
def zRecall (r : Recall) : State := { licZ with coh := { licZ.coh with recalls := [r] } }

/-- A member's response of message `msg` and DOM_EPOCH `ep`. -/
def zRsp (msg ep : Nat) : Packet := pkt 9 [place 15 0 ep ||| place 19 16 msg ||| place 33 22 0xFFF, ptrTo 0x3FFFE 0] 0x12345

set_option maxRecDepth 100000 in
theorem responses : (([0xC, 0xD] : List Nat).all fun msg => let s := zRecall (zRec (some 999) false 1016)
      let k := zRsp msg 3
      takesB s 31 k && decide (k.dst = s.devEid ∧ k.dst ≠ 0xFFFFF ∧ k.opcode = 9 ∧ s.inComputeReset = false ∧ s.check1 k = true ∧ s.streamAhead k = none ∧
        ptrOf (k.word 1) = .at' 0x3FFFE 0 ∧ bits (k.word 0) 33 22 = 0xFFF ∧ bits (k.word 0) 19 16 = msg ∧ (s.dom 0xFFF).st = .active ∧
        (s.dom 0xFFF).epoch.toNat = bits (k.word 0) 15 0 ∧ s.recallOf 0x3FFFE 0 = some (zRec (some 999) false 1016) ∧
        s.memberOf (s.domt s.banks 0xFFF) k.src = some 0 ∧ (s.dom 0xFFF).epoch.toNat ≠ bits ((zRsp msg 2).word 0) 15 0)) = true := by decide +kernel

set_option maxRecDepth 100000 in
theorem witness_RecallsAndSnoops :
    (∀ msg ∈ ([0xC, 0xD] : List Nat), let s := zRecall (zRec (some 999) false 1016)
      let k := zRsp msg 3
      s.takes (31 : Fin 32) k ∧ (k.dst = s.devEid ∧ k.dst ≠ 0xFFFFF ∧ k.opcode = 9 ∧ s.inComputeReset = false ∧ s.check1 k = true ∧ s.streamAhead k = none ∧
        ptrOf (k.word 1) = .at' 0x3FFFE 0 ∧ bits (k.word 0) 33 22 = 0xFFF ∧ bits (k.word 0) 19 16 = msg ∧ (s.dom 0xFFF).st = .active ∧
        (s.dom 0xFFF).epoch.toNat = bits (k.word 0) 15 0 ∧ s.recallOf 0x3FFFE 0 = some (zRec (some 999) false 1016) ∧
        s.memberOf (s.domt s.banks 0xFFF) k.src = some 0 ∧ (s.dom 0xFFF).epoch.toNat ≠ bits ((zRsp msg 2).word 0) 15 0)) ∧
    (zRec (some 999) false 1016).domain = 0xFFF ∧ (∃ n ∈ (zRec (some 999) false 1016).snoops, n.member = 0 ∧ n.answered = false ∧ n.sent ≠ none) ∧
    (tle (zRec none false 1000).expires 1000 = true ∧ tle (zRec none false 1001).expires 1000 = false ∧
      ({ zRec (some 999) true 1000 with complete := true } : Recall).complete = true ∧ (zRec (some 999) true 1000).complete = false) ∧
    (∀ n ∈ (zRec (some 999) false 1016).snoops, n.sent ≠ none) ∧
    -- the last answer: written at once, and kept for want of slots
    (∃ n ∈ (zRec (some 999) false 1016).snoops, n.member = 0) ∧
    (let s := zRecall (zRec (some 999) false 1016)
     s.linePending 0x3FFFE 0 = false ∧ s.fallen 0xFFF = false ∧ s.spareRoom (s.recallSlots (zRec (some 999) true 1016)) = true) ∧
    (let s := zRecall (zRec (some 999) false 1016)
     let ls := s.recallSlots (zRec (some 999) true 1016)
     (s.useSpare (ls.flatMap fun l => List.replicate 20 l)).spareRoom ls = false) ∧
    (let s := zRecall (zRec none false 1016)
     let r := zRec none false 1016
     let n : Snoop := ⟨0, 8, none, false⟩
     s.coh.recalls = [r] ∧ r.tile = (3 : Fin 4).val ∧ r.snoops = [n] ∧ n.sent = none ∧ n.msg = 8 ∧ s.coh.snoopUsed = [] ∧ 0 < (s.domt s.banks r.domain).quota ∧
      0 < s.perTick (max 16 (s.fld (rOff .coh (3 : Fin 4) 0x200) 15 0)) ∧ s.member (s.domt s.banks r.domain) n.member = some 0x777 ∧
      s.firstUsable 0x777 = some 31) ∧
    (∀ n ∈ (zRec (some 999) true 1016).snoops, n.answered = true ∨ n.sent = none) ∧
    (let s := zRecall (zRec (some 991) false 1016)
     let r := zRec (some 991) false 1016
     let n : Snoop := ⟨0, 8, some 991, false⟩
     s.coh.recalls = [r] ∧ r.tile = (3 : Fin 4).val ∧ r.snoops = [n] ∧ n.sent = some 991 ∧ n.answered = false ∧
      tle (tadd 991 ((s.domt s.banks r.domain).timeout + 1)) s.tick = true ∧ (s.dom r.domain).st = .active ∧ (s.dom r.domain).goingDown = none) := by
  refine ⟨fun msg hm => ?_, ?_⟩
  · have := List.all_eq_true.mp responses msg hm
    simp only [Bool.and_eq_true, decide_eq_true_eq] at this
    exact ⟨takes_of this.1, this.2⟩
  · refine ⟨?_, ?_, ?_, ?_, ?_, ?_, ?_, ?_, ?_, ?_⟩ <;> decide +kernel

/-- Domain 5 with a DOWN at boundary `b`. -/
def zDown (b : Nat) : State := { lic with coh := { lic.coh with doms := [(5, { st := .active, goingDown := some (b, 1, 0) })] } }

/-- `licZ` with domain 0xFFF DOWN, its extent's parcel on tile 0, swept to line `c` there. -/
def zSweep (c : Nat) : State := { licZ with coh := { licZ.coh with doms := [(0xFFF, { st := .down, sweep := [c, 0, 0, 0] })] } }

set_option maxRecDepth 100000 in
theorem witness_DomainsGoDown :
    (((zDown 1001).dom (5 : BitVec 12).toNat).goingDown = some (1001, 1, 0) ∧ later 1001 (zDown 1001).tick = true) ∧
    (((zDown 1000).dom (5 : BitVec 12).toNat).goingDown = some (1000, 1, 0) ∧ tle 1000 (zDown 1000).tick = true ∧
      ((zDown 1000).dom (5 : BitVec 12).toNat).st = .active) ∧
    (∀ e ∈ licZ.coh.doms, e.2.st ≠ .down ∨ e.2.sweepHeld = true) ∧
    (∀ c ∈ [0, 255], (zSweep c).coh.doms = [(0xFFF, { st := .down, sweep := [c, 0, 0, 0] })] ∧
      ((zSweep c).nextSweep 0xFFF (0 : Fin 4)).isSome = true ∧
      (((zSweep c).nextSweep 0xFFF (0 : Fin 4)).any fun l => (zSweep c).spareRoom ((zSweep c).sweepSlots l.1 l.2)) = true) := by
  refine ⟨by decide +kernel, by decide +kernel, by decide +kernel, ?_⟩
  decide +kernel

/-- A request 1 of context 1, admitted in tick `t`, its banks 0, its replies to port 31. -/
def reqZ (t : Nat) (w : Work) : Req :=
  { req0 with ctx := 1, src := 0x777, tag := 9, banks := 0, admitTick := t, pct := t + 3, egress := some 31, exts := [0x3FFFF], work := w }

/-- `licZ` with one request. -/
def withReq (r : Req) : State := { licZ with adm := { licZ.adm with reqs := [r] } }

/-- READ of the last byte of line 0 of extent 0x3FFFF. -/
def zRead (done : Bool) : Work := .read 0x3FFFF 255 1 [0] 0 done

theorem exists_view {r : Option (List Byte × Bool) × State} (h : r.1.isSome = true) : ∃ bs psn u, r = (some (bs, psn), u) := by
  obtain ⟨o, u⟩ := r
  cases o with
  | none => exact absurd h (by simp)
  | some v => exact ⟨v.1, v.2, u, rfl⟩

/-- A miss of line 16 in group 1 of parcel 5, to be filled in tick `t`. -/
def miss1 (s : State) (t : Nat) : Miss := { parcel := 5, group := 1, lines := [16], die := 0, senseAt := t - (s.senseTicks + s.xferTicks), sensed := true, transferred := true }

/-- `withReq` on a device with flash. -/
def withFlash (r : Req) : State := regs (withReq r) [(0x1200, 0x3E1)]

/-- A batch request's work before its Confluence, no thread left. -/
def zBatch (built : Bool) : Work := .batch [] [] [] false false [] [] [] [] 0 built

set_option maxRecDepth 100000 in
theorem witness_StagesRunInTheirTicks :
    licZ.reqOf 1 = none ∧
    (let r := reqZ 998 (zRead false)
     (withReq r).reqOf 1 = some r ∧ tadd r.admitTick 1 ≠ (withReq r).tick) ∧
    (let r := { reqZ 999 (zRead false) with rowDone := true }
     (withReq r).reqOf 1 = some r ∧ r.rowDone = true ∧ ∀ w ∈ (withReq r).dueLanding, r.stream w = false) ∧
    (let r := reqZ 999 (zRead false)
     let s := withReq r
     s.reqOf 1 = some r ∧ tadd r.admitTick 1 = s.tick ∧ r.rowDone = false ∧ r.work = .read 0x3FFFF 255 1 [0] 0 false ∧ r.misses = [] ∧
      linesOf 255 1 = [0] ∧ (∀ w ∈ s.dueLanding, r.stream w = false) ∧
      ∃ bs psn u, s.viewLines [] r.banks (s.ctxt r.banks r.ctx.toNat) r.ctx.toNat 0x3FFFF [0] = (some (bs, psn), u)) ∧
    (let m := miss1 licZ 1000
     let due := fun (s : State) (m : Miss) => m.transferred && !m.filled && decide (tadd m.senseAt (s.senseTicks + s.xferTicks) = s.tick)
     let r := { reqZ 990 (zRead true) with misses := [m] }
     let s := withFlash r
     s.reqOf 1 = some r ∧ due s m = true ∧ due s (miss1 licZ 1001) = false ∧ r.misses = [m] ∧ m.lines = [16] ∧ m.group = 16 / 16 ∧
      s.lineAt m.parcel 16 = some (100 * 8192 + 16) ∧ s.copyBad m.copy = false ∧ s.staleGen m.copy = false ∧
      s.hasFlash = true ∧ s.lsmOf (100 * 8192 + 16) = .absent ∧ s.copyPoison m.copy m.parcel 16 = false ∧ r.work = .read 0x3FFFF 255 1 [0] 0 true) ∧
    (let r := reqZ 998 (zBatch false)
     (withReq r).reqOf 1 = some r ∧ r.confTick = (withReq r).tick ∧ r.work = zBatch false ∧ (reqZ 998 (zBatch true)).confTick = (withReq r).tick ∧ (reqZ 997 (zBatch false)).confTick ≠ (withReq r).tick) := by
  refine ⟨by decide +kernel, by decide +kernel, by decide +kernel, ⟨by decide +kernel, by decide +kernel, rfl, rfl, rfl, by decide +kernel, by decide +kernel, ?_⟩,
    by decide +kernel, by decide +kernel⟩
  exact exists_view (by decide +kernel)

set_option maxRecDepth 100000 in
theorem witness_RepliesJoinTheEgressQueue :
    licZ.reqOf 1 = none ∧ licZ.dueReply 1 = none ∧
    (∀ w ∈ [.read 0x3FFFF 255 1 [0] 0 false, .read 0x3FFFF 0 8192 [] 0 true, zBatch true,
        .batch [] [] [] false false [] [] [] [] (BitVec.ofNat 8 stAccess) true], let r := reqZ 997 w
      (withReq r).reqOf 1 = some r ∧ r.pct = (withReq r).tick ∧ r.egress.isSome = true ∧ (withReq r).sentAlready r = false ∧ r.work = w) ∧
    (reqZ 998 (zBatch true)).pct ≠ (withReq (reqZ 998 (zBatch true))).tick ∧ ((0 : Byte).toNat ≠ stAccess) ∧
    (∀ w ∈ [.write [] 1 true true, .write [⟨0x3FFFF, 0, 0, [1], false⟩] 1 true true, .write [⟨0x3FFFF, 0, 0, [1], false⟩] 1 false true,
        .push 0x3FFFF 1 0 0 [] 0 true true, .atomic 0x3FFFF [] true true, .coh 0 0xFFF 0x3FFFE 0 none 0 2 true 0 [] true], let r := reqZ 998 w
      (withReq r).dueReply 1 = some r ∧ r.egress.isSome = true ∧ (withReq r).sentAlready r = false ∧ r.work = w) ∧
    (let r := reqZ 998 (.write [] 1 true true)
     let s := withReq r
     let s := s.setSched 31 { s.sched 31 with queue := [⟨pkt 0x20 [] 0x777, .admitted, 0, 1, 0, 1000, 0, 0, 0, some 1, true, 1000, false⟩] }
     s.dueReply 1 = some r ∧ s.sentAlready r = true) := by
  refine ⟨by decide +kernel, by decide +kernel, ?_, by decide +kernel, by decide +kernel, ?_, by decide +kernel⟩
  · intro w hw
    have h : ∀ w ∈ [.read 0x3FFFF 255 1 [0] 0 false, .read 0x3FFFF 0 8192 [] 0 true, zBatch true,
        .batch [] [] [] false false [] [] [] [] (BitVec.ofNat 8 stAccess) true], let r := reqZ 997 w
      (withReq r).reqOf 1 = some r ∧ r.pct = (withReq r).tick ∧ r.egress.isSome = true ∧ (withReq r).sentAlready r = false ∧ r.work = w := by decide +kernel
    exact h w hw
  · decide +kernel

/-- A WRITE of the whole line `ln` of extent 0x3FFFF. -/
def zWrite (ln : Nat) (f : BitVec 4) : Req := reqZ 999 (.write [⟨0x3FFFF, ln, 0, List.replicate 256 7, false⟩] f true false)

set_option maxRecDepth 100000 in
theorem witness_WritesLandWhole :
    licZ.dueLanding = [] ∧
    (let r := zWrite 0 1
     let s := withReq r
     s.adm.reqs = [r] ∧ s.dueLanding = [r] ∧ s.tileFaults.contains s.tick = false ∧ (List.replicate 256 (7 : Byte)).length = 256 ∧
      r.work = .write [⟨0x3FFFF, 0, 0, List.replicate 256 7, false⟩] 1 true false ∧ r.egress.isSome = true ∧ s.coh.recalls = [] ∧
      (let q := s.lineRef (s.extt r.banks 0x3FFFF) 0
       s.lineAt q.1 q.2.1 = some (100 * 8192) ∧ ((s.pkt r.banks q.1).1 && (s.ctxt r.banks r.ctx.toNat).keyOk (s.pkt r.banks q.1).2 true) = true ∧
        (s.fhtOf (100 * 8192 / 8192)).assured = false)) ∧
    (let r := zWrite 0 1
     let s := withReq r
     let s : State := { s with tier := { s.tier with fht := s.tier.fht.map fun e => if e.1 = 100 then (e.1, { e.2 with assured := true, mirrorFrame := 200 }) else e } }
     s.dueLanding = [r] ∧
      (let q := s.lineRef (s.extt r.banks 0x3FFFF) 0
       s.lineAt q.1 q.2.1 = some (100 * 8192) ∧ (s.fhtOf (100 * 8192 / 8192)).assured = true ∧
        (s.fhtOf (100 * 8192 / 8192)).mirrorFrame * 8192 + q.2.1 ≠ 100 * 8192)) ∧
    (let r := zWrite 16383 15
     let s : State := withReq { r with ctx := 2 }
     s.dueLanding = [{ r with ctx := 2 }] ∧ s.ringOn RingId.evt.cfg = false ∧
      (let q := s.lineRef (s.extt r.banks 0x3FFFF) 16383
       s.lineAt q.1 q.2.1 = some (101 * 8192 + 8191) ∧ ((s.pkt r.banks q.1).1 && (s.ctxt r.banks 2).keyOk (s.pkt r.banks q.1).2 true) = false)) := by
  refine ⟨by decide +kernel, by decide +kernel, by decide +kernel, by decide +kernel⟩

/-! ### The charges of a host-address descriptor fit: what `decide` cannot count in reasonable time -/

/-- Units that a list of charges takes of a resource in a tick. -/
def unitsOf (ns : List Need) (r : Res) (u : Nat) : Nat := ((ns.filter fun n => decide (n.res = r ∧ n.use' = u)).map (·.units)).sum

theorem unitsOf_append (a b : List Need) (r : Res) (u : Nat) : unitsOf (a ++ b) r u = unitsOf a r u + unitsOf b r u := by
  simp [unitsOf]

theorem unitsOf_cons (n : Need) (b : List Need) (r : Res) (u : Nat) :
    unitsOf (n :: b) r u = (if n.res = r ∧ n.use' = u then n.units else 0) + unitsOf b r u := by
  unfold unitsOf; rw [List.filter_cons]; by_cases h : n.res = r ∧ n.use' = u <;> simp [h]

/-- A merged charge is one of the list's, with at most the list's units of its resource and tick. -/
theorem mem_mergeNeeds (ns : List Need) : ∀ (acc : List Need) (x : Need), x ∈ mergeNeeds acc ns →
    (∃ a ∈ acc, a.res = x.res ∧ a.use' = x.use' ∧ a.cap = x.cap ∧ x.units ≤ a.units + unitsOf ns x.res x.use') ∨
    (∃ n ∈ ns, n.res = x.res ∧ n.use' = x.use' ∧ n.cap = x.cap) ∧ x.units ≤ unitsOf ns x.res x.use' := by
  induction ns with
  | nil => intro acc x h; exact .inl ⟨x, by simpa [mergeNeeds] using h, rfl, rfl, rfl, by omega⟩
  | cons n r ih =>
    intro acc x h
    unfold mergeNeeds at h
    have e := unitsOf_cons n r x.res x.use'
    by_cases h0 : n.units = 0
    · rw [if_pos h0] at h
      have e : unitsOf (n :: r) x.res x.use' = unitsOf r x.res x.use' := by rw [e, h0]; simp
      rcases ih acc x h with ⟨a, ha, h1, h2, h3, h4⟩ | ⟨⟨m, hm, h1⟩, h4⟩
      · exact .inl ⟨a, ha, h1, h2, h3, by omega⟩
      · exact .inr ⟨⟨m, List.mem_cons_of_mem _ hm, h1⟩, by omega⟩
    · rw [if_neg h0] at h
      split at h
      · rcases ih _ x h with ⟨a, ha, h1, h2, h3, h4⟩ | ⟨⟨m, hm, h1⟩, h4⟩
        · obtain ⟨b, hb, rfl⟩ := List.mem_map.mp ha
          refine .inl ⟨b, hb, ?_⟩
          by_cases k : b.res = n.res ∧ b.use' = n.use'
          · simp only [k, and_self, if_true] at h1 h2 h3 h4
            rw [if_pos ⟨h1, h2⟩] at e
            exact ⟨k.1.trans h1, k.2.trans h2, h3, by omega⟩
          · simp only [k, if_false] at h1 h2 h3 h4
            exact ⟨h1, h2, h3, by omega⟩
        · exact .inr ⟨⟨m, List.mem_cons_of_mem _ hm, h1⟩, by omega⟩
      · rcases ih _ x h with ⟨a, ha, h1, h2, h3, h4⟩ | ⟨⟨m, hm, h1⟩, h4⟩
        · rcases List.mem_append.mp ha with ha | ha
          · exact .inl ⟨a, ha, h1, h2, h3, by omega⟩
          · rw [List.mem_singleton] at ha; subst ha
            rw [if_pos ⟨h1, h2⟩] at e
            exact .inr ⟨⟨a, List.mem_cons_self, h1, h2, h3⟩, by omega⟩
        · exact .inr ⟨⟨m, List.mem_cons_of_mem _ hm, h1⟩, by omega⟩

/-- Charges of different resources, each of at most `c` units. -/
theorem unitsOf_nodup {ns : List Need} {c : Nat} (h : (ns.map (·.res)).Nodup) (hc : ∀ n ∈ ns, n.units ≤ c) (r : Res) (u : Nat) : unitsOf ns r u ≤ c := by
  induction ns with
  | nil => simp [unitsOf]
  | cons n l ih =>
    rw [List.map_cons, List.nodup_cons] at h
    rw [unitsOf_cons]
    split
    · rename_i k
      have : unitsOf l r u = 0 := by
        have : (l.filter fun m => decide (m.res = r ∧ m.use' = u)) = [] :=
          List.filter_eq_nil_iff.mpr fun m hm e => h.1 (by rw [k.1, ← (of_decide_eq_true e).1]; exact List.mem_map_of_mem hm)
        (unfold unitsOf; rw [this]; rfl)
      have := hc n List.mem_cons_self; omega
    · have := ih h.2 fun m hm => hc m (List.mem_cons_of_mem _ hm); omega

/-- No charge of a resource. -/
theorem unitsOf_none {ns : List Need} {r : Res} (h : ∀ n ∈ ns, n.res ≠ r) (u : Nat) : unitsOf ns r u = 0 := by
  have : (ns.filter fun m => decide (m.res = r ∧ m.use' = u)) = [] := List.filter_eq_nil_iff.mpr fun m hm e => h m hm (of_decide_eq_true e).1
  (unfold unitsOf; rw [this]; rfl)

theorem stackSlots_nodup (st u n : Nat) : ((stackSlots st u n).map (·.res)).Nodup := by
  rw [stackSlots, List.map_map]
  exact (List.nodup_range).map fun a b h => by simpa using h

theorem hostSlots_nodup (u n : Nat) : (((List.range 24).flatMap fun i => stackSlots i u n).map (·.res)).Nodup := by
  rw [List.map_flatMap, List.nodup_flatMap]
  refine ⟨fun i _ => stackSlots_nodup i u n, ?_⟩
  refine (List.nodup_range).imp ?_
  intro a b hab r ha hb
  simp only [stackSlots, List.map_map, List.mem_map] at ha hb
  obtain ⟨_, _, rfl⟩ := ha
  obtain ⟨_, _, e⟩ := hb
  simp only [Function.comp_apply, Res.hbm.injEq] at e
  exact hab e.1.symm

/-- The charges of a HOST_BULK of one line at address 0 from parcel 5 into the host's memory, on tile 0. -/
def hostNeeds : List Need :=
  ((List.range 24).flatMap fun i => stackSlots i 1003 1) ++ stackSlots 0 1003 1 ++
    [⟨.link 0 1, 1003, 256, none⟩, ⟨.link 0 2, 1003, 256, none⟩, ⟨.link 0 3, 1003, 256, none⟩] ++ [⟨.walk 0, 1002, 2, none⟩]

/-- The most units that those charges take of one resource. -/
def hostMost : Res → Nat
  | .hbm .. => 2 | .link .. => 256 | .walk _ => 2 | _ => 0

theorem stack_units (st : Nat) : ∀ n ∈ stackSlots st 1003 1, n.units ≤ 1 := by
  intro n hn; obtain ⟨i, _, rfl⟩ := List.mem_map.mp hn; exact (by decide : cdiv 1 64 ≤ 1)

theorem hostNeeds_most (r : Res) (u : Nat) : unitsOf hostNeeds r u ≤ hostMost r := by
  have h1 := unitsOf_nodup (hostSlots_nodup 1003 1) (c := 1) (fun n hn => by
    obtain ⟨i, _, hi⟩ := List.mem_flatMap.mp hn; exact stack_units i n hi) r u
  have h2 := unitsOf_nodup (stackSlots_nodup 0 1003 1) (c := 1) (stack_units 0) r u
  have a1 : ∀ n ∈ ((List.range 24).flatMap fun i => stackSlots i 1003 1) ++ stackSlots 0 1003 1, ∃ i j, n.res = .hbm i j := by
    intro n hn
    rcases List.mem_append.mp hn with hn | hn
    · obtain ⟨i, _, hi⟩ := List.mem_flatMap.mp hn; obtain ⟨j, _, rfl⟩ := List.mem_map.mp hi; exact ⟨_, _, rfl⟩
    · obtain ⟨j, _, rfl⟩ := List.mem_map.mp hn; exact ⟨_, _, rfl⟩
  have h12 := unitsOf_append ((List.range 24).flatMap fun i => stackSlots i 1003 1) (stackSlots 0 1003 1) r u
  have h3 := unitsOf_nodup (ns := [⟨.link 0 1, 1003, 256, none⟩, ⟨.link 0 2, 1003, 256, none⟩, ⟨.link 0 3, 1003, 256, none⟩]) (c := 256) (by decide) (by decide) r u
  have h4 := unitsOf_nodup (ns := [⟨.walk 0, 1002, 2, none⟩]) (c := 2) (by decide) (by decide) r u
  unfold hostNeeds
  rw [unitsOf_append, unitsOf_append]
  have z : (∀ i j, r ≠ .hbm i j) → unitsOf (((List.range 24).flatMap fun i => stackSlots i 1003 1) ++ stackSlots 0 1003 1) r u = 0 := fun k =>
    unitsOf_none (fun n hn e => by obtain ⟨i, j, h⟩ := a1 n hn; exact k i j (e ▸ h)) u
  have z3 : (∀ i j, r ≠ .link i j) → unitsOf [⟨.link 0 1, 1003, 256, none⟩, ⟨.link 0 2, 1003, 256, none⟩, ⟨.link 0 3, 1003, 256, none⟩] r u = 0 := fun k =>
    unitsOf_none (fun n hn e => by simp only [List.mem_cons, List.not_mem_nil, or_false] at hn; rcases hn with rfl | rfl | rfl <;> exact k _ _ e.symm) u
  have z4 : (∀ i, r ≠ .walk i) → unitsOf [⟨.walk 0, 1002, 2, none⟩] r u = 0 := fun k =>
    unitsOf_none (fun n hn e => by simp only [List.mem_cons, List.not_mem_nil, or_false] at hn; subst hn; exact k _ e.symm) u
  cases r
  case hbm => have := z3 (by simp); have := z4 (by simp); simp only [hostMost]; omega
  case link => have := z (by simp); have := z4 (by simp); simp only [hostMost]; omega
  case walk => have := z (by simp); have := z3 (by simp); simp only [hostMost]; omega
  all_goals have := z (by simp); have := z3 (by simp); have := z4 (by simp); omega

/-- With nothing claimed, what is left of a pseudo-channel is the tile's part of its stack's slots. -/
theorem left_hbm {s : State} (h : s.adm.claims = []) (hh st pc u : Nat) (hn : (splitTick s.tick u).2 = false) :
    s.left hh (.hbm st pc) u none = partOf (st / 6) hh (s.sharesAt (splitTick s.tick u).1 (st / 6) 0) (s.throttled (20 * s.tim.periodQ) u) := by
  simp [State.left, State.claimed, h, hn, State.capacity, Res.owner, Res.cls]

/-- Charges that find enough left of each resource fit. -/
theorem short_nil {s : State} {h : Nat} {ns : List Need} (hs : ∀ n ∈ ns, (splitTick s.tick n.use').2 = false)
    (hl : ∀ n ∈ ns, unitsOf ns n.res n.use' ≤ s.left h n.res n.use' n.cap) : s.short h (mergeNeeds [] ns) = [] := by
  refine List.filter_eq_nil_iff.mpr fun x hx => ?_
  rcases mem_mergeNeeds ns [] x hx with ⟨a, ha, _⟩ | ⟨⟨n, hn, h1, h2, h3⟩, h4⟩
  · exact absurd ha (by simp)
  · have k := hl n hn
    rw [h1, h2, h3] at k
    have f := hs n hn
    rw [h2] at f
    simp only [f, decide_eq_true_eq, Bool.false_eq_true, if_false]
    cases hx' : x.res <;> rw [hx'] at k h4 <;> simp only <;> omega

/-- A first chunk that holds all of the rest and fits is placed at once. -/
theorem planChunks_one {s : State} {h u f off : Nat} {c : ChunkPlan} {g : Nat × Nat} {n : List Need × List Nat × List Need}
    (h1 : off < c.total) (h2 : c.cands off = [g]) (h3 : c.need (s.left h) off g.1 g.2 u = n) (h4 : s.short h (mergeNeeds [] n.1) = []) (h6 : n.2.2 = [])
    (h5 : c.total ≤ off + 256 * g.1) : ∃ pl, s.planChunks h c (f + 2) u off = .inl pl := by
  have h4' : chunkShort (s.left h) s.tick n = [] := by unfold chunkShort; rw [h6, List.append_nil]; exact h4
  have e : ∃ pl, s.placeChunks (s.left h) c (f + 2) u off {} = (true, pl) := by
    rw [State.placeChunks, if_neg (by omega), h2]
    simp only [List.map_cons, List.map_nil, h3, List.find?_cons, h4', List.isEmpty_nil]
    rw [State.placeChunks, if_pos h5]
    exact ⟨_, rfl⟩
  obtain ⟨pl, e⟩ := e
  exact ⟨pl, by unfold State.planChunks; rw [e]⟩

/-- `licZ` with the host's context 2 of every right and key 1, translated in four levels from address 0x80010000, where the first entry is `pte`. -/
def licB (pte : Word) : State := put (putE licZ .ctxt 2 [0x7 ||| place 35 16 0x777, 0x80010, 1, 0, 0xFF0003]) 0x80010000 [pte]

/-- The descriptor: one line from parcel 5 to host address 0. -/
def hostD (len : Nat) : HostDesc := ⟨0, 7, false, 2, 0, ptrTo 0x3FFFF 0, len, false⟩

theorem hostNeeds_fit {s : State} (hc : s.adm.claims = []) (ht : s.tick = 1000)
    (hh : ((List.range 24).all fun st => decide (2 ≤ partOf (st / 6) 0 (s.sharesAt 1000 (st / 6) 0) (s.throttled (20 * s.tim.periodQ) 1003))) = true)
    (hk : (([⟨.link 0 1, 1003, 256, none⟩, ⟨.link 0 2, 1003, 256, none⟩, ⟨.link 0 3, 1003, 256, none⟩, ⟨.walk 0, 1002, 2, none⟩] : List Need).all fun n =>
      decide (n.units ≤ s.left 0 n.res n.use' n.cap)) = true) : s.short 0 (mergeNeeds [] hostNeeds) = [] := by
  have mem : ∀ n ∈ hostNeeds, (∃ st pc, st < 24 ∧ n = ⟨.hbm st pc, 1003, 1, none⟩) ∨
      n ∈ ([⟨.link 0 1, 1003, 256, none⟩, ⟨.link 0 2, 1003, 256, none⟩, ⟨.link 0 3, 1003, 256, none⟩, ⟨.walk 0, 1002, 2, none⟩] : List Need) := by
    intro n hn
    simp only [hostNeeds, List.mem_append, List.mem_flatMap, List.mem_range, stackSlots, List.mem_map] at hn
    rcases hn with ((⟨i, hi, j, _, rfl⟩ | ⟨j, _, rfl⟩) | hn) | hn
    · exact .inl ⟨i, j, hi, rfl⟩
    · exact .inl ⟨0, j, by decide, rfl⟩
    all_goals right; simp only [List.mem_cons, List.not_mem_nil, or_false] at hn ⊢; tauto
  refine short_nil (fun n hn => ?_) (fun n hn => ?_)
  · rcases mem n hn with ⟨_, _, _, rfl⟩ | h
    · rw [ht]; exact (by decide : (splitTick 1000 1003).2 = false)
    · simp only [List.mem_cons, List.not_mem_nil, or_false] at h
      rcases h with rfl | rfl | rfl | rfl <;> rw [ht] <;> decide
  · refine Nat.le_trans (hostNeeds_most n.res n.use') ?_
    rcases mem n hn with ⟨st, pc, hst, rfl⟩ | h
    · have := List.all_eq_true.mp hh st (List.mem_range.mpr hst)
      have e := left_hbm hc 0 st pc 1003 (by rw [ht]; decide)
      rw [ht] at e
      rw [e]
      exact of_decide_eq_true this
    · have := of_decide_eq_true (List.all_eq_true.mp hk n h)
      simp only [List.mem_cons, List.not_mem_nil, or_false] at h
      rcases h with rfl | rfl | rfl | rfl <;> exact this

theorem host_accepted {s : State} (h0 : (s.takeCopies 0 (s.hostTables (hostD 256) 0)).1 = .ok) (h3 : s.hostTile (hostD 256) 0 = 0)
    (hu : let u := (s.takeCopies 0 (s.hostTables (hostD 256) 0)).2
      u.hostEnd (hostD 256) = none ∧ (u.stopped || !u.headgateRuns) = false ∧ u.hostCut 0 0 0 0 256 0 = [(1, 2)] ∧
        (u.parcelOf (u.extt u.banks 0x3FFFF) 0).2 = 0 ∧ u.tick = 1000)
    (h8 : let u := (s.takeCopies 0 (s.hostTables (hostD 256) 0)).2; u.short 0 (mergeNeeds [] hostNeeds) = []) :
    (s.admitHost (hostD 256) 0).1 = .accepted := by
  obtain ⟨h1, h2, h5, h6, h7⟩ := hu
  have hp : ptrOf (hostD 256).ptr = .at' 0x3FFFF 0 := by decide
  unfold State.admitHost
  simp only [h3, h0, h1, h2, hp, Bool.false_eq_true, if_false]
  generalize (s.takeCopies 0 (s.hostTables (hostD 256) 0)).2 = u at *
  unfold State.placeHost
  have ht : tadd u.tick 3 = 1003 := by rw [h7]; decide
  obtain ⟨pl, e⟩ := planChunks_one (s := u) (h := 0) (u := 1003) (f := 4091) (off := 0) (c := u.hostPlan 0 (hostD 256) (u.extt u.banks 0x3FFFF) 0 0) (g := (1, 2))
    (n := (hostNeeds, [], [])) (show 0 < 256 by decide) h5 (by simp only [State.hostPlan, Nat.zero_add, h6]; rfl) h8 rfl (show 256 ≤ 256 by decide)
  rw [ht, show (4093 : Nat) = 4091 + 2 from rfl]
  simp only [e, show (hostD 256).toPool = false from rfl, Bool.false_eq_true, if_false]
  rfl

/-- The ring entry of a HOST_BULK of `n` bytes from parcel 5 to host address 0. -/
def hostE (n : Word) : Entry := { entW 2 0 (ptrTo 0x3FFFF 0) n 0 with flags := 1 }

/-- A HOST_BULK that is taken. -/
def hostS : State := (licB 0xC7).taken.journal 0x50 (hostE 256) .none (.bulk 0) 0

theorem hostS_accepts : (hostS.admitHost (hostD 256) 0).1 = .accepted :=
  host_accepted (by decide +kernel) (by decide +kernel) (by decide +kernel)
    (hostNeeds_fit (by decide +kernel) (by decide +kernel) (by decide +kernel) (by decide +kernel))

/-- A parked descriptor of request 1, with its retry tick. -/
def parked1 (len resume : Nat) (t : Option Nat) : Parked := ⟨{ reqZ 900 (.hostBulk 0 7 false 0 (ptrTo 0x3FFFF 0) len) with ctx := 2 }, 0, resume, none, t⟩

/-- `licB` with it. -/
def withParked (q : Parked) : State := { licB 0xC7 with xlt := { (licB 0xC7).xlt with parked := [q] } }

/-- The descriptor is the one to be taken again, and is that of its request. -/
def foundP (q : Parked) (d : HostDesc) : Bool := decide ((withParked q).readmitOrder = [q] ∧ q.req.rid = 1 ∧ q.req.desc = some d)

set_option maxRecDepth 100000 in
theorem witness_HostDescriptorsAreAdmitted :
    (let e := hostE 256
     let s := licB 0xC7
     let wf := { e with flags := e.flags &&& 0xFE }.rsvOk 0xFFFF (~~~0) (~~~0) (mask 35 0) 0 0 0 0
     let d : HostDesc := ⟨e.ring, e.tag, !(e.flags.getLsbD 0), e.arg.toNat, e.w1, e.w2, bits e.w3 35 0, !wf⟩
     s.admitsCommand 0x50 true true (.ctx e.arg.toNat) true ∧ ((s.taken.journal 0x50 e .none (.bulk 0) 0).admitHost d 0).1 = .accepted) ∧
    (∀ e ∈ [hostE 255, { hostE 256 with w7 := 1 }],
     let s := licB 0xC7
     let wf := { e with flags := e.flags &&& 0xFE }.rsvOk 0xFFFF (~~~0) (~~~0) (mask 35 0) 0 0 0 0
     let d : HostDesc := ⟨e.ring, e.tag, !(e.flags.getLsbD 0), e.arg.toNat, e.w1, e.w2, bits e.w3 35 0, !wf⟩
     s.admitsCommand 0x50 true true (.ctx e.arg.toNat) true ∧ ((s.taken.journal 0x50 e .none (.bulk 0) 0).admitHost d 0).1 ≠ .accepted) ∧
    -- no parked descriptor, one whose group has not resumed, one whose retry tick is to come
    (licZ.readmitOrder.any fun q => decide (q.req.rid = 1)) = false ∧
    (∀ t ∈ [none, some 1001], ((withParked (parked1 256 0 t)).readmitOrder.any fun q => decide (q.req.rid = 1)) = false) ∧
    foundP (parked1 256 256 (some 1000)) (hostD 256) = true ∧ foundP (parked1 255 0 (some 999)) (hostD 255) = true ∧
    ((withParked (parked1 256 256 (some 1000))).admitHost (hostD 256) (parked1 256 256 (some 1000)).resume).1 = .accepted ∧
    ((withParked (parked1 255 0 (some 1000))).admitHost (hostD 255) 0).1 = .ends stBadFormat 0 0 ∧
    (regs (withParked (parked1 256 0 (some 1000))) [(rOff .hdg 0 0x200, 2)]).stopped = true ∧
    (regs (withParked (parked1 256 0 (some 1000))) [(rOff .hdg 0 0x200, 2)]).readmitOrder = [parked1 256 0 (some 1000)] ∧
    ((regs (withParked (parked1 256 0 (some 1000))) [(rOff .hdg 0 0x200, 2)]).admitHost (hostD 256) 0).1 = .refused 0xE := by
  refine ⟨⟨by unfold State.admitsCommand; decide +kernel, hostS_accepts⟩, by unfold State.admitsCommand; decide +kernel, ?_, ?_, ?_, ?_, ?_, ?_, ?_, ?_, ?_⟩ <;> decide +kernel

/-- A HOST_BULK of one line of parcel 5, request 1, its one chunk given. -/
def reqH (tp : Bool) (c : Chunk) : Req := { reqZ 900 (.hostBulk 0 7 tp 0x80000000 (ptrTo 0x3FFFF 0) 256) with ctx := 2, tile := 0, egress := none, chunks := [c] }

/-- `licB` with that request, its root page at `root`. -/
def withHost (root : Word) (pte : Word) (r : Req) : State :=
  let s := putE (licB pte) .ctxt 3 [0x7 ||| place 35 16 0x777 ||| place 51 36 5, root, 1, 0, 0xFF0003]
  { s with adm := { s.adm with reqs := [{ r with ctx := 3 }] } }

/-- The chunk of the next tick. -/
def chunkN : Chunk := { tick := 1001, off := 0, lines := 1, pages := 2 }

/-- The walk of that chunk. -/
def walkOf (s : State) (r : Req) : List Nat × Option (Nat × WalkEnd) × State := s.walkChunk 0 0 (s.ctxt r.banks 3) true 0x80000000 256

/-- The request of a walk, as the statement meets it. -/
def walks (s : State) (r : Req) : Bool :=
  decide (s.reqOf 1 = some r ∧ r.desc = some ⟨0, 7, false, 3, 0x80000000, ptrTo 0x3FFFF 0, 256, false⟩ ∧
    r.chunks.find? (fun c => decide (c.tick = tadd s.tick 1) && !c.walked) = some chunkN)

theorem witness_WalksFaultIntoGroups :
    (let r := { reqH false chunkN with ctx := 3 }
     let s := withHost 0x80010 0xC7 r
     walks s r = true ∧ (walkOf s r).2.1 = none) ∧
    (let r := { reqH false chunkN with ctx := 3 }
     let s := withHost 0xFFFFFFF 0xC7 r
     walks s r = true ∧ (walkOf s r).2.1 = some (0x80000000, .fault 6 3 0) ∧
      r.chunks.find? (fun c => decide (c.tick = s.tick) && !c.done) = none) ∧
    (let r := { reqH false chunkN with ctx := 3 }
     let s := withHost 0x80010 0 r
     walks s r = true ∧ (walkOf s r).2.1 = some (0x80000000, .fault 1 3 0) ∧ (s.xlt.parked.filter fun q => decide (q.tile = chunkN.tile)).length < 8192 ∧
      (s.groupsOn chunkN.tile).length < 4096 ∧ (walkOf s r).2.2.fqFull chunkN.tile = false ∧ s.xlt.groups.find? (fun g => decide (g.tile = chunkN.tile ∧
        g.asid.toNat = (s.ctxt r.banks r.ctx.toNat).asid ∧ g.page = 0x80000000 / 4096 ∧ g.write = true)) = none) ∧
    (let r := { reqH false chunkN with ctx := 3 }
     let s := withHost 0x80010 0xC7 r
     let s := s.setMeta ((s.regionPhys 0x80010000).getD 0 / 256) { poison := true }
     walks s r = true ∧ (walkOf s r).2.1 = some (0x80000000, .poison) ∧ r.chunks.find? (fun c => decide (c.tick = s.tick) && !c.done) = none) ∧
    (∀ g ∈ licG.groupsOn (3 : Fin 4), g.written = true) ∧
    (let s : State := { licG with xlt := { licG.xlt with groups := [{ grp with written := false }] } }
     s.xlt.groups = [{ grp with written := false }] ∧ grp.tile = (3 : Fin 4).val ∧
      (let s := regs s [(rOff .xlt 3 0x200, 0x10010000000)]
       s.ringOn RingId.evt.cfg = false ∧
        s.placed (s.fld (rOff .xlt (3 : Fin 4) 0x200) 51 12 * 4096 + s.fld (rOff .xlt (3 : Fin 4) 0x208) 12 0 % 4096 * 32) 32)) ∧
    (∀ g ∈ licG.groupsOn (3 : Fin 4), g.closing = none) ∧
    (∀ ab : Bool, let g := { grp with closing := some (ab, 999) }
     ({ licG with xlt := { licG.xlt with groups := [g] } } : State).xlt.groups = [g] ∧ g.tile = (3 : Fin 4).val ∧ later licG.tick 999 = true) := by
  refine ⟨?_, ?_, ?_, ?_, ?_, ⟨by decide +kernel, by decide +kernel, by decide +kernel, ?_⟩, ?_, ?_⟩
  rotate_left 5
  · exact inCtl 0x10010000000 0 0x10000000 (by decide +kernel) (by decide +kernel) (by decide) (by decide)
  all_goals decide +kernel

/-- A chunk of this tick, its page walked. -/
def chunkT : Chunk := { tick := 1000, off := 256, lines := 1, pages := 2, walked := true, pas := [0x80000000] }

/-- A Bulk request in its second line, context 1 or 2. -/
def reqB (c : BitVec 16) (w : Work) : Req := { reqZ 900 w with ctx := c, cls := .bulk, chunks := [chunkT], moved := 256, pct := 1000 }

theorem witness_BulkMovesChunkByChunk :
    licZ.reqOf 1 = none ∧
    (let r := { reqB 1 (.bulkRead (ptrTo 0x3FFFF 0) 512 [] [] 0) with chunks := [{ chunkT with done := true }], pct := 1001 }
     (withReq r).reqOf 1 = some r ∧ (∀ c ∈ r.chunks, c.tick = (withReq r).tick → c.done = true) ∧ r.pct ≠ (withReq r).tick) ∧
    (let r := reqB 1 (.bulkRead (ptrTo 0x3FFFF 0) 512 [] [] 0)
     let s := withReq r
     s.reqOf 1 = some r ∧ r.chunks.find? (fun c => decide (c.tick = s.tick) && !c.done) = some chunkT ∧ ptrOf (ptrTo 0x3FFFF 0) = .at' 0x3FFFF 0 ∧
      r.egress = some 31 ∧ chunkT.lines ≠ 0 ∧ s.keyStop r (s.extt r.banks 0x3FFFF) (0 + chunkT.off) 256 false = none) ∧
    (let r := reqB 1 (.bulkCopy (ptrTo 0x3FFFF 0) (ptrTo 0x3FFFF 0x200000) 512)
     let s := withReq r
     s.reqOf 1 = some r ∧ r.chunks.find? (fun c => decide (c.tick = s.tick) && !c.done) = some chunkT ∧
      ptrOf (ptrTo 0x3FFFF 0x200000) = .at' 0x3FFFF 0x200000 ∧ s.keyStop r (s.extt r.banks 0x3FFFF) (0 + chunkT.off) 256 false = none ∧
      s.keyStop r (s.extt r.banks 0x3FFFF) (0x200000 + chunkT.off) 256 true = none ∧ r.pct = s.tick ∧ r.egress.isSome = true ∧ s.sentAlready r = false) ∧
    (∀ tp : Bool, let r := reqB 1 (.hostBulk 0 7 tp 0 (ptrTo 0x3FFFF 0) 512)
     let s := withReq r
     s.reqOf 1 = some r ∧ r.chunks.find? (fun c => decide (c.tick = s.tick) && !c.done) = some chunkT ∧ chunkT.walked = true ∧
      s.keyStop r (s.extt r.banks 0x3FFFF) (0 + chunkT.off) 256 tp = none ∧
      s.keyStop { r with ctx := 2 } (s.extt r.banks 0x3FFFF) (0 + chunkT.off) 256 tp ≠ none) ∧
    (let r := { reqB 1 (.hostBulk 0 7 true 0 (ptrTo 0x3FFFF 0) 256) with chunks := [] }
     (withReq r).reqOf 1 = some r ∧ r.pct = (withReq r).tick ∧ r.moved = 256) := by decide +kernel

/-- A reply of one block for 0x777. -/
def replyE : EgressPkt := ⟨pkt 0x21 [0] 0x777, .reply, 0, 1, 0, 1000, 0, 0, 1, none, true, 1000, false⟩

/-- A result of request 1 for 0x777, to be sent in tick `u`. -/
def resultE (u : Nat) : EgressPkt := ⟨pkt 0x20 [0] 0x777, .admitted, 0, 1, 0, u, 0, 0, 1, some 1, true, 1000, false⟩

/-- `licP` with a packet on port 31, `n` blocks unacknowledged. -/
def sending (l : List EgressPkt) (n : Nat) : State :=
  let s := licP.setSched 31 { licP.sched 31 with queue := l }
  s.setLink 31 { s.link 31 with unacked := List.replicate n ⟨blk 0 0 247, 0, 0⟩ }

/-- The packet chosen in a state at the start of its tick. -/
def chosen (s : State) : Option (Nat × EgressPkt) := ((s.dropStale 31).fillTokens 31 (s.tick * s.periodNs + 0)).nextPacket 31 0 (s.tick * s.periodNs + 0)

set_option maxRecDepth 100000 in
theorem witness_PacketsAreSentByClass :
    (licP.linkState (30 : Fin 32) ≠ 4 ∧ (sending [] 0).linkState (31 : Fin 32) = 4 ∧ (sending [] 0).portsStopped = false) ∧
    chosen (sending [] 0) = none ∧ (sending [replyE] 0).linkState (31 : Fin 32) = 4 ∧ (sending [replyE] 0).portsStopped = false ∧
    chosen (sending [replyE] 2048) = some (2, replyE) ∧ 2048 < ((sending [replyE] 2048).link (31 : Fin 32)).unacked.length + replyE.blocks ∧
    chosen (sending [replyE] 2047) = some (2, replyE) ∧ ((sending [replyE] 2047).link (31 : Fin 32)).unacked.length + replyE.blocks ≤ 2048 ∧
    replyE.cls ≠ .beacon ∧
    (∀ r ∈ licP.adm.reqs, r.egress = some (31 : Fin 32).val → ((licP.sched (31 : Fin 32)).queue.any fun e => decide (e.rid = some r.rid)) = true →
      tle r.pct licP.tick = false) ∧
    (let r := reqZ 997 (.read 0x3FFFF 0 8 [] 0 true)
     let s : State := { sending [resultE 1000] 0 with adm := { licP.adm with reqs := [r] } }
     s.adm.reqs = [r] ∧ r.egress = some (31 : Fin 32).val ∧ ((s.sched (31 : Fin 32)).queue.any fun e => decide (e.rid = some r.rid)) = true ∧
      tle r.pct s.tick = true ∧ r.work.lands = false) := by
  refine ⟨?_, ?_, ?_, ?_, ?_, ?_, ?_, ?_, ?_, ?_, ?_⟩ <;> decide +kernel

/-- `licZ` with flash, parcel 5's frame 100 holding line 16 in state `v`. -/
def tierZ (v : LineSt) : State :=
  let s := regs licZ [(0x1200, 0x3E1)]
  { s with
    tier := { s.tier with
      lsm := [(100 * 8192 + 16, v)],
      fht := [(100, { st := .pinned, parcel := 5, dirtyLines := if v = .dirty then 1 else 0, firstDirty := 900 }), (101, { st := .pinned, parcel := 6 })] } }

/-- A background fetch of parcel 5's group 1, its sector in. -/
def fetchZ : Fetch := { parcel := 5, group := 1, refetch := false, lines := [], started := 995, sensed := some 996, left := 0 }

/-- With that fetch. -/
def fetching : State := { tierZ .clean with tier := { (tierZ .clean).tier with fetches := [fetchZ] } }

/-- A dirty group with `n` bytes booked for tile 0, at the head of the Ebb order. -/
def ebbing (n : Nat) : State :=
  { tierZ .dirty with tier := { (tierZ .dirty).tier with ebbHead := [100], ebbLevel := [(0 * tickMod + 1000, n)] } }

/-- `ebbing` with the head of its order cleared of clean frames. -/
def ebbing' (n : Nat) : State :=
  { ebbing n with tier := { (ebbing n).tier with ebbHead := (ebbing n).tier.ebbHead.filter fun f => decide (((ebbing n).fhtOf f).dirtyLines ≠ 0) } }

theorem ebb_order : (((ebbing' 16).ebbFrames 0).flatMap fun f => ((ebbing' 16).dirtyGroups f).map fun g => (((ebbing' 16).fhtOf f).parcel, g)) = [(5, 1)] := by
  have h : (ebbing' 16).ebbFrames 0 = [100] := by
    unfold State.ebbFrames
    have h1 : ((ebbing' 16).tier.fht.filter fun e => decide (e.1 / 32768 / 6 = 0 ∧ e.2.dirtyLines ≠ 0)).map (·.1) = [100] := by decide +kernel
    have h2 : (ebbing' 16).tier.ebbHead = [100] := by decide +kernel
    rw [h1, h2]
    have h3 : (([100] : List Nat).filter fun f => !(([100] : List Nat).filter ([100] : List Nat).contains).contains f) = [] := by decide
    simp only [h3, List.mergeSort_nil, List.append_nil]
    decide
  have g : (ebbing' 16).dirtyGroups 100 = [1] := by
    unfold State.dirtyGroups
    have h1 : (((ebbing' 16).tier.lsm.filter fun e => decide (e.1 / 8192 = 100 ∧ e.2 = .dirty)).map fun e => e.1 % 8192 / 16).dedup = [1] := by decide +kernel
    rw [h1, List.mergeSort_singleton]
  rw [h, List.flatMap_cons, List.flatMap_nil, g]
  decide +kernel

/-- A program of parcel 5's group 1 with `n` bytes to go. -/
def progZ (n : Nat) (gen : BitVec 16) : Program := ⟨0, 5, 1, [16], List.replicate 4096 7, 0, gen, n, 0, 0, 0, false⟩

/-- A state with a program under way. -/
def underWay (s : State) (r : Program) : State := { s with tier := { s.tier with programs := [r] } }

theorem underWay_regs (s : State) (r : Program) : (underWay s r).regs = s.regs := rfl
theorem underWay_programs (s : State) (r : Program) : (underWay s r).tier.programs = [r] := rfl

/-- Stripe 1 of tile 0's set A, its parity at position 1, with the sectors of `used` programmed. -/
def stripeZ (used : List Nat) : Stripe := { set := 0, n := 1, sites := (List.range 8).map fun i => (8 * i + 5, 9), used := used }

/-- All data sectors but the first. -/
def allBut : List Nat := [1, 2, 3] ++ (List.range 24).map (8 + ·)

/-- `tierZ` with a program under way and that stripe open. -/
def programming (r : Program) (used : List Nat) : State :=
  let s := tierZ .cleaning
  underWay { s with tier := { s.tier with stripes := [stripeZ used] } } r

/-- A stored group 1 of parcel 5 on die 5. -/
def stored1 (r : FGroup) : State :=
  let s := tierZ .cleaning
  { s with tier := { s.tier with fgroups := [(5 * 512 + 1, r)], ebbLevel := [(0 * tickMod + 1000, 4096)] } }

/-- The record. -/
def rec1 : FGroup := { stored := true, die := 5, page := 9, sector := 3 }

/-- A rebuild of the page of that group, `n` bytes of it to program. -/
def jobZ (n : Nat) : Rebuild := { die := 5, page := 9, dies := [], ready := 1000, left := n }

/-- `stored1` with its sector failing, that rebuild and an open stripe. -/
def rebuilding (n : Nat) : State :=
  let s := stored1 rec1
  { s with tier := { s.tier with sectors := [(siteKey 5 9 3, { parcel := 5, groups := [(1, 0)], bad := true })], rebuilds := [jobZ n], stripes := [stripeZ []] } }

/-- A page on a channel is found where the first page of its first die can be programmed. -/
theorem sitePage_some {s : State} {own : Bool} {c : Nat} (h : s.pageUsable own (8 * c) 0 = true) : ∃ y, (s.sitePage own c).1 = some y := by
  unfold State.sitePage
  dsimp only
  split
  · exact ⟨_, rfl⟩
  · refine Option.isSome_iff_exists.mp (Option.ne_none_iff_isSome.mp fun hn => ?_)
    have h1 := List.findSome?_eq_none_iff.mp hn (8 * c) (List.mem_map.mpr ⟨0, by decide, rfl⟩)
    have h2 := List.find?_eq_none.mp (Option.map_eq_none_iff.mp h1) 0 List.mem_cons_self
    exact h2 h

theorem programming_meets (n : Nat) (g : BitVec 16) (u : List Nat) : (programming (progZ n g) u).tier.programs = [progZ n g] ∧
    (progZ n g).tile = (0 : Fin 4).val ∧ (progZ n g).bytes = n ∧ (progZ n g).read = 0 ∧ (progZ n g).gen = g ∧
    (programming (progZ n g) u).fld 0x5208 31 16 = 0 ∧ (progZ n g).chan / 16 = (0 : Fin 4).val ∧
    (programming (progZ n g) u).stripeFor (progZ n g).chan = [stripeZ u].find? fun x => decide (x.set = 0 / 8) && (x.slotFor (0 % 8)).isSome := by
  refine ⟨underWay_programs _ _, rfl, rfl, rfl, rfl, ?_, (show 0 / 16 = 0 by decide), rfl⟩
  have h : (tierZ .cleaning).fld 0x5208 31 16 = 0 := by decide +kernel
  unfold State.fld State.reg at h ⊢
  unfold programming
  rw [underWay_regs]
  exact h

/-- Some channel of tile 0 has booked bytes left when every one of them has. -/
theorem ebbChannel_some {s : State} (h : ∀ c < 16, 0 < s.ebbLeft c s.tick) : ∃ c, s.ebbChannel 0 = some c := by
  refine ⟨_, if_pos ?_⟩
  rw [Nat.mul_zero, Nat.zero_add]
  exact h _ (Nat.mod_lt _ (by decide))

/-- None has when none has. -/
theorem ebbChannel_none {s : State} (h : ∀ c < 16, s.ebbLeft c s.tick = 0) : s.ebbChannel 0 = none := by
  have h' : ∀ c < 16, ¬(0 < s.ebbLeft (16 * 0 + c) s.tick) := fun c hc => by rw [Nat.mul_zero, Nat.zero_add, h c hc]; decide
  unfold State.ebbChannel
  simp only [if_neg (h' _ (Nat.mod_lt _ (by decide)))]
  refine List.find?_eq_none.mpr fun c hc => ?_
  obtain ⟨i, hi, rfl⟩ := List.mem_map.mp hc
  rw [decide_eq_true_eq]
  exact h' i (List.mem_range.mp hi)

theorem some_channel {s : State} {t : Nat} (ht : t = 0) (h : ((List.range 16).all fun c => decide (0 < s.ebbLeft c s.tick)) = true) :
    ∃ c, s.ebbChannel t = some c := by
  subst ht
  exact ebbChannel_some fun c hc => of_decide_eq_true (List.all_eq_true.mp h c (List.mem_range.mpr hc))

theorem no_channel {s : State} {t : Nat} (ht : t = 0) (h : ((List.range 16).all fun c => decide (s.ebbLeft c s.tick = 0)) = true) :
    s.ebbChannel t = none := by
  subst ht
  exact ebbChannel_none fun c hc => of_decide_eq_true (List.all_eq_true.mp h c (List.mem_range.mpr hc))

/-- What the rebuild clauses of TheTierMovesGroups ask. -/
def rebuildMeets (s : State) (j : Rebuild) : Bool :=
  let r := s.fgroup 5 (1 : Fin 512)
  s.rsv.drain.isNone && s.hasFlash && r.stored && !r.lost && !s.staleGen (s.copyOf 5 (1 : Fin 512)) &&
    decide ((s.tier.rebuilds.find? fun j => decide (j.die = r.die ∧ j.page = r.page)) = some j) && j.dies.isEmpty && !later j.ready s.tick &&
    !s.secondBad r.die r.page && decide (r.sector < 4) && !s.dieFailed r.die && s.copyBad (s.copyOf 5 (1 : Fin 512)) &&
    decide (r.die / 8 = 0) && s.pageUsable false (8 * 0) 0

/-- What the clauses on a good stored group ask, its page not being rebuilt. -/
def storedMeets (s : State) : Bool :=
  let r := s.fgroup 5 (1 : Fin 512)
  s.rsv.drain.isNone && s.hasFlash && r.stored && !r.lost && !s.staleGen (s.copyOf 5 (1 : Fin 512)) && !s.copyBad (s.copyOf 5 (1 : Fin 512)) &&
    (s.tier.rebuilds.find? fun j => decide (j.die = r.die ∧ j.page = r.page)).isNone && !s.blockReset .tier &&
    !(s.sectorGroups 5 (1 : Fin 512)).any (s.underWay 5)

/-- `stored1` with nothing booked for the Ebb. -/
def unbooked : State := { stored1 rec1 with tier := { (stored1 rec1).tier with ebbLevel := [] } }

theorem fetching_meets :
    let s := fetching
    let f := fetchZ
    s.rsv.drain = none ∧ s.hasFlash = true ∧ s.tier.fetches = [f] ∧ f.parcel = 5 ∧ f.group = (1 : Fin 512).val ∧ f.refetch = false ∧ f.left = 0 ∧ f.todo = none ∧
      s.frameOf 5 = some 100 ∧ (s.fhtOf 100).assured = false ∧ s.staleGen (s.copyOf 5 (1 : Fin 512)) = false ∧ s.copyBad (s.copyOf 5 (1 : Fin 512)) = false ∧
      ((List.range 16).all fun i => decide (s.slotUsed 1 (stackOf (100 * 8192 + (16 + i))) (s.pcOf (100 * 8192 + (16 + i))) < s.share 2)) = true ∧
      s.resident 5 16 = true ∧ s.resident 5 17 = false := by decide +kernel

theorem ebbing_meets : (ebbing 16).rsv.drain = none ∧ (ebbing 16).hasFlash = true ∧ (ebbing 16).blockReset .tier = false ∧ (ebbing 16).tier.programs = [] ∧
    (∃ c, (ebbing' 16).ebbChannel (0 : Fin 4).val = some c) ∧
    (((ebbing' 16).ebbFrames (0 : Fin 4)).flatMap fun f => ((ebbing' 16).dirtyGroups f).map fun g => (((ebbing' 16).fhtOf f).parcel, g)).find?
      (fun c => (ebbing' 16).ebbCan c.1 c.2) = some (5, 1) := by
  refine ⟨by decide +kernel, by decide +kernel, by decide +kernel, by decide +kernel, some_channel rfl (by decide +kernel), ?_⟩
  rw [show ((0 : Fin 4) : Nat) = 0 from rfl, ebb_order]
  decide +kernel

/-- One that still has the old sector to read. -/
def readZ : Program := { progZ 0 0 with read := 1 }

theorem witness_TheTierMovesGroups :
    (licZ.hasFlash = false ∧ (tierZ .clean).rsv.drain = none ∧ (tierZ .clean).hasFlash = true ∧ ((tierZ .clean).fgroup 5 (1 : Fin 512)).stored = false) ∧
    (let s := fetching
     let f := fetchZ
     s.rsv.drain = none ∧ s.hasFlash = true ∧ s.tier.fetches = [f] ∧ f.parcel = 5 ∧ f.group = (1 : Fin 512).val ∧ f.refetch = false ∧ f.left = 0 ∧ f.todo = none ∧
      s.frameOf 5 = some 100 ∧ (s.fhtOf 100).assured = false ∧ s.staleGen (s.copyOf 5 (1 : Fin 512)) = false ∧ s.copyBad (s.copyOf 5 (1 : Fin 512)) = false ∧
      ((List.range 16).all fun i => decide (s.slotUsed 1 (stackOf (100 * 8192 + (16 + i))) (s.pcOf (100 * 8192 + (16 + i))) < s.share 2)) = true ∧
      s.resident 5 16 = true ∧ s.resident 5 17 = false) ∧
    ((ebbing 16).rsv.drain = none ∧ (ebbing 16).hasFlash = true ∧ (ebbing 16).blockReset .tier = false ∧ (ebbing 16).tier.programs = [] ∧
      (∃ c, (ebbing' 16).ebbChannel (0 : Fin 4).val = some c) ∧
      (((ebbing' 16).ebbFrames (0 : Fin 4)).flatMap fun f => ((ebbing' 16).dirtyGroups f).map fun g => (((ebbing' 16).fhtOf f).parcel, g)).find?
        (fun c => (ebbing' 16).ebbCan c.1 c.2) = some (5, 1)) ∧
    (∀ x ∈ ([(1, 0), (0, 1), (0, 0)] : List (Nat × BitVec 16)), ∀ u ∈ [[], allBut], let r := progZ x.1 x.2
     (programming r u).tier.programs = [r] ∧ r.tile = (0 : Fin 4).val ∧ r.bytes = x.1 ∧ r.read = 0 ∧ r.gen = x.2 ∧ (programming r u).fld 0x5208 31 16 = 0 ∧
      r.chan / 16 = (0 : Fin 4).val ∧
      (programming r u).stripeFor r.chan = [stripeZ u].find? fun x => decide (x.set = 0 / 8) && (x.slotFor (0 % 8)).isSome) ∧
    ((programming readZ []).tier.programs = [readZ] ∧ readZ.bytes = 0 ∧ readZ.read ≠ 0) ∧
    (∀ u ∈ [[], allBut], ([stripeZ u].find? fun x => decide (x.set = 0 / 8) && (x.slotFor (0 % 8)).isSome) = some (stripeZ u) ∧
      (stripeZ u).slotFor ((progZ 0 0).chan % 8) = some 0) ∧
    ((stripeZ []).used.length ≠ 27 ∧ (stripeZ allBut).used.length = 27 ∧ (stripeZ allBut).waiting = [] ∧ (progZ 0 0).moved = false ∧
      (progZ 0 0).data.length = 4096 ∧ (progZ 0 0).group < 512) ∧
    ((tierZ .clean).dieFailed (511 : Fin 512) = false ∧ (regs (tierZ .clean) [(rOff .fmc (fmcOf 511) 0x208, 0x80000000)]).dieFailed (511 : Fin 512) = true) ∧
    (storedMeets (stored1 rec1) = true ∧ ∃ c, (stored1 rec1).ebbChannel (((stored1 rec1).fgroup 5 (1 : Fin 512)).die / 128) = some c) ∧
    (storedMeets unbooked = true ∧ unbooked.ebbChannel ((unbooked.fgroup 5 (1 : Fin 512)).die / 128) = none) ∧
    ((∀ n ∈ [0, 1, 16384], rebuildMeets (rebuilding n) (jobZ n) = true) ∧ ∃ y, ((rebuilding 0).sitePage false 0).1 = some y) :=
  ⟨by decide +kernel, fetching_meets, ebbing_meets, fun x _ u _ => programming_meets x.1 x.2 u, ⟨underWay_programs _ _, rfl, by decide⟩, by decide +kernel,
    ⟨by decide, by decide, rfl, rfl, List.length_replicate, by decide⟩, by decide +kernel,
    ⟨by decide +kernel, some_channel (by decide +kernel) (by decide +kernel)⟩, ⟨by decide +kernel, no_channel (by decide +kernel) (by decide +kernel)⟩,
    by decide +kernel, sitePage_some (by decide +kernel)⟩

/-- A rewrite queued for the line at frame `f`, line 0. -/
def repZ (f : Nat) (d : Option (List Byte × Bool)) : Repair := ⟨0, 0, f * 8192, d⟩

/-- `licZ` with it, the Dredge of tile 0 on. -/
def repairing (f : Nat) (d : Option (List Byte × Bool)) : State :=
  let s := regs licZ [(rOff .drg 0 0x200, 3), (rOff .hmc 0 0x210, 1)]
  { s with hmc := { s.hmc with repairs := [repZ f d] } }

/-- A slot of stack 0's pseudo-channel 0 is left. -/
def slotLeft (s : State) : Bool :=
  decide (s.slotUsed 0 (0 : Fin 24) (0 : Fin 64) + s.slotUsed 1 (0 : Fin 24) (0 : Fin 64) + s.slotUsed 2 (0 : Fin 24) (0 : Fin 64) +
    s.slotUsed 3 (0 : Fin 24) (0 : Fin 64) + s.hostUsed (0 : Fin 24) (0 : Fin 64) < s.share 4 + s.share 2 + s.share 8 + s.share 6)

/-- `licZ` with the Dredge of tile 0 on or off. -/
def dredging (on : Bool) : State := regs licZ [(rOff .drg 0 0x200, if on then 3 else 0), (rOff .hmc 0 0x210, if on then 1 else 0)]

/-- A stored group in page 9 of die 5, the patrol of tile 0 on with page `k` of that die at its head and `n` bytes in. -/
def patrolling (k n : Nat) : State :=
  let s := regs (stored1 rec1) [(rOff .drg 0 0x200, 3)]
  { s with
    tier := { s.tier with stripes := [stripeZ [3]] }
    hmc := { s.hmc with patrolBytes := [(0, n)], patrolSense := [(0, [(5 * 2 ^ 24 + k, 998)])] } }

theorem noPage {s : State} {c : Nat} (h : s.patrolPages c = []) : s.patrolNext c = none := by
  unfold State.patrolNext State.patrolAfter
  rw [h]
  simp

theorem onePage {s : State} {c k : Nat} (h : s.patrolPages c = [k]) : s.patrolNext c = some k := by
  unfold State.patrolNext State.patrolAfter
  rw [h]
  by_cases hk : s.patrolPos c ≤ k <;> simp [hk, List.mergeSort_singleton]

theorem witness_LinesAreChecked :
    (licZ.hmc.repairs.find? fun r => decide (r.stack = (0 : Fin 24).val ∧ r.pc = (0 : Fin 64).val)) = none ∧
    (∀ d ∈ [none, some (List.replicate 256 (7 : Byte), true)], ∀ f ∈ [100, 300],
      ((repairing f d).hmc.repairs.find? fun r => decide (r.stack = (0 : Fin 24).val ∧ r.pc = (0 : Fin 64).val)) = some (repZ f d) ∧
        slotLeft (repairing f d) = true ∧
        ((repairing f d).firstFrame (0 : Fin 24) ≤ (repZ f d).line / 8192 % 32768 ∧ ((repairing f d).fhtOf ((repZ f d).line / 8192)).st = .free ↔ f = 300)) ∧
    (List.replicate 256 (7 : Byte)).length = 256 ∧
    ((dredging false).fld (rOff .drg ((0 : Fin 24) / 6) 0x200) 0 0 = 0 ∧ (dredging false).fld (rOff .hmc (0 : Fin 24) 0x210) 0 0 = 0 ∧
      (dredging false).patrolOn ((0 : Fin 64) / 16) = false) ∧
    (let s := dredging true
     s.rsv.drain = none ∧ s.fld (rOff .drg ((0 : Fin 24) / 6) 0x200) 0 0 ≠ 0 ∧ s.fld (rOff .hmc (0 : Fin 24) 0x210) 0 0 ≠ 0 ∧
      s.cohWaits (0 : Fin 24) (0 : Fin 64) = false ∧
      ¬(sget (fun _ => 0) s.hmc.calTick ((0 : Fin 24).val * 64 + (0 : Fin 64).val) = s.tick + 1) ∧ slotLeft s = true ∧
      s.dredgeNext (0 : Fin 24) (0 : Fin 64) (sget (fun _ => 0) s.hmc.dredgePos ((0 : Fin 24) * 64 + (0 : Fin 64))) = some 0) ∧
    (sget (fun _ => 0) ({ dredging true with hmc := { (dredging true).hmc with calTick := [(0, 1001)] } } : State).hmc.calTick 0 = (dredging true).tick + 1) ∧
    ((patrolling 9 0).patrolOn ((1 : Fin 64) / 16) = true ∧ (patrolling 9 16384).patrolOn ((0 : Fin 64) / 16) = true) ∧
    ((patrolling 9 0).patrolNext (1 : Fin 64).val = none ∧ (patrolling 9 16383).patrolNext (0 : Fin 64).val = some (5 * 2 ^ 24 + 9) ∧
      (patrolling 8 16384).patrolNext (0 : Fin 64).val = some (5 * 2 ^ 24 + 9) ∧ (patrolling 9 16384).patrolNext (0 : Fin 64).val = some (5 * 2 ^ 24 + 9)) ∧
    ((dredging true).patrolHead (0 : Fin 64) = none ∧ (∀ k ∈ [8, 9], ∀ n ∈ [16383, 16384],
      (patrolling k n).patrolHead (0 : Fin 64) = some (5 * 2 ^ 24 + k, 998) ∧ sget (fun _ => 0) (patrolling k n).hmc.patrolBytes (0 : Fin 64) = n ∧
        ((patrolling k n).patrolPages (0 : Fin 64)).contains (5 * 2 ^ 24 + k) = decide (k = 9)) ∧
      (patrolling 9 16384).pageGroups ((5 * 2 ^ 24 + 9) / 2 ^ 24) ((5 * 2 ^ 24 + 9) % 2 ^ 24)
        (fun x => decide (x = siteKey ((5 * 2 ^ 24 + 9) / 2 ^ 24) ((5 * 2 ^ 24 + 9) % 2 ^ 24) (3 : Fin 4))) = [(5, 1)] ∧
      ((patrolling 9 16384).fgroup 5 1).lost = false) ∧
    (let s := regs (tierZ .clean) [(rOff .drg 3 0x218, 0x10000)]
     let since := tsub s.tick (sget (fun _ => 0) s.hmc.lapStart (3 : Fin 4)) * s.periodNs
     s.fld (rOff .drg (3 : Fin 4) 0x218) 15 0 * 10 ^ 9 < since ∧ sget (fun _ => false) s.hmc.slowMarked (3 : Fin 4) = false) ∧
    (let s := regs (tierZ .clean) [(rOff .drg 3 0x218, 0x10001)]
     let since := fun (k : Nat) => tsub s.tick (sget (fun _ => 0) s.hmc.lapStart k) * s.periodNs
     ¬(s.fld (rOff .drg (3 : Fin 4) 0x218) 15 0 * 10 ^ 9 < since (3 : Fin 4)) ∧
      ¬(s.fld (rOff .drg (3 : Fin 4) 0x218) 31 16 * 3600 * 10 ^ 9 < since (4 + (3 : Fin 4))) ∧ s.hasFlash = true) := by
  refine ⟨?_, ?_, List.length_replicate, ?_, ?_, ?_, ?_, ⟨noPage (by decide +kernel), onePage (by decide +kernel), onePage (by decide +kernel),
    onePage (by decide +kernel)⟩, ?_, ?_, ?_⟩ <;> decide +kernel

/-- A poll that answers, or not. -/
def pollS (ok : Bool) : PmbusSample := ⟨ok, 0, 12000, 100, 40, 1⟩

/-- `lic` with the Reservoir's parts given. -/
def rsvS (f : Rsv → Rsv) : State := { lic with rsv := f lic.rsv }

/-- `lic` with its pins given. -/
def pinS (f : Pins → Pins) : State := { lic with pins := f lic.pins }

/-- A power drain since tick `f0`. -/
def drn (f0 : Nat) : Drain := { why := .power, f0 := f0 }

/-- `lic` with the host die at a temperature, THERM_TRIP_N high. -/
def hotS (t : Int) : State := regs { lic with pins := { lic.pins with thermTripN := true } } [(0x3230, BitVec.ofNat 64 (ofInt 8 t))]

theorem witness_PowerAndHeatAreSensed :
    ((pinS fun p => { p with mainPg := false }).pins.mainPg = false ∧ lic.pins.mainPg = true ∧ lic.fld 0x4248 1 1 = 0 ∧ (pollS true).ok = true ∧ (pollS false).ok = false ∧ lic.rsv.fails ≠ 2 ∧ (rsvS fun r => { r with fails := 2 }).rsv.fails = 2) ∧
    -- no test yet; one due in an hour; a load connected
    (let s := regs lic [(0x4248, 1)]
     (s.rsv.lastTest = 0 ∨ (s.fld 0x4218 55 48 ≠ 0 ∧ s.rsv.lastTest + s.fld 0x4218 55 48 * 3600 * 10 ^ 9 ≤ s.tim.netTime + 1)) ∧
      s.rsv.capTestStartMv = none ∧ s.fld 0x4248 0 0 ≠ 0 ∧ s.rsv.drain = none) ∧
    (let s := regs (rsvS fun r => { r with lastTest := 1 }) [(0x4248, 1), (0x4218, place 55 48 1)]
     ¬(s.rsv.lastTest = 0 ∨ (s.fld 0x4218 55 48 ≠ 0 ∧ s.rsv.lastTest + s.fld 0x4218 55 48 * 3600 * 10 ^ 9 ≤ s.tim.netTime + 1))) ∧
    (let s := rsvS fun r => { r with capTestStartMv := some 10999, v := 10000, testCharge := 5 * 10 ^ 8 }
     s.rsv.capTestStartMv = some 10999 ∧ 10999 < s.rsv.v + 1000 ∧ s.rsv.v + 1000 ≤ 11000) ∧
    lic.rsv.capTestStartMv = none ∧
    (let s := rsvS fun r => { r with level7Us := 2000000 }
     2000000 ≤ s.rsv.level7Us ∧ s.pins.thermTripN = true ∧ s.rsv.drain = none ∧ (rsvS fun r => { r with level7Us := 2000000, drain := some (drn 990) }).rsv.drain.isSome = true) ∧
    (let s : State := { rsvS fun r => { r with level7Us := 2000000 } with opened := true, pins := { lic.pins with coldRstN := true } }
     s.pins.coldRstN = true ∧ s.rsv.dead = false ∧ s.opened = true ∧ s.fld 0x5200 2 0 ≠ 3 ∧ s.pins.thermTripN = true) ∧
    ((pinS fun p => { p with thermTripN := false }).pins.thermTripN = false) ∧
    (∃ q ∈ (hotS 127).sensors (hotS 127).sampled, q.failed = false ∧ q.crit + 10 ≤ q.t) ∧
    (∀ q ∈ lic.sensors lic.sampled, ¬(q.failed = false ∧ q.crit + 10 ≤ q.t)) ∧ ¬ 2000000 ≤ lic.rsv.level7Us := by
  decide +kernel

/-- A device that runs: out of reset, its ports' route to 0x777, admission open. -/
def runs : State := { licZ with opened := true, pins := { licZ.pins with coldRstN := true, auxRstN := true, mainPg := true } }

/-- `runs` with a drain. -/
def drains (d : Drain) : State := { runs with rsv := { runs.rsv with drain := some d } }

/-- A notice for an EID, to be sent at tick `t`. -/
def noteN (eid : BitVec 20) (t : Nat) : Notice := {
    dst := eid, ctx := 1, first := 990, last := 995, cause := 4, sendTick := t, scope := 0, landed := false, x := 990, domain := 0,
    domEpoch := 0, port := 0, epoch := 1 }

theorem witness_PowerFailuresDrain :
    lic.pins.coldRstN = false ∧
    ((drains (drn 998)).pins.coldRstN = true ∧ runs.pins.mainPg = true ∧ (drains (drn 998)).pins.mainPg = true ∧ (drains (drn 998)).rsv.dead = false ∧ (drains (drn 998)).rsv.drain = some (drn 998)) ∧
    (runs.rsv.drain = none ∧ runs.opened = true ∧ runs.fld 0x5200 2 0 ≠ 3) ∧
    (∀ n ∈ [noteN 0x777 1001], tle n.sendTick runs.tick = false) ∧
    (tle (noteN 0x777 1000).sendTick runs.tick = true ∧ runs.firstUsable (noteN 0x777 1000).dst = some 31 ∧ runs.firstUsable (noteN 0x778 1000).dst = none) ∧
    (later (tadd (drn 999).f0 2) runs.tick = true ∧ later (tadd (drn 998).f0 2) runs.tick = false ∧ (drn 998).begun = false ∧
      (drn 998).noDrain = false ∧ (drn 998).why = .power ∧ ({ drn 998 with noDrain := true }).noDrain = true) ∧
    (let d := { drn 998 with begun := true }
     (drains d).rsv.energy ≤ (drains d).fld 0x4218 47 32 * 10 ^ 12 ∧ d.begun = true ∧ d.energyStop = false ∧ d.why = .power) ∧
    (let d := { drn 998 with begun := true, energyStop := true }
     d.begun = true ∧ d.noDrain = false ∧ (drains d).dataEnded d = true ∧ d.why = .power ∧ (drains d).pins.coldRstN = true) ∧
    (let d : Drain := { why := .flush, f0 := 998, begun := true, energyStop := true }
     d.begun = true ∧ d.noDrain = false ∧ (drains d).dataEnded d = true ∧ d.why = .flush) ∧
    ((drains (drn 998)).dataEnded { drn 998 with begun := true } = true) := by
  decide +kernel

/-- The machine after reset with power good, tick 0. -/
def powered : State := { State.reset with pins := { State.reset.pins with coldRstN := true, mainPg := true } }

/-- A started device whose island answers: step in STATUS, two tenant records, one anchor; `x`: variant bits, `w`: words of the boot state. -/
def island (x w : Word) : State :=
  let s := regs runs [(0x1200, x), (0x200, w)]
  { s with island := { s.island with anchors := [1], busy := none } }

theorem no_drain : ∀ d, lic.rsv.drain = some d → d.why ≠ .power ∨ d.noDrain = true := by
  intro d h
  have : lic.rsv.drain = none := by decide +kernel
  rw [this] at h
  cases h

theorem witness_StartsAndResetPins :
    (powered.pins.coldRstN = true ∧ State.reset.pins.coldRstN = false) ∧
    (∃ d, (drains (drn 998)).rsv.drain = some d ∧ d.why = .power ∧ d.noDrain = false) ∧ (∀ d, lic.rsv.drain = some d → d.why ≠ .power ∨ d.noDrain = true) ∧
    (powered.pins.mainPg = true ∧ State.reset.pins.mainPg = false ∧ State.reset.pins.auxRstN = false) ∧
    (powered.pins.coldRstN = true ∧ powered.pins.mainPg = true ∧ powered.pins.strapTest = false ∧ powered.reg 0x200 = 0 ∧ powered.rsv.dead = false ∧
      powered.rsv.drain = none) ∧
    (let s := island 0x3E1 0xA00
     let t : State := { s with tim := { s.tim with gotTime := true } }
     t.fld 0x200 15 8 = 10 ∧ t.fld 0x200 7 0 = 0 ∧ t.tim.gotTime = true ∧ s.fld 0x200 15 8 = 10 ∧ s.fld 0x200 7 0 = 0 ∧ s.tim.gotTime = false ∧ s.timeWaitMs = 2000 ∧
      t.rsv.dead = false ∧ t.rsv.flushed = false ∧ t.rsv.drain = none ∧ t.creset = none ∧ t.tim.period = none ∧ t.fld 0x5200 2 0 ≠ 3 ∧
      bit (t.reg 0x220) 0 = false ∧ bit (t.reg 0x218) 0 = false ∧ 1 < popCount (t.fld 0x8208 7 0)) ∧
    (∀ f : Bool, let s := island (if f then 0x3E1 else 0x3C1) 0xB00
     s.pins.auxRstN = true ∧ s.island.anchors ≠ [] ∧ s.island.busy = none ∧ s.rsv.dead = false ∧ s.fld 0x5200 2 0 ≠ 1 ∧ s.fld 0x5200 2 0 ≠ 3 ∧
      s.rsv.drain = none ∧ s.creset = none ∧ s.fld 0x200 7 0 = 0 ∧ s.fld 0x200 15 8 ≠ 0 ∧ s.pins.coldRstN = true ∧ s.pins.mainPg = true ∧ s.opened = true) ∧
    ((island 0x3E1 0xB00).hasFlash = true ∧ (island 0x3C1 0xB00).hasFlash = false) := by
  refine ⟨by decide +kernel, ⟨drn 998, by decide +kernel⟩, no_drain, ?_, ?_, ?_, ?_, ?_⟩ <;> decide +kernel

/-- A compute reset at tick `c` in a state of its course. -/
def cres (c : Nat) (st as re : Bool) : CReset := { c := c, stopped := st, asserted := as, restarted := re, tile := false, third := false }

/-- `runs` in that reset. -/
def resetting (r : CReset) : State := { island 0x3C1 0xB00 with creset := some r }

theorem witness_ComputeResetsRunTheirCourse :
    runs.creset = none ∧
    (let r := cres 1001 false false false
     (resetting r).creset = some r ∧ later r.c (resetting r).tick = true) ∧
    (let r := cres 1000 false false false
     let s := resetting r
     s.creset = some r ∧ r.stopped = false ∧ later r.c s.tick = false ∧ s.draining = false) ∧
    (later (tadd (cres 999 true false false).c 2) runs.tick = true ∧ later (tadd (cres 998 true false false).c 2) runs.tick = false ∧
      (cres 998 true false false).stopped = true ∧ (cres 998 true false false).asserted = false) ∧
    (let s : State := { resetting (cres 1000 true true false) with tim := { runs.tim with tick := 1000 + runs.ticksOfUs 30000 } }
     let r := cres 1000 true true false
     s.creset = some r ∧ r.asserted = true ∧ r.restarted = false ∧ later (tadd r.c (s.ticksOfUs 30000)) s.tick = false ∧
      later (tadd 1001 (s.ticksOfUs 30000)) s.tick = true ∧ s.sramOk = true) ∧
    (let s : State := { resetting (cres 1000 true true true) with tim := { runs.tim with tick := 1000 + runs.ticksOfUs 250000 } }
     let r := cres 1000 true true true
     s.creset = some r ∧ r.restarted = true ∧ later (tadd r.c (s.ticksOfUs 250000)) s.tick = false ∧ later (tadd 1001 (s.ticksOfUs 250000)) s.tick = true ∧
      s.fld 0x200 15 8 = 11 ∧ r.keepStopped = false ∧ r.third = false ∧ s.rsv.dead = false ∧ s.rsv.flushed = false ∧ s.rsv.drain = none ∧ s.tim.period = none ∧
      s.fld 0x5200 2 0 ≠ 3 ∧ bit (s.reg 0x220) 0 = false ∧ 1 < popCount (s.fld 0x8208 7 0)) ∧
    (faultPage (0x1A : Byte).toNat (3 : Fin 4) (135 : Byte).toNat ≠ none ∧ faultPage (0x1A : Byte).toNat (3 : Fin 4) (136 : Byte).toNat = none ∧
      runs.rsv.dead = false ∧ runs.rsv.drain = none ∧ runs.pins.mainPg = true) := by
  refine ⟨?_, ?_, ?_, ?_, ?_, ?_, ?_⟩ <;> decide +kernel

/-- A device of a licence, its island answering, in tenant state `st` (both records), with a release and its purge under way. -/
def tenant (x : Word) (st : Nat) (f : Island → Island) : State :=
  let s := regs (island x 0xB00) [(0x5200, place 63 32 1 ||| place 2 0 st), (0x5208, 0), (0x1200, x)]
  { s with island := f { s.island with records := [{ state := BitVec.ofNat 3 st }, { state := BitVec.ofNat 3 st }] } }

theorem witness_TenantsChange :
    (∀ st < 5, ∀ f : Bool, let s := tenant (if f then 0x3E1 else 0x3C1) st id
     s.rsv.dead = false ∧ s.island.records.length = 2 ∧ s.pins.auxRstN = true ∧ s.island.anchors ≠ [] ∧ s.island.busy = none ∧ s.fld 0x5200 2 0 = st ∧
      s.fld 0x200 7 0 = 0 ∧ s.variant ≠ 0 ∧ bit (s.reg 0x1200) 4 = false ∧ s.hasAssured = true ∧ s.rsv.drain = none ∧ s.island.assignAt = none ∧ s.island.release = none) ∧
    ((([1] : List Byte).headD 0).toNat = 1 ∧ (([2, 0] : List Byte).headD 0).toNat = 2) ∧
    (∀ r ∈ [999, 1000], (tenant 0x3E1 1 fun i => { i with assignAt := some r }).island.assignAt = some r ∧ later 1000 1000 = false ∧ later 1000 999 = true) ∧
    (∀ x ∈ [1000, 1001, 998, 999], let s := tenant 0x3E1 3 fun i => { i with release := some x }
     s.island.release = some x ∧ s.island.purging = false ∧ s.fld 0x5208 31 16 = s.fld 0x5208 15 0 ∧ s.rsv.drain = none ∧
      (regs s [(0x5208, 0x10000)]).fld 0x5208 31 16 ≠ (regs s [(0x5208, 0x10000)]).fld 0x5208 15 0) ∧
    (later 1000 1000 = false ∧ later 1001 1000 = true ∧ later (tadd 998 2) 1000 = false ∧ later (tadd 999 2) 1000 = true) ∧
    (let s := tenant 0x3E1 3 fun i => { i with release := some 900, purging := true }
     let t : State := { s with tim := { s.tim with tick := tadd (tadd 900 2) s.purgeTicks } }
     s.island.purging = true ∧ later (tadd (tadd 900 2) t.purgeTicks) t.tick = false ∧ later (tadd (tadd 901 2) t.purgeTicks) t.tick = true) := by
  refine ⟨?_, ?_, ?_, ?_, ?_, ?_⟩ <;> decide +kernel

/-- The image of a device record of serial 5, sequence `q`, with no section; low word of its identity key. -/
def recS (q key : Word) : DeviceRecord :=
  ⟨wordsBytes ([0x144524543, 5, q, 288, key] ++ List.replicate 31 0), true⟩

/-- A feature licence for the device of identity key 9. -/
def licS (seq : Word) : Licence := ⟨[0x2014C494345, 5, seq, 0, 1] ++ digestWords (keyDigest 9) ++ List.replicate 21 0, true⟩

/-- A slot image with nothing in it. -/
def imgS : SlotImage := ⟨[], true⟩

/-- A boot directory in order. -/
def dirS : Directory := ({ magic := 0x42444952 } : Directory).sealed

/-- A device whose boot flash holds them, in tenant state `st`, without FW_STAGING; GLB_RECORD shows sequence 3. -/
def bootS (st : Nat) (l : List (Option Licence)) : State :=
  let s := regs (tenant 0x1E1 st id) [(0x210, 3)]
  let boot : BootFlash :=
    { rom := [keyDigest 0, keyDigest 0, keyDigest 0], dir := [dirS, {}], records := [some (recS 3 9), none], licences := l, slots := [none, none] }
  { s with boot := boot }

theorem crc_valid (d : Directory) (c : BitVec 32) (h : d.magic = 0x42444952) (hc : c = crc32c (dirBytes d)) : ({ d with crc := c } : Directory).valid = true :=
  decide_eq_true ⟨h, hc⟩

theorem sealed_valid (d : Directory) (h : d.magic = 0x42444952) : d.sealed.valid = true := crc_valid d _ h rfl

theorem dirS_used (st : Nat) (l : List (Option Licence)) : (bootS st l).dirUsed = some (0, dirS) := by
  have h : dirS.valid = true := sealed_valid _ rfl
  have h' : ({} : Directory).valid = false := by decide
  have e : ∀ s : State, s.boot.dir = [dirS, {}] → s.dirUsed = some (0, dirS) := by
    intro s hs
    unfold State.dirUsed
    simp only [hs, List.getD_cons_zero, List.getD_cons_succ, h, h', Bool.not_false, Bool.true_or, Bool.and_true, if_true]
  exact e _ rfl

theorem keys_ok (st : Nat) (l : List (Option Licence)) : (bootS st l).licenceKeyOk = true ∧ (bootS st l).recordKeyOk = true := by
  have e : ∀ s : State, s.dirUsed = some (0, dirS) → s.boot.rom = [keyDigest 0, keyDigest 0, keyDigest 0] → s.licenceKeyOk = true ∧ s.recordKeyOk = true := by
    intro s h hr
    constructor
    · unfold State.licenceKeyOk State.keyOk
      rw [h, hr]
      exact decide_eq_true rfl
    · unfold State.recordKeyOk State.keyOk
      rw [h, hr]
      exact decide_eq_true rfl
  exact e _ (dirS_used st l) rfl

theorem licS_valid : (bootS 0 []).licValid (licS 7) = true := by
  have h : (bootS 0 []).recordUsed = some (0, recS 3 9) := by decide +kernel
  have k : (recS 3 9).identityKey = 9 := by decide +kernel
  have s : (recS 3 9).serial = (licS 7).serial := by decide +kernel
  have d : (licS 7).keyHash = digestWords (keyDigest 9) := rfl
  have m : (licS 7).magic = 0x4C494345 ∧ (licS 7).format = 1 := by decide +kernel
  have z : (licS 7).rsvZero = true := by decide +kernel
  have q : (licS 7).kind = 2 ∧ (licS 7).variant = 0 ∧ (licS 7).features &&& ~~~(3 : Word) = 0 := by decide +kernel
  unfold State.licValid
  rw [h, (keys_ok 0 []).1, q.1]
  simp only [m, z, q.2, Option.map_some, Option.getD_some, k, s, d, and_self, decide_true, Bool.and_self, show (licS 7).signed = true from rfl]

theorem witness_BootFlashIsWritten :
    ((bootS 0 []).pins.auxRstN = true ∧ (bootS 0 []).island.anchors ≠ [] ∧ (bootS 0 []).island.busy = none) ∧
    ((bootS 0 []).licValid ⟨[], true⟩ = false ∧ (bootS 0 []).licValid (licS 7) = true ∧ ¬((licS 7).kind = 1 ∧ (bootS 0 []).fld 0x5200 2 0 ≠ 0) ∧
      (∀ y, some y ∈ (bootS 0 []).boot.licences → y.licenceSeq ≠ (licS 7).licenceSeq) ∧ (bootS 0 []).boot.licences.length < 64) ∧
    ((bootS 0 [some (licS 7)]).boot.licences = [some (licS 7)] ∧ (licS 7).licenceSeq = 7 ∧ (licS 7).kind ≠ 1 ∧
      (∀ y, some y ∈ (bootS 0 [some (licS 7)]).boot.licences → y.licenceSeq ≠ 8)) ∧
    (¬((bootS 2 []).fld 0x5200 2 0 = 0 ∨ (bootS 2 []).fld 0x5200 2 0 = 4 ∨ (bootS 2 []).hasStaging = true)) ∧
    ((bootS 0 []).fld 0x5200 2 0 = 0 ∧ (bootS 4 []).fld 0x5200 2 0 = 4 ∧ (regs (bootS 2 []) [(0x1200, 0x3E1)]).hasStaging = true ∧
      (bootS 0 []).boot.dir.length = 2 ∧ (bootS 0 []).boot.slots.length = 2) ∧ (bootS 0 []).dirUsed = some (0, dirS) ∧
    ((0xFFFFE : BitVec 20) ≠ 0xFFFFF) ∧ (1 ≤ (15 : BitVec 8).toNat ∧ (15 : BitVec 8).toNat ≤ 15) ∧
    (recordOk (recS 4 9) = true ∧ (bootS 0 []).recordUsed = some (0, recS 3 9) ∧ (bootS 0 []).recordKeyOk = true ∧ (recS 3 9).serial = (recS 4 9).serial ∧
      (recS 3 9).identityKey = (recS 4 9).identityKey ∧ (recS 3 9).recordSeq < (recS 4 9).recordSeq ∧ (recS 3 9).recordSeq ≥ (recS 3 9).recordSeq) := by
  refine ⟨by decide +kernel, ⟨?_, licS_valid, by decide +kernel, ?_, by decide +kernel⟩, ⟨rfl, by decide +kernel, by decide +kernel, ?_⟩, by decide +kernel,
    by decide +kernel, dirS_used 0 [], by decide, by decide, by decide +kernel, by decide +kernel, (keys_ok 0 []).2, ?_⟩
  · have h : (⟨[], true⟩ : Licence).magic ≠ 0x4C494345 := by decide +kernel
    unfold State.licValid
    simp [h]
  · intro y h; exact absurd h (by simp [bootS])
  · intro y h
    have : y = licS 7 := by simpa [bootS] using h
    subst this; decide +kernel
  · decide +kernel

/-- An island that answers, with anchors and sessions, telemetry in force or not. -/
def island2 (x : Word) (as : List (BitVec 384)) (n : Nat) : State :=
  let s := island x 0xB00
  { s with island := { s.island with anchors := as, sessions := n } }

theorem witness_TheIslandAnswers :
    (State.reset.pins.auxRstN = false ∧ (island2 0x3E1 [1] 0).pins.auxRstN = true) ∧
    ((2 : BitVec 384) ∉ (island2 0x3E1 [1, 3, 4] 0).island.anchors ∧ (island2 0x3E1 [1, 3, 4] 0).island.anchors.length < 4 ∧ (island2 0x3E1 [1, 3, 4] 0).island.busy = none) ∧
    ((1 : BitVec 384) ∈ (island2 0x3E1 [1] 0).island.anchors ∧ (island2 0x3E1 [1] 0).island.busy = none ∧ (island2 0x3E1 [1] 0).island.anchors.length = 1) ∧
    ((1 : BitVec 384) ∈ (island2 0x3E1 [2, 3, 4, 1] 0).island.anchors ∧ 1 < (island2 0x3E1 [2, 3, 4, 1] 0).island.anchors.length ∧
      (island2 0x3E1 [2, 3, 4, 1] 0).island.anchors.length ≤ 4) ∧
    ((island2 0x3E1 [1] 0).island.anchors ≠ [] ∧ (island2 0x2E1 [1] 0).hasTelemetry = false ∧ (island2 0x3E1 [1] 0).hasTelemetry = true ∧
      pageFor (0x10 : Byte).toNat (3 : Byte).toNat ≠ none) ∧
    ((island2 0x3E1 [] 3).island.anchors = [] ∧ (island2 0x3E1 [] 3).island.sessions < 4 ∧ (island2 0x3E1 [1] 0).tim.netTime ≤ 2000000) ∧
    (bit ((island2 0x3E1 [1] 0).reg 0x5218) 0 ≠ true) ∧ (1 ≤ (8 : Byte).toNat ∧ (8 : Byte).toNat ≤ 8 ∧ 8 < (9 : Byte).toNat ∧ (9 : Byte) ≠ 0xFF ∧ (1 : Fin 8) ≠ 0) := by
  refine ⟨?_, ?_, ?_, ?_, ?_, ?_, ?_, ?_⟩ <;> decide +kernel

/-- `licZ` with module `m` of the host die in state `st`, the host die out of reset. -/
def hostZ (m st : Nat) : State := regs licZ [(uciCtrl, 0), (uciMod m, BitVec.ofNat 64 st)]

/-- The last line of the host region's first part. -/
def lastLow : BitVec 52 := 0xFFFFFF00

theorem witness_HostDieAccesses :
    (([] : List Byte).length ≠ 256 ∧ (List.replicate 256 (7 : Byte)).length = 256 ∧ (List.replicate 64 (7 : Byte)).length = 64) ∧
    ((regs licZ [(uciCtrl, 1)]).hostHeld = true ∧ (hostZ 3 0).hostHeld = false ∧ (hostZ 3 0).modState 3 ≠ 2 ∧ (hostZ 3 0).modState 3 ≠ 3 ∧ (hostZ 3 3).modState 3 = 3 ∧
      (hostZ 3 3).hostHeld = false ∧ (hostZ 3 2).hostHeld = false ∧ (hostZ 3 2).modState 3 = 2) ∧
    (let s := hostZ (licZ.hostModule 0) 2
     s.modState (s.hostModule 0) = 2 ∧ s.win 0 = .hole ∧ ∀ w ∈ s.hostWait, w.1 ≠ s.hostModule 0) ∧
    (∀ b : Bool, let n := if b then 256 else 64
     let a := if b then lastLow else lastLow + 192
     let s := hostZ (licZ.hostModule a.toNat) 2
     let o := 0x7FFFFF00 + if b then 0 else 192
     s.modState (s.hostModule a.toNat) = 2 ∧ s.hostHeld = false ∧ (∀ w ∈ s.hostWait, w.1 ≠ s.hostModule a.toNat) ∧ s.win a.toNat = .host o ∧ a.toNat % n = 0 ∧
      s.hostUsed (stackOf (hostPhys o / 256)) (s.pcOf (hostPhys o / 256)) + 2 ≤ s.share 6 ∧ s.regionLineBad (hostPhys o / 256) = false ∧
      (s.meta' (hostPhys o / 256)).poison = false ∧ (lastLow + 1).toNat % n ≠ 0 ∧
      (HostOp.write a.toNat (List.replicate n 7) false).slots ≤ 2 ∧ ((4 : Nat) ≠ 64 ∧ (4 : Nat) ≠ 256)) ∧
    (let s := hostZ (licZ.hostModule lastLow.toNat) 2
     let ln := hostPhys 0x7FFFFF00 / 256
     let t : State := { s with hostUse := [(stackOf ln * 64 + s.pcOf ln, s.share 6)] }
     ¬(t.hostUsed (stackOf ln) (t.pcOf ln) + 1 ≤ t.share 6)) ∧
    (let s := hostZ (licZ.hostModule 0x1000000000) 2
     s.modState (s.hostModule 0x1000000000) = 2 ∧ s.hostHeld = false ∧ (∀ w ∈ s.hostWait, w.1 ≠ s.hostModule 0x1000000000) ∧
      s.win 0x1000000000 = .reg 0 ∧ pageOf 0 = some ⟨.glb, 0, 0⟩ ∧ s.blockReset .glb = false ∧ (0 : Nat) % 8 = 0 ∧ (4 : Nat) % 8 ≠ 0) ∧
    (let s : State := { hostZ (licZ.hostModule lastLow.toNat) 2 with hostWait := [(licZ.hostModule lastLow.toNat, .read lastLow.toNat 256)] }
     s.hostWait = (licZ.hostModule lastLow.toNat, .read lastLow.toNat 256) :: [] ∧ s.win lastLow.toNat = .host 0x7FFFFF00 ∧ lastLow.toNat % 256 = 0 ∧
      licZ.hostModule lastLow.toNat < 4) := by
  refine ⟨⟨by decide, List.length_replicate, List.length_replicate⟩, ?_, ?_, ?_, ?_, ?_, ?_⟩ <;> decide +kernel

theorem witness_TheHostDieComesAlive :
    (regs licZ [(uciCtrl, 1)]).hostHeld = true ∧ (hostZ 0 0).hostHeld = false ∧ (0 : Word) ≠ 1 ∧
    (let due := fun (s : State) (ms : Nat) => s.fld 0x6228 1 0 = 1 ∧ (if s.fld 0x6220 31 16 = 0 then 5000 else s.fld 0x6220 31 16) ≤ ms
     ¬due (regs licZ [(0x6228, 1)]) 4999 ∧ due (regs licZ [(0x6228, 1)]) 5000 ∧ ¬due (regs licZ [(0x6228, 2)]) 5000 ∧
      ¬due (regs licZ [(0x6228, 1), (0x6220, 0x70000)]) 6 ∧ due (regs licZ [(0x6228, 1), (0x6220, 0x70000)]) 7) := by decide +kernel

/-- `licZ` in a compute reset that holds the blocks of the tiles in reset. -/
def blockHeld : State := { licZ with creset := some { c := 900, tile := false, stopped := true, asserted := true } }

theorem witness_RegisterWritesTakeEffect :
    ((4 : Nat) ≠ 8 ∧ (0x208 : BitVec 24).toNat % 8 = 0 ∧ pageOf ((0xFFF000 : BitVec 24).toNat / 4096) = none ∧ (0xFFF004 : BitVec 24).toNat % 8 ≠ 0) ∧
    (pageOf ((0x405200 : BitVec 24).toNat / 4096) = some ⟨.coh, 0, 0⟩ ∧ blockHeld.blockReset .coh = true ∧ licZ.blockReset .coh = false ∧ licZ.blockReset .mgt = false ∧
      pageOf ((0x5200 : BitVec 24).toNat / 4096) = some ⟨.mgt, 0, 0⟩ ∧ Agent.hostDie ≠ .management) ∧
    ((0x405200 : BitVec 24).toNat % 4096 = 0x200 ∧ isSelector .coh 0x200 = false ∧ Blk.coh.regAt 0x300 = none ∧ isSelector .coh 0x300 = false) ∧
    (∃ r, Blk.coh.regAt 0x200 = some r ∧ (∃ f ∈ r.flds, f.acc ≠ .ro) ∧ (∀ f ∈ r.flds, f.writable .hostDie = false) ∧ (∃ f ∈ r.flds, f.writable .firmware = true) ∧
      ∀ v, licZ.ownWrite ⟨.coh, 0, 0⟩ 0x200 0x405200 v = none) ∧
    (∃ r, Blk.coh.regAt 0x210 = some r ∧ ∀ f ∈ r.flds, f.acc = .ro) ∧
    (pageOf (0xFFF : BitVec 12).toNat = none ∧ pageOf (0x405 : BitVec 12).toNat = some ⟨.coh, 0, 0⟩ ∧ bit (1 : Word) 0 = true ∧ bit (2 : Word) 0 = false ∧
      licZ.fw.evtHeld.length < 1024) := by
  refine ⟨by decide +kernel, by decide +kernel, by decide +kernel, ⟨_, rfl, by decide +kernel, by decide +kernel, by decide +kernel, fun _ => rfl⟩,
    ⟨_, rfl, by decide +kernel⟩, by decide +kernel⟩

/-- A state with bytes of HBM and a command that goes through. -/
theorem witness_MemoryStaysCanonical :
    let s : State := { licZ with pending := [.hostBootTimeout 0] }
    s.memoryOk = true ∧ s.hbm ≠ [] ∧ ∃ t, step s = .next t := by
  refine ⟨by decide +kernel, by decide +kernel, ?_⟩
  exact ⟨_, rfl⟩

/-- Port 5 in state `st`, its link engine as given. -/
def port (st : Nat) (l : Link) : State := (regs licZ [(rOff .lnk 5 0x210, BitVec.ofNat 64 st)]).setLink 5 l

/-- A block with the CRC it should carry. -/
def sealed (b : Block) : Block := { b with crc := b.goodCrc }

theorem goodCrc_of (b : Block) (c : BitVec 16) : Block.goodCrc { b with crc := c } = b.goodCrc := by
  simp only [Block.goodCrc, Block.header]

theorem sealed_ok (b : Block) : (sealed b).crcOk = true := by
  refine decide_eq_true ?_
  rw [show (sealed b).goodCrc = b.goodCrc from goodCrc_of b _]
  simp only [sealed]

/-- A block whose CRC field is off by one. -/
def broken (b : Block) : Block := { b with crc := b.goodCrc + 1 }

theorem broken_not (b : Block) : (broken b).crcOk = false := by
  refine decide_eq_false fun h => ?_
  rw [show (broken b).goodCrc = b.goodCrc from goodCrc_of b _, show (broken b).crc = b.goodCrc + 1 from rfl] at h
  exact absurd h (by bv_omega)

/-- A block of a type with seq, ack and body words 0 and 1. -/
def lblk (type : BitVec 4) (seq ack : BitVec 12) (sop : Bool) (w0 w1 : Nat) : Block :=
  ⟨seq, ack, 0, sop, type, 0, 0x81, 0, leBytes 8 w0 ++ leBytes 8 w1 ++ List.replicate 232 0⟩

/-- A sent block of a sequence number. -/
def sent (seq : BitVec 12) (replays : Nat) : TxBlock := ⟨lblk 1 seq 0 true 0 0, replays, 100⟩

theorem witness_LinkBlocksAreTaken_states :
    (port 1 {}).receives 5 = false ∧ (port 3 {}).receives 5 = true ∧ (port 3 {}).linkState 5 = 3 ∧ (port 4 {}).linkState 5 = 4 ∧ (port 4 {}).receives 5 = true ∧
    (lblk 1 0 0 true 0 0).type = 1 ∧ (lblk 0 0 0 false 0 0).type = 0 ∧ (lblk 2 0 0 false 0 0).type = 2 := by decide +kernel

theorem witness_LinkBlocksAreTaken_data :
    (let b := sealed (lblk 1 0 0 true 0 300)
     let l := (port 4 {}).link 5
     b.type = 1 ∧ (b.seq - l.expect).toNat = 0 ∧ l.held = [] ∧ b.sop = true ∧ (∀ x ∈ l.partials, x.vc ≠ b.vc.toNat) ∧
      1 < (⟨b.vc.toNat, b.body, [b.poison]⟩ : RxPartial).total) ∧
    (let l := (port 4 { expect := 1 }).link 5
     let d := fun seq : BitVec 12 => (seq - l.expect).toNat
     d 2 = 1 ∧ d 2048 = 2047 ∧ d 2049 = 2048 ∧ d 0 = 4095 ∧ d 1 = 0 ∧ l.held = [] ∧ l.nakSent = [] ∧ l.unacked = []) ∧
    (let l := (port 4 { unacked := [sent 7 0, sent 8 0, sent 9 0] }).link 5
     l.unacked = [sent 7 0] ++ sent 8 0 :: [sent 9 0] ∧ (sent 8 0).blk.seq = 8 ∧ ∀ x ∈ [sent 7 0], x.blk.seq ≠ 8) := by decide +kernel

theorem witness_LinkBlocksAreTaken_replay :
    (∀ r : Bool, let s := port 4 { unacked := [sent 8 (if r then 4 else 3)] }
     let u := sent 8 (if r then 4 else 3)
     let b := lblk 2 0 7 false 9 2
     (s.link 5).unacked = [u] ∧ b.ack ≠ u.blk.seq ∧ (b.seq - (s.link 5).expect).toNat = 0 ∧ (u.blk.seq - BitVec.ofNat 12 (bits (b.word 0) 11 0)).toNat = 4095 ∧
      (let c := lblk 2 0 7 false 7 2
       let i := (u.blk.seq - BitVec.ofNat 12 (bits (c.word 0) 11 0)).toNat
       i < 256 ∧ bit (c.word (1 + i / 64)) (i % 64) = true) ∧
      decide (u.replays < s.replayN 5 ∧ (s.link 5).replayUsed < s.perTick (s.replayPerUs 5)) = !r) ∧
    (sent 8 0).blk.body.length = 248 ∧
    (let s := port 4 { unacked := [sent 8 0, sent 9 0] }
     (s.link 5).unacked = sent 8 0 :: [sent 9 0] ∧ (∀ v ∈ [sent 9 0], v.blk.seq ≠ (sent 8 0).blk.seq) ∧ (sent 8 0).sentNs + s.replayTmo 5 ≤ 100 + s.replayTmo 5) ∧
    (let s := port 4 { held := [lblk 1 2047 0 true 0 0] }
     (s.link 5).held = [lblk 1 2047 0 true 0 0] ∧ (s.link 5).nakSent = [] ∧ 0 < ((lblk 1 2047 0 true 0 0).seq - (s.link 5).expect).toNat ∧
      ((lblk 1 2047 0 true 0 0).seq - (s.link 5).expect).toNat < 2048) ∧
    (4 ≤ (lblk 4 0 0 false 0 0).type.toNat ∧ (lblk 3 0 0 false 5 0).type = 3 ∧ cmsg (lblk 3 0 0 false 5 0) = 5 ∧ 5 ∉ [0x01, 0x02, 0x03, 0x04, 0x10, 0x11] ∧
      ¬(4 ≤ (lblk 3 0 0 false 4 0).type.toNat ∨ ((lblk 3 0 0 false 4 0).type = 3 ∧ cmsg (lblk 3 0 0 false 4 0) ∉ [0x01, 0x02, 0x03, 0x04, 0x10, 0x11]))) := by
  decide +kernel

/-- A port of the device with EID 0x100. -/
def portE (st : Nat) (l : Link) : State := (port st l).setReg (rOff .rtr 0 0x200) 0x100

/-- A control message. -/
def ctl (w0 w1 : Nat) : Block := sealed (lblk 3 0 0 false w0 w1)

theorem ctl_ok (w0 w1 : Nat) : (ctl w0 w1).crcOk = true := sealed_ok _

theorem witness_LinksTrain_init :
    (portE 1 {}).receives 5 = false ∧ (portE 3 {}).linkState 5 = 3 ∧
    (let is := fun (b : Block) (code : Nat) => b.type = 3 ∧ cmsg b = code
     let eid := fun b : Block => bits (b.word 0) 27 8
     let own := ctl (1 + 0x100 * 2 ^ 8) 0
     let wrong := ctl (1 + 0x101 * 2 ^ 8 + 2 * 2 ^ 48) 0
     let right := ctl (1 + 0x101 * 2 ^ 8 + 1 * 2 ^ 28 + 2 ^ 48) 0
     is own 1 ∧ eid own = (portE 3 {}).devEid.toNat ∧
     is wrong 1 ∧ eid wrong ≠ (portE 3 {}).devEid.toNat ∧ bits (wrong.word 0) 55 48 ≠ 1 ∧
     is right 1 ∧ eid right ≠ (portE 3 {}).devEid.toNat ∧ bits (right.word 0) 55 48 = 1 ∧ ((portE 3 {}).link 5).peerIdSeen = false ∧
     ((portE 3 {}).link 5).rtt.length < 16 ∧ 1 ≤ bits (right.word 0) 29 28 ∧
     is (ctl 2 77) 2 ∧ is (ctl 3 77) 3 ∧
     is (ctl 4 0) 4 ∧ bit ((ctl 4 0).word 0) 38 = false ∧ is (ctl (4 + 2 ^ 38) 0) 4 ∧ bit ((ctl (4 + 2 ^ 38) 0).word 0) 38 = true ∧
     ((portE 3 {}).link 5).myDone = none ∧ ((portE 3 { myDone := some true }).link 5).myDone = some true) ∧
    (16 ≤ ((portE 3 { rtt := List.replicate 16 200 }).link 5).rtt.length ∧ ((portE 3 { rtt := List.replicate 14 200 }).link 5).rtt.length < 15) ∧
    (∀ slow : Bool, let l := (portE 3 { rtt := List.replicate 15 (if slow then 500 else 150), peerIdSeen := true, vcCount := 3 }).link 5
     l.rtt.length = 15 ∧ l.peerIdSeen = true ∧ l.myDone = none ∧ l.peerDone = none ∧
     (let rtt := (l.rtt ++ [350 - ((ctl 3 200).word 1).toNat]).foldl max 0
      let buf := if l.vcCount = 1 then 1024 else if l.vcCount = 3 then 256 else 512
      let h := cdiv (rtt * 100) 128 + 34
      decide (buf < h + 68) = slow)) := by decide +kernel

theorem witness_LinksTrain_after :
    (portE 4 {}).linkState 5 = 4 ∧ (ctl 0x10 0).type = 3 ∧ cmsg (ctl 0x10 0) = 0x10 ∧ cmsg (ctl 0x11 0) = 0x11 ∧
    (∀ low : Bool, let s := (portE 5 { announcing := true }).setFld (rOff .lnk 5 0x210) 39 20 (if low then 0xFF else 0x101)
     s.linkState 5 = 5 ∧ (s.link 5).announcing = true ∧ decide (s.peerEid 5 < s.devEid.toNat) = low) ∧
    ((portE 1 {}).linkState 5 ≠ 2 ∧ (portE 1 {}).linkState 5 ≠ 5 ∧ (portE 2 {}).linkState 5 = 2 ∧
     (let m := fun mine : Byte => mine &&& ((portE 2 {}).link 5).myLanes
      laneGroup (m 0x55 &&& (0xFF &&& ((portE 2 { peerLanes := 0xFF }).link 5).peerLanes)) = none ∧ laneGroup (m 0x0C &&& (0xFF &&& ((portE 2 { peerLanes := 0xFF }).link 5).peerLanes)) = some 0x0C ∧ laneCount 0x0C = 2 ∧
      (regs (portE 2 {}) [(rOff .lnk 5 0x200, 0x100)]).widthMin 5 = 4 ∧ (regs (portE 2 {}) [(rOff .lnk 5 0x200, 0)]).widthMin 5 = 2)) ∧
    ((500000 : Nat) ≤ 500000 ∧ max 20 (bits ((portE 5 {}).linkCfg 5) 43 32) ≤ 5000 ∧ ¬((portE 2 {}).linkState 5 = 2 ∧ 500000 ≤ 499999) ∧
     ¬((portE 2 {}).linkState 5 = 5 ∧ max 20 (bits ((portE 2 {}).linkCfg 5) 43 32) ≤ 499999)) ∧
    ((portE 4 {}).link 5).probEnd = none ∧
    (sget (fun _ => 0) ((portE 4 {}).link 5).laneRuns 6 < 16 ∧ 16 ≤ sget (fun _ => 0) ((portE 4 { laneRuns := [(6, 16)] }).link 5).laneRuns 6) ∧
    (let e := (portE 4 { probEnd := some 1001 }).link 5
     e.probEnd = some 1001 ∧ later 1001 (portE 4 {}).tick = true ∧ later 1000 (portE 4 {}).tick = false) ∧
    (let s := regs (portE 1 {}) [(0x1208, 0x20), (rOff .lnk 5 0x208, 0)]
     s.portLicensed 5 = true ∧ s.fld (rOff .lnk 5 0x208) 3 3 = 0 ∧ s.linkState 5 = 1 ∧ (regs s [(rOff .lnk 5 0x208, 8)]).fld (rOff .lnk 5 0x208) 3 3 = 1 ∧
     (regs s [(0x1208, 0)]).portLicensed 5 = false) := by decide +kernel

theorem witness_ResetState : pageOf 0x415 = some ⟨.lnk, 5, 0⟩ ∧ Blk.lnk ∉ [Blk.ext, .fwc3, .mgt] ∧ 0 < Blk.lnk.regs.length := by decide +kernel

/-! ### The spec's worked examples -/

/-- 00_scope.md: the link page of device port 19. -/
theorem test_page_of_port_19 : Blk.lnk.base 19 = 0x813000 ∧ pageOf 0x813 = some ⟨.lnk, 19, 2⟩ := by decide +kernel

/-- 02_pool_space_and_extents.md, the example before the transit filter table: pointer 0x800A300001234560 and its virtual address; one byte past the map fails. -/
theorem test_pointer_conversion :
    let es := [eblOf (place 63 63 1 ||| place 47 24 512 ||| place 17 0 0xA3) 0x7E0000000000]
    ptrTo 0xA3 0x1234560 = 0x800A300001234560 ∧ cvtToVa es 0x800A300001234560 = some 0x7E0001234560 ∧
    cvtToPtr es 0x7E0001234560 = some 0x800A300001234560 ∧ cvtToPtr es 0x7E0040000000 = none := by decide +kernel

/-- 03_tick_and_headgate.md, "refusal at a lease edge": shares 38, 18, 4, 4, and tile 1's part of 140 slots is 39. -/
theorem test_lease_shares : splitShares 0 4 [54000, 24000, 3000, 3000] = [38, 18, 4, 4] ∧ partOf 0 1 [38, 18, 4, 4] 140 = 39 := by decide +kernel

/-- 05_row_formats_and_arithmetic.md, the example of R147: BF16 and FP8-E4M3 codes of 1.3 and 0.25. -/
theorem test_row_formats : bf16.encode (fval 0x3FA66666) = 0x3FA6 ∧ bf16.encode (fval 0x3E800000) = 0x3E80 ∧ e4m3.encode (fval 0x3FA66666) = 0x3A := by
  decide +kernel

/-- The same example in RQ8 and GQ4: s = 0x2005, b = 0xB99A, codes 0, 121 and 255; GQ4 has s = 1,093 × 2^-13 and code 7 for 0.25. -/
theorem test_quantized_rows :
    quantize [0xBF333333, 0x3E800000, 0x3FA66666] 255 = (0x2005, 0xB99A, [0, 121, 255]) ∧
    (quantize [0xBF333333, 0x3E800000, 0x3FA66666] 15).1 = 12 * 1024 + (1093 - 1024) ∧ (quantize [0xBF333333, 0x3E800000, 0x3FA66666] 15).2.2.getD 1 0 = 7 := by
  decide +kernel

/-- 06_updates_and_atomics.md, the example of R176: 0x3FA66666 rounds up exactly when ρ is at least 39,322. -/
theorem test_stochastic_rounding : stochBf16 0x3FA66666 39321 = 0x3FA6 ∧ stochBf16 0x3FA66666 39322 = 0x3FA7 := by decide +kernel

/-- 11_fabric_packets_and_routing.md, the example of R312: the entry 0x00FED6C90306E631. -/
theorem test_route_entry :
    let r := rttOf 0x00FED6C90306E631
    r.valid = true ∧ r.filter = false ∧ r.cands = [3, 19, 27] ∧ (List.range 8).map r.vc = [1, 1, 3, 3, 5, 5, 7, 7] := by decide +kernel

/-- 12_link_layer.md, the example of R340: round trips of 563 ns at 4 VCs (code 2) take the port DOWN with cause REACH (9); at 2 VCs (code 1) XOFF_TH is 550, XON_TH 516 and
REPLAY_TMO_NS 819. -/
theorem test_link_figures :
    let after := fun vcs =>
      let t := (portE 3 { rtt := List.replicate 15 563, peerIdSeen := true, vcCount := vcs }).rttReply 5 (ctl 3 0) 563
      (t.linkState 5, t.fld (rOff .lnk 5 0x210) 43 40, t.fld (rOff .lnk 5 0x220) 27 16, t.fld (rOff .lnk 5 0x220) 43 32, t.replayTmo 5)
    (after 2).1 = 1 ∧ (after 2).2.1 = 9 ∧ (after 1).1 = 3 ∧ (after 1).2.2 = (550, 516, 819) := by decide +kernel

/-- 18_host_attach.md, the example of R466: the modules of four addresses, with 62 GiB of host region below the register window. -/
theorem test_host_modules :
    let s := regs lic [(0x7300, 0x1003E)]
    s.hostModule 0x8123C000 = 2 ∧ s.hostModule 0x1100000000 = 1 ∧ s.hostModule 0x1000813000 = 2 ∧ s.hostModule 0x1000006000 = 0 := by decide +kernel

/-- 13_traffic_scheduling.md, the example after R371: segments of port 12, their blocks, and the usable blocks of services 0 and 1. -/
theorem test_sluice_segments :
    let s := regs lic [(rOff .lnk 12 0x210, 0x34), (rOff .rtr 1 0x210, 64), (rOff .lnk 12 0x200, place 51 44 8)]
    let s := s.setSched 12 { list := { inForce := true, entries := [(3, 700), (6, 300)], phase := 0 } }
    (s.segs 12 1000).map (fun σ => (σ.start, σ.len, σ.gates)) = [(0, 700, 3), (700, 300, 6), (1000, 700, 3), (1700, 300, 6)] ∧
    (s.segs 12 1000).map (s.segBlocks 12 1000) = [427, 144, 427, 144] ∧ s.svcBlocks 12 1000 0 = 881 ∧ s.svcBlocks 12 1000 1 = 1418 := by decide +kernel

/-! ### Arithmetic of R148 to R153, with IEEE 754 values -/

theorem test_fp32 : fadd 0x3F800000 0x3F800000 = 0x40000000 ∧ fdiv 0x3F800000 0x40400000 = 0x3EAAAAAB ∧ fsqrt 0x40000000 = 0x3FB504F3 ∧
    fmul 0x7F7FFFFF 0x40000000 = 0x7F800000 ∧ fadd 0x3F800000 0x33800000 = 0x3F800000 := by decide +kernel

/-- R251: CRC-32C of the ASCII digits 1 to 9 is the check value of that code. -/
theorem test_crc32c : crc32c [0x31, 0x32, 0x33, 0x34, 0x35, 0x36, 0x37, 0x38, 0x39] = 0xE3069283 := by
  have h0 : crc32cByte 0xFFFFFFFF#32 0x31 = 0x6F0A661C#32 := by decide +kernel
  have h1 : crc32cByte 0x6F0A661C#32 0x32 = 0x8CAA3B9F#32 := by decide +kernel
  have h2 : crc32cByte 0x8CAA3B9F#32 0x33 = 0xEF84D04D#32 := by decide +kernel
  have h3 : crc32cByte 0xEF84D04D#32 0x34 = 0x09C50B11#32 := by decide +kernel
  have h4 : crc32cByte 0x09C50B11#32 0x35 = 0xE72EDCCA#32 := by decide +kernel
  have h5 : crc32cByte 0xE72EDCCA#32 0x36 = 0xBECA8E79#32 := by decide +kernel
  have h6 : crc32cByte 0xBECA8E79#32 0x37 = 0xEDBD6815#32 := by decide +kernel
  have h7 : crc32cByte 0xEDBD6815#32 0x38 = 0x9F787F65#32 := by decide +kernel
  have h8 : crc32cByte 0x9F787F65#32 0x39 = 0x1CF96D7C#32 := by decide +kernel
  simp only [crc32c, List.foldl_cons, List.foldl_nil]
  rw [h0, h1, h2, h3, h4, h5, h6, h7, h8]
  decide

/-! ### Single commands -/

/-- The block idles on an empty queue (log 8). -/
theorem test_idle : step licZ = .next licZ := by
  unfold step
  rw [show licZ.pending = [] from rfl]

/-- R479: firmware writes COH_CTRL, the host die may not. -/
theorem test_register_write :
    (match exec (.registerWrite .firmware 0x405200 8 0x12345) licZ with | .next t => t.reg 0x405200 | _ => 0) = 0x2345 ∧
    (match exec (.registerWrite .hostDie 0x405200 8 0x12345) licZ with | .next t => decide (t.reg 0x405200 = licZ.reg 0x405200) | _ => false) = true := by
  decide +kernel

set_option maxRecDepth 100000 in
/-- R467: a 64-byte write of the host die puts its bytes into their line and leaves the byte after them. -/
theorem test_host_write :
    (match exec (.write64 0xFFFFFF40 (List.replicate 64 7) false) (hostZ (licZ.hostModule 0xFFFFFF40) 2) with
      | .next t => (t.rdB (hostPhys 0x7FFFFF40), t.rdB (hostPhys 0x7FFFFF7F), t.rdB (hostPhys 0x7FFFFF80))
      | _ => (0, 0, 0)) = (7, 7, 0) := by decide +kernel

/-- R440: EVT_FORCE sets a status bit and EVT_STATUS clears it. -/
theorem test_event_force_and_clear :
    (match exec (.evtForce .firmware 0x405 1) licZ with
      | .next t => (bit (t.reg 0x405020) 0, match exec (.evtStatusClear .firmware 0x405 1) t with | .next u => bit (u.reg 0x405020) 0 | _ => true)
      | _ => (false, true)) = (true, false) := by decide +kernel

/-- R474: the host die's sign of life. -/
theorem test_host_alive : (match exec (.hostAlive 1) (hostZ 0 0) with | .next t => (t.fld 0x6228 1 0, t.reg 0x6230) | _ => (0, 0)) = (2, 1) := by decide +kernel

/-- R345: a lane over its limit in 16 ticks takes an UP port to RETRAIN with cause 3. -/
theorem test_lane_error : (match exec (.laneErr 5 6) (portE 4 { laneRuns := [(6, 16)] }) with
    | .next t => (t.linkState 5, t.fld (rOff .lnk 5 0x210) 43 40, (t.link 5).myLanes) | _ => (0, 0, 0)) = (5, 3, 0xBF) := by decide +kernel

end Sys2Proof.Machine.Tests
end

section
/-! PROOF. Fields of words: what a field of a word built by `place`, `setBits` and `|||` reads as. -/

namespace Sys2Proof.Machine

/-- Bit `k` of a field is bit `lo + k` of the word. -/
theorem testBit_bits (w : Word) (hi lo k : Nat) : (bits w hi lo).testBit k = (decide (k < hi - lo + 1) && bit w (lo + k)) := by
  simp [bits, bit, BitVec.getLsbD, Nat.testBit_mod_two_pow, Nat.testBit_div_two_pow, Nat.add_comm]

/-- Words that agree bit by bit within a field hold the same value in it. -/
theorem bits_congr {w u : Word} {hi lo : Nat} (hl : lo ≤ hi) (h : ∀ i, lo ≤ i → i ≤ hi → bit w i = bit u i) : bits w hi lo = bits u hi lo := by
  refine Nat.eq_of_testBit_eq fun k => ?_
  rw [testBit_bits, testBit_bits]
  by_cases hk : k < hi - lo + 1
  · rw [h (lo + k) (by omega) (by omega)]
  · simp [hk]

theorem bits_or (w u : Word) (hi lo : Nat) : bits (w ||| u) hi lo = bits w hi lo ||| bits u hi lo := by
  refine Nat.eq_of_testBit_eq fun k => ?_
  rw [Nat.testBit_or, testBit_bits, testBit_bits, testBit_bits, ← Bool.and_or_distrib_left]
  simp [bit]

/-- A field write is read back, cut to the field. -/
theorem bits_setBits_self (w : Word) {hi lo : Nat} (hl : lo ≤ hi) (hh : hi < 64) (v : Nat) :
    bits (setBits w hi lo v) hi lo = v % 2 ^ (hi - lo + 1) := by
  refine Nat.eq_of_testBit_eq fun k => ?_
  rw [testBit_bits, bit_setBits w hl, Nat.testBit_mod_two_pow]
  by_cases hk : k < hi - lo + 1
  · rw [if_pos ⟨by omega, by omega, by omega⟩, Nat.add_sub_cancel_left]
  · simp [hk]

/-- A placed value is read back, cut to its field. -/
theorem bits_place_self {hi lo : Nat} (hl : lo ≤ hi) (hh : hi < 64) (v : Nat) : bits (place hi lo v) hi lo = v % 2 ^ (hi - lo + 1) := by
  rw [← bits_setBits_self 0 hl hh v]
  simp [setBits]

/-- A field placed where it was read from is read back. -/
theorem bits_place_bits (w : Word) {hi lo : Nat} (hl : lo ≤ hi) (hh : hi < 64) : bits (place hi lo (bits w hi lo)) hi lo = bits w hi lo := by
  rw [bits_place_self hl hh, bits, Nat.mod_mod]

/-- A placed value leaves every field beside its own zero. -/
theorem bits_place_apart {hi lo hi' lo' : Nat} (hl : lo ≤ hi) (hl' : lo' ≤ hi') (h : hi < lo' ∨ hi' < lo) (v : Nat) :
    bits (place hi lo v) hi' lo' = 0 := by
  have hz : bits (place hi lo v) hi' lo' = bits 0 hi' lo' := bits_congr hl' fun i _ _ => by
    rw [bit_place hl, decide_eq_false (by omega)]; simp [bit]
  rw [hz]; simp [bits]

end Sys2Proof.Machine
end

section
/-! PROOF. The first-error capture of R439, register by register. -/

namespace Sys2Proof.Machine

/-- Consecutive registers from `o` written with the words of a list. -/
def State.setRegs : List Word → Nat → State → State
  | [], _, s => s
  | w :: ws, o, s => State.setRegs ws (o + 8) (s.setReg o w)

theorem State.reg_setRegs_ne (ws : List Word) : ∀ (o x : Nat) (s : State), (∀ k < ws.length, x ≠ o + 8 * k) → (State.setRegs ws o s).reg x = s.reg x := by
  induction ws with
  | nil => intros; rfl
  | cons w ws ih =>
    intro o x s h
    have h0 : x ≠ o := h 0 (by simp)
    have hr : ∀ k < ws.length, x ≠ o + 8 + 8 * k := fun k hk => by
      have := h (k + 1) (by simpa using hk)
      omega
    rw [State.setRegs, ih _ _ _ hr, s.reg_setReg_ne h0]

theorem State.reg_setRegs (ws : List Word) : ∀ (o k : Nat) (s : State) (h : k < ws.length), (State.setRegs ws o s).reg (o + 8 * k) = ws[k] := by
  induction ws with
  | nil => intro o k s h; simp at h
  | cons w ws ih =>
    intro o k s h
    cases k with
    | zero => rw [State.setRegs, State.reg_setRegs_ne _ _ _ _ (by omega)]; simp
    | succ k => rw [State.setRegs, show o + 8 * (k + 1) = o + 8 + 8 * k by omega, ih _ _ _ (by simpa using h)]; simp

/-- The eight words that a free capture takes for an error in a tick and cycle (R439). -/
def ErrInfo.logWords (e : ErrInfo) (tick cycle : Nat) : List Word :=
  [place 63 48 1 ||| place 39 32 e.evtBit ||| place 31 24 e.status ||| place 23 8 e.code ||| place 0 0 1,
   place 61 48 cycle ||| place 47 0 tick,
   (e.port.elim 0 fun p => place 41 41 1 ||| place 40 36 p) ||| place 35 16 e.src ||| place 15 0 e.ctx,
   e.addr, e.d0, e.d1, e.d2, e.d3]

/-- A held capture counts a further error and sets OVERFLOW; nothing else. -/
theorem State.capture_held {s : State} {b : Blk} {i : Nat} (h : bit (s.reg (rOff b i 0x40)) 0 = true) (e : ErrInfo) :
    s.capture b i e = s.setReg (rOff b i 0x40)
      (setBits (setBits (s.reg (rOff b i 0x40)) 1 1 1) 63 48 (min 0xFFFF (bits (s.reg (rOff b i 0x40)) 63 48 + 1))) := by
  simp [State.capture, h]

/-- A free capture takes the error's words. -/
theorem State.capture_free {s : State} {b : Blk} {i : Nat} (h : bit (s.reg (rOff b i 0x40)) 0 = false) {e : ErrInfo} {c : Nat} (hc : e.cycle = some c) :
    s.capture b i e = State.setRegs (e.logWords s.tick c) (rOff b i 0x40) s := by
  cases hp : e.port <;> simp [State.capture, h, hc, hp, ErrInfo.logWords, State.setRegs, State.tick]

/-- The capture's registers after a first error. -/
theorem State.reg_capture_free {s : State} {b : Blk} {i : Nat} (h : bit (s.reg (rOff b i 0x40)) 0 = false) {e : ErrInfo} {c : Nat} (hc : e.cycle = some c)
    {k : Nat} (hk : k < 8) : (s.capture b i e).reg (rOff b i 0x40 + 8 * k) = (e.logWords s.tick c)[k]'hk := by
  rw [State.capture_free h hc, State.reg_setRegs (e.logWords s.tick c) _ k s hk]

/-- A capture whose cycle is given leaves every register beside the page's eight. -/
theorem State.reg_capture_ne {s : State} {b : Blk} {i x : Nat} {e : ErrInfo} {c : Nat} (hc : e.cycle = some c)
    (hx : ∀ k < 8, x ≠ rOff b i 0x40 + 8 * k) : (s.capture b i e).reg x = s.reg x := by
  cases h : bit (s.reg (rOff b i 0x40)) 0 with
  | true => rw [State.capture_held h, s.reg_setReg_ne (by simpa using hx 0)]
  | false => rw [State.capture_free h hc, State.reg_setRegs_ne (e.logWords s.tick c) _ _ _ hx]

end Sys2Proof.Machine
end

section
/-! PROOF. Writes to the CTRL and BASE registers of a table (R35): the ignored ones, with BUSY_ERR and the EXT page's capture, and the stored base. -/

namespace Sys2Proof

/-- The CTRL register of a table (R37). -/
def Table.ctrl (tb : Table) : Nat := tb.group + 0x18

theorem Table.num_lt (tb : Table) : tb.num < 8 := by cases tb <;> decide

/-- The EXT page's capture lies apart from every CTRL register. -/
theorem Table.errLog_ne_ctrl (tb : Table) {k : Nat} (hk : k < 8) : 0x7040 + 8 * k ≠ tb.ctrl := by
  unfold Table.ctrl Table.group; omega

end Sys2Proof

namespace Sys2Proof.Machine

variable {s t : State} {tb : Table} {v : Word} {cy : BitVec 14} {off : Nat}

/-! ### What an ignored write leaves -/

/-- A further error counted in the EXT page's held capture: OVERFLOW and COUNT, its other words as they were (R439). -/
def State.countsFurther (s t : State) : Prop :=
  bit (t.reg 0x7040) 1 = true ∧ t.fld 0x7040 63 48 = min 0xFFFF (s.fld 0x7040 63 48 + 1) ∧ ∀ k < 8, 1 ≤ k → t.reg (0x7040 + 8 * k) = s.reg (0x7040 + 8 * k)

/-- An ignored write of `v` at offset `off` recorded in the EXT page's free capture, with the figures of R35. -/
def State.recordsFirst (s : State) (tb : Table) (v : Word) (cy : BitVec 14) (off : Nat) (t : State) : Prop :=
  t.fld 0x7040 31 24 = 0 ∧ t.fld 0x7040 23 8 = 0 ∧ t.fld 0x7040 39 32 = 0 ∧ t.fld 0x7040 63 48 = 1 ∧
    bit (t.reg 0x7040) 0 = true ∧ t.fld 0x7048 47 0 = s.tick % 2 ^ 48 ∧ t.fld 0x7048 61 48 = cy.toNat ∧ t.reg 0x7050 = 0 ∧
    (t.reg 0x7058).toNat = tb.num ∧ (t.reg 0x7060).toNat = off % 4096 ∧ t.reg 0x7068 = v ∧ t.reg 0x7070 = 0 ∧ t.reg 0x7078 = 0

/-- What an ignored write of `v` at offset `off` leaves (R35). -/
def State.ignoresWrite (s : State) (tb : Table) (v : Word) (cy : BitVec 14) (off : Nat) (t : State) : Prop :=
  bit (t.reg tb.ctrl) 3 = true ∧ (∀ i < 64, i ≠ 3 → bit (t.reg tb.ctrl) i = bit (s.reg tb.ctrl) i) ∧
    (∀ o, o ≠ tb.ctrl → (∀ k < 8, o ≠ 0x7040 + 8 * k) → t.reg o = s.reg o) ∧ s.changes [.regs, .fresh, .out] t ∧
    (bit (s.reg 0x7040) 0 = true → s.countsFurther t) ∧ (bit (s.reg 0x7040) 0 = false → s.recordsFirst tb v cy off t)

/-! ### The capture of an ignored write -/

/-- The error that an ignored write hands to the capture (R35). -/
def ignoredInfo (tb : Table) (v : Word) (cy : BitVec 14) (off : Nat) : ErrInfo :=
  { cycle := some cy.toNat, addr := BitVec.ofNat 64 tb.num, d0 := BitVec.ofNat 64 (off % 4096), d1 := v }

theorem State.busyErr_eq (s : State) (tb : Table) (v : Word) (cy : BitVec 14) (off : Nat) :
    s.busyErr tb off v cy.toNat = (s.setFld tb.ctrl 3 3 1).capture .ext 0 (ignoredInfo tb v cy off) := rfl

theorem State.capture_countsFurther (h : bit (s.reg 0x7040) 0 = true) (e : ErrInfo) : s.countsFurther (s.capture .ext 0 e) := by
  have hc : s.capture .ext 0 e = s.setReg 0x7040 (setBits (setBits (s.reg 0x7040) 1 1 1) 63 48 (min 0xFFFF (s.fld 0x7040 63 48 + 1))) :=
    State.capture_held (b := .ext) (i := 0) h e
  rw [hc]
  refine ⟨?_, ?_, fun k _ hk => s.reg_setReg_ne (by omega) _⟩
  · simp [bit_setBits]
  · rw [State.fld, State.reg_setReg_self, bits_setBits_self _ (by omega) (by omega)]
    omega

theorem State.capture_recordsFirst (h : bit (s.reg 0x7040) 0 = false) (tb : Table) (v : Word) (cy : BitVec 14) (off : Nat) :
    s.recordsFirst tb v cy off (s.capture .ext 0 (ignoredInfo tb v cy off)) := by
  have word : ∀ k (hk : k < 8), (s.capture .ext 0 (ignoredInfo tb v cy off)).reg (0x7040 + 8 * k) =
      ((ignoredInfo tb v cy off).logWords s.tick cy.toNat)[k]'hk := fun k hk => State.reg_capture_free (b := .ext) (i := 0) h rfl hk
  have w0 : (s.capture .ext 0 (ignoredInfo tb v cy off)).reg 0x7040 = 0x1000000000001 :=
    (word 0 (by decide)).trans (show place 63 48 1 ||| place 39 32 0 ||| place 31 24 0 ||| place 23 8 0 ||| place 0 0 1 = 0x1000000000001 by decide)
  have w1 : (s.capture .ext 0 (ignoredInfo tb v cy off)).reg 0x7048 = place 61 48 cy.toNat ||| place 47 0 s.tick := word 1 (by decide)
  have w2 : (s.capture .ext 0 (ignoredInfo tb v cy off)).reg 0x7050 = 0 :=
    (word 2 (by decide)).trans (show (0 ||| place 35 16 0 ||| place 15 0 0 : Word) = 0 by decide)
  have w3 : (s.capture .ext 0 (ignoredInfo tb v cy off)).reg 0x7058 = BitVec.ofNat 64 tb.num := word 3 (by decide)
  have w4 : (s.capture .ext 0 (ignoredInfo tb v cy off)).reg 0x7060 = BitVec.ofNat 64 (off % 4096) := word 4 (by decide)
  have hn : tb.num < 2 ^ 64 := by have := tb.num_lt; omega
  have ho : off % 4096 < 2 ^ 64 := by omega
  unfold State.recordsFirst State.fld
  rw [w0, w1, w3, w4]
  refine ⟨by decide, by decide, by decide, by decide, by decide, ?_, ?_, w2, Nat.mod_eq_of_lt hn, Nat.mod_eq_of_lt ho,
    word 5 (by decide), word 6 (by decide), word 7 (by decide)⟩
  · rw [bits_or, bits_place_apart (by omega) (by omega) (by omega), bits_place_self (by omega) (by omega), Nat.zero_or]
  · rw [bits_or, bits_place_apart (lo := 0) (by omega) (by omega) (by omega), bits_place_self (by omega) (by omega), Nat.or_zero]
    exact Nat.mod_eq_of_lt cy.isLt

/-! ### An ignored write -/

/-- The EXT page's capture is not touched by a write of BUSY_ERR. -/
theorem State.errLog_setBusy (s : State) (tb : Table) (x : Nat) {k : Nat} (hk : k < 8) :
    (s.setFld tb.ctrl 3 3 x).reg (0x7040 + 8 * k) = s.reg (0x7040 + 8 * k) := s.reg_setFld_ne (tb.errLog_ne_ctrl hk) 3 3 x

/-- A write of BUSY_ERR leaves the other bits of its register. -/
theorem State.bit_ctrl_setBusy (s : State) (tb : Table) (x : Nat) {i : Nat} (hi : i ≠ 3) :
    bit ((s.setFld tb.ctrl 3 3 x).reg tb.ctrl) i = bit (s.reg tb.ctrl) i := by
  rw [State.reg_setFld_self, bit_setBits _ (by omega), if_neg (by omega)]

/-- A state that differs in BUSY_ERR alone ignores a write as the other does. -/
theorem State.ignoresWrite_of_setBusy {x : Nat} (h : (s.setFld tb.ctrl 3 3 x).ignoresWrite tb v cy off t) : s.ignoresWrite tb v cy off t := by
  obtain ⟨hbusy, hbits, hregs, hparts, hmore, hfirst⟩ := h
  have hlog : ∀ k < 8, (s.setFld tb.ctrl 3 3 x).reg (0x7040 + 8 * k) = s.reg (0x7040 + 8 * k) := fun k hk => s.errLog_setBusy tb x hk
  have h0 : (s.setFld tb.ctrl 3 3 x).reg 0x7040 = s.reg 0x7040 := hlog 0 (by omega)
  rw [h0] at hmore hfirst
  refine ⟨hbusy, fun i hi h3 => (hbits i hi h3).trans (s.bit_ctrl_setBusy tb x h3), fun o ho hk => (hregs o ho hk).trans (s.reg_setFld_ne ho 3 3 x),
    State.changes_trans (State.changes_mono (s.setFld_changes _ _ _ _) (by simp)) hparts, fun h => ?_, hfirst⟩
  obtain ⟨hover, hcount, hrest⟩ := hmore h
  exact ⟨hover, by rw [hcount, State.fld, State.fld, h0], fun k hk h1 => (hrest k hk h1).trans (hlog k hk)⟩

/-- `busyErr` sets BUSY_ERR and feeds the capture. -/
theorem State.busyErr_ignoresWrite (s : State) (tb : Table) (v : Word) (cy : BitVec 14) (off : Nat) :
    s.ignoresWrite tb v cy off (s.busyErr tb off v cy.toNat) := by
  refine State.ignoresWrite_of_setBusy (x := 1) ?_
  rw [State.busyErr_eq]
  have hkeep : ∀ {o : Nat}, (∀ k < 8, o ≠ 0x7040 + 8 * k) →
      ((s.setFld tb.ctrl 3 3 1).capture .ext 0 (ignoredInfo tb v cy off)).reg o = (s.setFld tb.ctrl 3 3 1).reg o :=
    fun hx => State.reg_capture_ne (b := .ext) (i := 0) rfl hx
  have hctrl := hkeep fun k hk => (tb.errLog_ne_ctrl hk).symm
  refine ⟨?_, fun i _ _ => by rw [hctrl], fun o _ hk => hkeep hk, State.changes_mono (State.capture_changes _ _ _ _) (by simp),
    fun h => State.capture_countsFurther h _, fun h => State.capture_recordsFirst h _ _ _ _⟩
  rw [hctrl, State.reg_setFld_self, bit_setBits _ (by omega), if_pos (by omega)]
  rfl

/-- An accepted register access is answered without touching a register. -/
theorem State.respond_reg (s : State) (by' : Agent) (o : Nat) : (s.respond by' true).reg o = s.reg o := by cases by' <;> rfl

/-- Answering the write touches nothing that R35 speaks of. -/
theorem State.ignoresWrite_respond (h : s.ignoresWrite tb v cy off t) (by' : Agent) : s.ignoresWrite tb v cy off (t.respond by' true) := by
  obtain ⟨hbusy, hbits, hregs, hparts, hmore, hfirst⟩ := h
  simp only [State.ignoresWrite, State.countsFurther, State.recordsFirst, State.fld, State.respond_reg]
  exact ⟨hbusy, hbits, hregs, State.changes_trans hparts (State.changes_mono (State.respond_changes _ _ _) (by simp)), hmore, hfirst⟩

/-! ### The two commands -/

/-- A switch request on a held table ends in `busyErr`, after the write has cleared BUSY_ERR where its bit asks for that. -/
theorem State.ctrlWrite_of_held (hv : bit v 1 = true) (held : s.switchPending tb = true ∨ s.oldFree tb = false) (cycle : Nat) :
    s.ctrlWrite tb v cycle = (if bit v 3 then s.setFld tb.ctrl 3 3 0 else s).busyErr tb tb.ctrl v cycle := by
  have hpending : (s.setFld tb.ctrl 3 3 0).switchPending tb = s.switchPending tb := s.bit_ctrl_setBusy tb 0 (by omega)
  have hold : (s.setFld tb.ctrl 3 3 0).oldFree tb = s.oldFree tb := s.bit_ctrl_setBusy tb 0 (by omega)
  rw [Table.ctrl] at hpending hold
  cases h3 : bit v 3 <;> simp [State.ctrlWrite, Table.ctrl, h3, hv, hpending, hold, held]

theorem State.ctrlWrite_ignoresWrite (hv : bit v 1 = true) (held : s.switchPending tb = true ∨ s.oldFree tb = false) (cy : BitVec 14) :
    s.ignoresWrite tb v cy tb.ctrl (s.ctrlWrite tb v cy.toNat) := by
  rw [State.ctrlWrite_of_held hv held]
  split
  · exact State.ignoresWrite_of_setBusy (State.busyErr_ignoresWrite _ _ _ _ _)
  · exact s.busyErr_ignoresWrite _ _ _ _

theorem exec_tableSwitchReq {by' : Agent} (h : mayCtrl by' tb = true) (v : Word) (cy : BitVec 14) (s : State) :
    exec (.tableSwitchReq by' tb v cy) s = .next ((s.ctrlWrite tb v cy.toNat).respond by' true) := by
  change execTableSwitchReq by' tb v cy s = _
  rw [execTableSwitchReq, if_pos h]

theorem exec_tableBaseWrite_firmware (tb : Table) (bank : Bool) (v : Word) (cy : BitVec 14) (s : State) :
    exec (.tableBaseWrite .firmware tb bank v cy) s = .next (s.baseWrite tb bank v cy.toNat) := rfl

end Sys2Proof.Machine
end

section
/-! PROOF. Obligation O9. -/

namespace Sys2Proof.Machine

/-- Settles O9: an ignored write is `busyErr`, whose two register effects are read off; any other base write is one register store. -/
theorem ignoredSwitchesAndBaseWrites : Obligations.IgnoredSwitchesAndBaseWrites := by
  intro tb v cy s
  refine ⟨fun by' hmay hv held => ?_, fun bank => ⟨fun hign => ?_, fun hbank hfree => ?_⟩⟩
  · exact ⟨_, exec_tableSwitchReq hmay v cy s, State.ignoresWrite_respond (State.ctrlWrite_ignoresWrite hv held cy) by'⟩
  · refine ⟨_, exec_tableBaseWrite_firmware tb bank v cy s, ?_⟩
    rw [State.baseWrite, if_pos hign]
    exact s.busyErr_ignoresWrite tb v cy _
  · refine ⟨_, exec_tableBaseWrite_firmware tb bank v cy s, ?_⟩
    rw [State.baseWrite, if_neg (not_or.mpr ⟨hbank, hfree⟩)]
    refine ⟨?_, s.setReg_changes _ _, s.setReg_regsBut _ _⟩
    rw [State.bankBase, State.fld, State.reg_setReg_self, bits_place_bits v (by omega) (by omega)]

end Sys2Proof.Machine
end

section
/-! PROOF. How HBM stays in its canonical form (R40, obligation O59): one lemma `memoryOk_op` for each operation `op` of the state says that
the state after `op` holds HBM canonically when the state before does. Its proof names the lemmas of the operations that `op` is built from,
branch by branch; only the writes of `Laws/Memory` touch the cells. Shared shapes first: record updates, folds, pairs and options. -/

namespace Sys2Proof.Machine.State

variable {s : State}

theorem memoryOk_update (ok : s.memoryOk) {a b e f g i j k l m n o p q r u v w x y z aa bb cc dd} :
   (State.mk a b s.hbm s.lmeta e f g i j k l m n o p q r u v w x y z aa bb cc dd).memoryOk := ok

theorem memoryOk_foldl {α} {f : State → α → State} {l : List α} (ok : s.memoryOk) (hf : ∀ t x, t.memoryOk → (f t x).memoryOk) :
    (l.foldl f s).memoryOk :=
  List.foldlRecOn (motive := fun t => t.memoryOk = true) l f ok fun t ht x _ => hf t x ht

theorem memoryOk_foldl_snd {α β} {f : β × State → α → β × State} {l : List α} {a} (ok : s.memoryOk)
    (hf : ∀ b t x, t.memoryOk → (f (b, t) x).2.memoryOk) :
    (l.foldl f (a, s)).2.memoryOk :=
  List.foldlRecOn (motive := fun t => t.2.memoryOk = true) l f ok fun t ht x _ => hf t.1 t.2 x ht

theorem memoryOk_of_snd {α} {x : α × State} {a t} (ok : x.2.memoryOk) (e : x = (a, t)) : t.memoryOk := by
  rw [e] at ok; exact ok

theorem memoryOk_getD {o : Option State} (ok : s.memoryOk) (ho : ∀ t, o = some t → t.memoryOk) : (o.getD s).memoryOk := by
  cases o with
  | none => exact ok
  | some t => exact ho t rfl

theorem memoryOk_snd_ite {α} {c : Prop} [Decidable c] {x y : α × State} (hx : x.2.memoryOk) (hy : y.2.memoryOk) :
    (if c then x else y).2.memoryOk := by
  split
  · exact hx
  · exact hy

end Sys2Proof.Machine.State
end

section
/-! PROOF. HBM stays canonical: registers, time, memory bytes, vectors, rings and events (the operations of `Machine/Ops`). -/

namespace Sys2Proof.Machine.State

variable {s : State}

theorem memoryOk_setFld (ok : s.memoryOk) {off hi lo v} : (s.setFld off hi lo v).memoryOk := memoryOk_setReg ok _ _

theorem memoryOk_drawNat (ok : s.memoryOk) : (s.drawNat).2.memoryOk := memoryOk_update ok

theorem memoryOk_drawBool (ok : s.memoryOk) : (s.drawBool).2.memoryOk := memoryOk_update ok

theorem memoryOk_seeTime (ok : s.memoryOk) : s.seeTime.memoryOk := ok

theorem memoryOk_bumpN (ok : s.memoryOk) {b i c n} : (s.bumpN b i c n).memoryOk := memoryOk_ite ok (memoryOk_setReg ok _ _)

theorem memoryOk_emit (ok : s.memoryOk) {o} : (s.emit o).memoryOk := ok

theorem memoryOk_vecSignal (ok : s.memoryOk) {v} : (s.vecSignal v).memoryOk :=
  memoryOk_ite (memoryOk_setReg ok _ _) (memoryOk_bump (memoryOk_emit ok) _ _ _)

theorem memoryOk_useFwSlots (ok : s.memoryOk) {a n} : (s.useFwSlots a n).memoryOk := by
  unfold useFwSlots
  refine memoryOk_foldl ok fun t x ht => ?_
  split
  · exact memoryOk_update ht
  · exact ht

theorem memoryOk_shadow (ok : s.memoryOk) {o v} : (s.shadow o v).memoryOk := memoryOk_writeWords ok _ _

theorem memoryOk_ringSignal (ok : s.memoryOk) {r} : (s.ringSignal r).memoryOk :=
  memoryOk_ite (memoryOk_vecSignal (memoryOk_update ok)) (memoryOk_update ok)

theorem memoryOk_ringPut (ok : s.memoryOk) {r ws} : (s.ringPut r ws).memoryOk :=
  memoryOk_ringSignal (memoryOk_shadow (memoryOk_setFld (memoryOk_writeWords (memoryOk_useFwSlots ok) _ _)))

theorem memoryOk_dropEvent (ok : s.memoryOk) : s.dropEvent.memoryOk :=
  memoryOk_ite (memoryOk_vecSignal (memoryOk_update (memoryOk_setReg (memoryOk_update (memoryOk_bump ok _ _ _)) _ _))) (memoryOk_setReg
    (memoryOk_update (memoryOk_bump ok _ _ _)) _ _)

theorem memoryOk_postEventAt (ok : s.memoryOk) {t e} : (s.postEventAt t e).memoryOk :=
  memoryOk_ite (memoryOk_bump (memoryOk_ringPut ok) _ _ _) (memoryOk_ite ok (memoryOk_dropEvent ok))

theorem memoryOk_postEvent (ok : s.memoryOk) {e} : (s.postEvent e).memoryOk := memoryOk_postEventAt ok

theorem memoryOk_signalPage (ok : s.memoryOk) {b i} : (s.signalPage b i).memoryOk :=
  memoryOk_ite ok (memoryOk_ite (memoryOk_postEvent (memoryOk_ite (memoryOk_vecSignal (memoryOk_update ok)) (memoryOk_update ok))) (memoryOk_ite
    (memoryOk_vecSignal (memoryOk_update ok)) (memoryOk_update ok)))

theorem memoryOk_raise (ok : s.memoryOk) {b i k} : (s.raise b i k).memoryOk :=
  memoryOk_ite (memoryOk_signalPage (memoryOk_setReg ok _ _)) (memoryOk_setReg ok _ _)

theorem memoryOk_error (ok : s.memoryOk) {b i e} : (s.error b i e).memoryOk :=
  memoryOk_raise (memoryOk_capture (memoryOk_ite ok (memoryOk_bump ok _ _ _)) _ _ _)

end Sys2Proof.Machine.State
end

section
/-! PROOF. HBM stays canonical: the banked tables and the control region (the operations of `Machine/Tables`). -/

namespace Sys2Proof.Machine.State

variable {s : State}

theorem memoryOk_putEntry (ok : s.memoryOk) {t bank i ws} : (s.putEntry t bank i ws).memoryOk :=
  memoryOk_ite (memoryOk_writeRegion ok _ _ _) (memoryOk_writeWords ok _ _)

theorem memoryOk_putBoth (ok : s.memoryOk) {t i ws} : (s.putBoth t i ws).memoryOk := memoryOk_putEntry (memoryOk_putEntry ok)

theorem memoryOk_changeLive (ok : s.memoryOk) {t i ws effect} : (s.changeLive t i ws effect).memoryOk := memoryOk_update (memoryOk_putBoth ok)

theorem memoryOk_invalidate (ok : s.memoryOk) {t i n} : (s.invalidate t i n).memoryOk := ok

theorem memoryOk_writeTables (ok : s.memoryOk) {a bs poison} : (s.writeTables a bs poison).memoryOk := memoryOk_update (memoryOk_writeRegion ok _ _ _)

theorem memoryOk_setPkt (ok : s.memoryOk) {p key valid} : (s.setPkt p key valid).memoryOk := memoryOk_putBoth ok

theorem memoryOk_setPmap (ok : s.memoryOk) {base i valid parcel stack} : (s.setPmap base i valid parcel stack).memoryOk :=
  memoryOk_writeRegion ok _ _ _

theorem memoryOk_placeBlock (ok : s.memoryOk) {n align} : (s.placeBlock n align).2.memoryOk := memoryOk_update ok

theorem memoryOk_freeBlock (ok : s.memoryOk) {a} : (s.freeBlock a).memoryOk := ok

theorem memoryOk_busyErr (ok : s.memoryOk) {t off value cycle} : (s.busyErr t off value cycle).memoryOk := memoryOk_capture (memoryOk_setFld ok) _ _ _

theorem memoryOk_fwSwitch (ok : s.memoryOk) {t} : (s.fwSwitch t).memoryOk := memoryOk_setReg ok _ _

end Sys2Proof.Machine.State
end

section
/-! PROOF. HBM stays canonical: the budgets of a tick (the operations of `Machine/Ledger`). -/

namespace Sys2Proof.Machine.State

variable {s : State}

theorem memoryOk_setSched (ok : s.memoryOk) {p c} : (s.setSched p c).memoryOk := ok

theorem memoryOk_setLink (ok : s.memoryOk) {p l} : (s.setLink p l).memoryOk := ok

theorem memoryOk_addDemand (ok : s.memoryOk) {h o c n} : (s.addDemand h o c n).memoryOk := ok

theorem memoryOk_reserve (ok : s.memoryOk) {h rid ns} : (s.reserve h rid ns).memoryOk :=
  memoryOk_foldl ok fun _ _ ht => memoryOk_ite (memoryOk_addDemand ht) ht

theorem memoryOk_refusedDemand (ok : s.memoryOk) {h ns bad least} : (s.refusedDemand h ns bad least).memoryOk :=
  memoryOk_foldl (memoryOk_ite ok ok) fun _ _ ht => memoryOk_ite (memoryOk_addDemand ht) ht

theorem memoryOk_releaseAfter (ok : s.memoryOk) {rid} : (s.releaseAfter rid).memoryOk := ok

theorem memoryOk_returnFreed (ok : s.memoryOk) : s.returnFreed.memoryOk := ok

end Sys2Proof.Machine.State
end

section
/-! PROOF. HBM stays canonical: frames, lines of the pool, their check and their repair (the operations of `Machine/Lines`). -/

namespace Sys2Proof.Machine.State

variable {s : State}

theorem memoryOk_setPft (ok : s.memoryOk) {p v} : (s.setPft p v).memoryOk := ok

theorem memoryOk_setFht (ok : s.memoryOk) {f v} : (s.setFht f v).memoryOk := ok

theorem memoryOk_setLsm (ok : s.memoryOk) {ln v} : (s.setLsm ln v).memoryOk := ok

theorem memoryOk_moveLine (ok : s.memoryOk) {ln v} : (s.moveLine ln v).memoryOk := memoryOk_setLsm (memoryOk_setFht ok)

/-- A frame asked for draws one free value, whether or not there is one. -/
theorem takeFrame_snd (s : State) (st : Nat) : (s.takeFrame st).2 = { s with fresh := s.fresh + 1 } := by
  simp only [takeFrame, apply_ite Prod.snd, ite_self]

theorem memoryOk_takeFrame (ok : s.memoryOk) {st} : (s.takeFrame st).2.memoryOk := by
  rw [takeFrame_snd]; exact ok

theorem memoryOk_giveFrame (ok : s.memoryOk) {p st assured hold kind s'} (e : s.giveFrame p st assured hold kind = some s') :
    s'.memoryOk := by
  have take : ∀ (t : State) (st : Nat), t.memoryOk → (t.takeFrame st).2.memoryOk := fun _ _ ht => memoryOk_takeFrame ht
  rw [giveFrame] at e
  -- `takeFrame` searches a list of 32,768 frames, which the kernel must not unfold.
  generalize State.takeFrame = tf at e take
  split at e
  · cases e
  · next heq =>
    have home := memoryOk_of_snd (take _ _ ok) heq
    extract_lets base at e
    split at e
    · split at e
      · cases e
      · next heq =>
          exact Option.some.inj e ▸ memoryOk_setPft (memoryOk_setFht (memoryOk_setFht (memoryOk_of_snd (take _ _ (memoryOk_setFht home)) heq)))
    · exact Option.some.inj e ▸ memoryOk_setPft (memoryOk_setFht home)

theorem memoryOk_clearLsm (ok : s.memoryOk) {f} : (s.clearLsm f).memoryOk := ok

theorem memoryOk_dropFrameRepairs (ok : s.memoryOk) {f} : (s.dropFrameRepairs f).memoryOk := ok

theorem memoryOk_freeFrame (ok : s.memoryOk) {p} : (s.freeFrame p).memoryOk := by
  unfold freeFrame
  split
  · exact ok
  · exact memoryOk_clearLsm (memoryOk_ite (memoryOk_dropFrameRepairs (memoryOk_setFht (memoryOk_dropFrameRepairs (memoryOk_setFht
    (memoryOk_setPft ok))))) (memoryOk_dropFrameRepairs (memoryOk_setFht (memoryOk_setPft ok))))

theorem memoryOk_holdParcel (ok : s.memoryOk) {mirror p pct} : (s.holdParcel mirror p pct).memoryOk := by
  unfold holdParcel
  split
  · exact ok
  · exact memoryOk_ite (memoryOk_setFht (memoryOk_setFht ok)) (memoryOk_setFht ok)

theorem memoryOk_touch (ok : s.memoryOk) {f} : (s.touch f).memoryOk := memoryOk_setFht ok

theorem memoryOk_hitParcel (ok : s.memoryOk) {p} : (s.hitParcel p).memoryOk := by
  unfold hitParcel
  split
  · exact ok
  · exact memoryOk_touch ok

theorem memoryOk_useSlot (ok : s.memoryOk) {k st pc} : (s.useSlot k st pc).memoryOk := ok

theorem memoryOk_useHost (ok : s.memoryOk) {st pc} : (s.useHost st pc).memoryOk := ok

theorem memoryOk_repairSlot (ok : s.memoryOk) {st pc} : (s.repairSlot st pc).2.memoryOk := by
  unfold repairSlot
  refine memoryOk_snd_ite (memoryOk_useSlot ok) ?_
  refine memoryOk_snd_ite (memoryOk_useSlot ok) ?_
  exact memoryOk_snd_ite (memoryOk_useHost ok) (memoryOk_drawBool ok)

theorem memoryOk_spareSlot (ok : s.memoryOk) {st pc} : (s.spareSlot st pc).2.memoryOk := memoryOk_snd_ite (memoryOk_useSlot ok) (memoryOk_drawBool ok)

theorem memoryOk_queueRefetch (ok : s.memoryOk) {p l} : (s.queueRefetch p l).memoryOk :=
  memoryOk_ite ok (memoryOk_ite (memoryOk_update (memoryOk_bump ok _ _ _)) (memoryOk_update (memoryOk_bump ok _ _ _)))

theorem memoryOk_cancelRefetch (ok : s.memoryOk) {p l} : (s.cancelRefetch p l).memoryOk := ok

theorem memoryOk_noteCrcFail (ok : s.memoryOk) {p l ln} : (s.noteCrcFail p l ln).memoryOk :=
  memoryOk_ite (memoryOk_error ok) (memoryOk_bump (memoryOk_error ok) _ _ _)

theorem memoryOk_noteDirFail (ok : s.memoryOk) {ln} : (s.noteDirFail ln).memoryOk :=
  memoryOk_ite (memoryOk_bump (memoryOk_error ok) _ _ _) (memoryOk_error ok)

theorem memoryOk_deliverPoison (ok : s.memoryOk) {who st} : (s.deliverPoison who st).memoryOk := by
  unfold deliverPoison
  split
  · exact memoryOk_raise (memoryOk_bump ok _ _ _)
  · exact ok

theorem memoryOk_tryMirror (ok : s.memoryOk) {who ln mln bad note} (hn : ∀ t, t.memoryOk → (note t).memoryOk) :
    (s.tryMirror who ln mln bad note).2.memoryOk := by
  unfold tryMirror
  have slot : (if who = .drain then (true, s) else s.repairSlot (stackOf mln) (s.pcOf mln)).2.memoryOk := by
    split
    · exact ok
    · exact memoryOk_repairSlot ok
  dsimp only
  split
  · next t heq => exact memoryOk_raise (memoryOk_bump (memoryOk_of_snd slot heq) _ _ _)
  · next t heq =>
    have read := memoryOk_bump (memoryOk_of_snd slot heq) .hmc (stackOf mln) 0x100
    split
    · exact memoryOk_bump (hn _ read) _ _ _
    · exact memoryOk_queueRepair (memoryOk_bump read _ _ _) _ _

theorem memoryOk_of_tryMirror (ok : s.memoryOk) {who ln mln bad note r t} (hn : ∀ t, t.memoryOk → (note t).memoryOk)
    (e : s.tryMirror who ln mln bad note = (r, t)) : t.memoryOk :=
  memoryOk_of_snd (memoryOk_tryMirror ok hn) e

theorem memoryOk_readFor (ok : s.memoryOk) {who p l ln fmt} : (s.readFor who p l ln fmt).2.2.memoryOk := by
  have read := memoryOk_bump ok .hmc (stackOf ln) 0x100
  unfold readFor
  dsimp only
  split
  · have failed := memoryOk_noteCrcFail read (p := p) (l := l) (ln := ln)
    split
    · have note : ∀ {ml : Nat} (t : State), t.memoryOk → (t.noteCrcFail p l ml).memoryOk := fun _ ht => memoryOk_noteCrcFail ht
      split
      · next heq =>
        have mirror := memoryOk_of_tryMirror failed note heq
        exact memoryOk_ite (memoryOk_deliverPoison mirror) mirror
      · next heq =>
        have poison := memoryOk_deliverPoison (memoryOk_of_tryMirror failed note heq) (who := who) (st := stackOf ln)
        split
        · exact memoryOk_queueRefetch poison
        · exact memoryOk_queueRepair poison _ _
      · next heq => exact memoryOk_deliverPoison (memoryOk_of_tryMirror failed note heq)
    · split
      · exact memoryOk_queueRefetch (memoryOk_deliverPoison failed)
      · exact memoryOk_queueRepair (memoryOk_deliverPoison failed) _ _
  · split
    · exact memoryOk_deliverPoison read
    · exact read

theorem memoryOk_readLine (ok : s.memoryOk) {p l ln fmt} : (s.readLine p l ln fmt).2.2.memoryOk := memoryOk_readFor ok

theorem memoryOk_checkRegion (ok : s.memoryOk) {who ln} : (s.checkRegion who ln).2.memoryOk := by
  unfold checkRegion
  refine memoryOk_snd_ite ?_ (memoryOk_ite (memoryOk_deliverPoison ok) ok)
  exact memoryOk_queueRepair (memoryOk_deliverPoison (memoryOk_ite (memoryOk_error ok) (memoryOk_bump (memoryOk_error ok) _ _ _))) _ _

theorem memoryOk_readRegionFor (ok : s.memoryOk) {who ln} : (s.readRegionFor who ln).2.2.memoryOk :=
  memoryOk_checkRegion (memoryOk_bump ok _ _ _)

theorem memoryOk_readRegionLine (ok : s.memoryOk) {ln} : (s.readRegionLine ln).2.2.memoryOk := memoryOk_readRegionFor ok

theorem memoryOk_keyFail (ok : s.memoryOk) {ln ctx ptr} : (s.keyFail ln ctx ptr).memoryOk := memoryOk_error ok

theorem memoryOk_fetchLine (ok : s.memoryOk) {ln} {s'} (e : s.fetchLine ln = some s') : s'.memoryOk := by
  unfold fetchLine at e
  extract_lets st pc at e
  split at e
  · exact Option.some.inj e ▸ memoryOk_bump (memoryOk_useSlot ok) _ _ _
  · cases e

theorem memoryOk_raiseTableCrc (ok : s.memoryOk) {a} : (s.raiseTableCrc a).memoryOk := by
  unfold raiseTableCrc
  split
  · exact memoryOk_update (memoryOk_error ok)
  · exact ok

theorem memoryOk_parityError (ok : s.memoryOk) {b i} : (s.parityError b i).memoryOk := memoryOk_capture ok _ _ _

theorem memoryOk_dropCopy (ok : s.memoryOk) {tile ln} : (s.dropCopy tile ln).memoryOk := ok

theorem memoryOk_takeCopy (ok : s.memoryOk) {tile x} : (s.takeCopy tile x).2.memoryOk := by
  unfold takeCopy
  split
  · exact ok
  · extract_lets ln fetch
    have fetched (t : State) (ht : t.memoryOk) : (fetch t).2.memoryOk := by
      dsimp only [fetch]
      split
      · exact ht
      · next heq =>
        have read := memoryOk_checkRegion (memoryOk_fetchLine ht heq) (who := .requester) (ln := ln)
        exact memoryOk_snd_ite read (memoryOk_snd_ite (memoryOk_update read) read)
    clear_value fetch
    split
    · exact memoryOk_snd_ite (fetched _ (memoryOk_parityError (memoryOk_dropCopy ok))) ok
    · exact fetched _ ok

theorem memoryOk_takeCopies (ok : s.memoryOk) {tile xs} : (s.takeCopies tile xs).2.memoryOk :=
  memoryOk_foldl_snd ok fun _ _ _ ht => memoryOk_snd_ite (memoryOk_takeCopy ht) ht

theorem memoryOk_setProgCopy (ok : s.memoryOk) {k c} : (s.setProgCopy k c).memoryOk := ok

theorem memoryOk_takeProgram (ok : s.memoryOk) {unit' bank prog} : (s.takeProgram unit' bank prog).2.memoryOk := by
  unfold takeProgram
  extract_lets k c core fetch
  have fetched (t : State) (ht : t.memoryOk) : (fetch t).2.memoryOk := by
    dsimp only [fetch]
    split
    · exact ht
    · next q _ =>
      split
      · exact ht
      · next heq =>
        have read := memoryOk_checkRegion (memoryOk_fetchLine ht heq) (who := .requester) (ln := q / 256)
        exact memoryOk_snd_ite read
          (memoryOk_snd_ite (memoryOk_ite (memoryOk_bump (memoryOk_setProgCopy read) _ _ _) (memoryOk_setProgCopy read)) read)
  clear_value fetch
  have dropped := memoryOk_setProgCopy ok (k := k) (c := {})
  exact memoryOk_snd_ite (fetched _ ok)
    (memoryOk_snd_ite (fetched _ (memoryOk_ite (memoryOk_raise (memoryOk_parityError dropped)) (memoryOk_parityError dropped))) ok)

theorem memoryOk_markParity (ok : s.memoryOk) {x} : (s.markParity x).memoryOk := by
  unfold markParity
  split
  · exact memoryOk_ite (memoryOk_update ok) ok
  · exact memoryOk_ite ok (memoryOk_setProgCopy ok)
  · exact memoryOk_update ok
  · exact memoryOk_update ok
  · exact memoryOk_ite (memoryOk_update ok) (memoryOk_update ok)

theorem memoryOk_putLine (ok : s.memoryOk) {p l ln fmt bs poison mirror} : (s.putLine p l ln fmt bs poison mirror).memoryOk :=
  memoryOk_ite (memoryOk_touch (memoryOk_writeLine (memoryOk_touch (memoryOk_writeLine ok _ _ _ _ _ _ _)) _ _ _ _ _ _ _)) (memoryOk_touch
    (memoryOk_writeLine ok _ _ _ _ _ _ _))

theorem memoryOk_writePool (ok : s.memoryOk) {p l first fmt bs poison} : (s.writePool p l first fmt bs poison).memoryOk := by
  unfold writePool
  split
  · exact ok
  · extract_lets full r t line u v w
    have read : t.memoryOk := by
      dsimp only [t, r]
      split
      · exact ok
      · exact memoryOk_readLine ok
    clear_value t
    have put : u.memoryOk := memoryOk_putLine read
    have written : w.memoryOk := memoryOk_cancelRefetch (memoryOk_ite put (memoryOk_bump put _ _ _))
    exact memoryOk_ite (memoryOk_moveLine written) written

theorem memoryOk_fillLine (ok : s.memoryOk) {p l fmt bs poison} : (s.fillLine p l fmt bs poison).memoryOk := by
  unfold fillLine
  split
  · exact ok
  · exact memoryOk_moveLine (memoryOk_putLine ok)

theorem memoryOk_fillBoth (ok : s.memoryOk) {refetch p l fmt bs poison} : (s.fillBoth refetch p l fmt bs poison).memoryOk := by
  unfold fillBoth
  split
  · exact ok
  · exact memoryOk_moveLine (memoryOk_putLine ok)

theorem memoryOk_setFgroup (ok : s.memoryOk) {p g v} : (s.setFgroup p g v).memoryOk := ok

theorem memoryOk_setSector (ok : s.memoryOk) {k v} : (s.setSector k v).memoryOk := ok

theorem memoryOk_storeFlash (ok : s.memoryOk) {k n bs} : (s.storeFlash k n bs).memoryOk := ok

theorem memoryOk_startFetch (ok : s.memoryOk) {p g} : (s.startFetch p g).memoryOk := memoryOk_ite ok ok

end Sys2Proof.Machine.State
end

section
/-! PROOF. HBM stays canonical: the flash stacks and the work in die frames (the operations of `Machine/Flash`). -/

namespace Sys2Proof.Machine.State

variable {s : State}

theorem memoryOk_sectorFail (ok : s.memoryOk) {k} : (s.sectorFail k).memoryOk := memoryOk_error ok

theorem memoryOk_sitePage (ok : s.memoryOk) {own c} : (s.sitePage own c).2.memoryOk := memoryOk_snd_ite (memoryOk_update ok) (memoryOk_update ok)

theorem memoryOk_setStripe (ok : s.memoryOk) {y} : (s.setStripe y).memoryOk := ok

theorem memoryOk_openStripe (ok : s.memoryOk) {own set s'} (e : s.openStripe own set = some s') : s'.memoryOk := by
  unfold openStripe at e
  obtain ⟨l, -, rfl⟩ := Option.map_eq_some_iff.1 e
  refine memoryOk_foldl_snd ok fun o t i ht => ?_
  cases o with
  | none => exact ht
  | some l => exact memoryOk_sitePage ht

theorem memoryOk_withSlot (ok : s.memoryOk) {own c} : (s.withSlot own c).memoryOk := by
  have more : ∀ t : State, t.memoryOk → (if (t.stripeFor c).isSome then t else (t.openStripe own (c / 8)).getD t).memoryOk :=
    fun t ht => memoryOk_ite ht (memoryOk_getD ht fun _ e => memoryOk_openStripe ht e)
  exact more _ (more _ ok)

theorem memoryOk_confirmGroup (ok : s.memoryOk) {site r n} : (s.confirmGroup site r n).memoryOk := by
  unfold confirmGroup
  refine memoryOk_ite (memoryOk_setFgroup (memoryOk_storeFlash ok)) ?_
  refine memoryOk_update ?_
  refine memoryOk_ite ?_ ?_
  · refine memoryOk_foldl (memoryOk_setFgroup (memoryOk_storeFlash ok)) fun t x ht => ?_
    split
    · exact memoryOk_ite (memoryOk_bump (memoryOk_moveLine ht) _ _ _) ht
    · exact ht
  · refine memoryOk_update ?_
    refine memoryOk_foldl (memoryOk_setFgroup (memoryOk_storeFlash ok)) fun t x ht => ?_
    split
    · exact memoryOk_ite (memoryOk_bump (memoryOk_moveLine ht) _ _ _) ht
    · exact ht

theorem memoryOk_confirmSector (ok : s.memoryOk) {site rs} : (s.confirmSector site rs).memoryOk :=
  memoryOk_ite (memoryOk_foldl (memoryOk_setSector ok) fun _ _ ht => memoryOk_confirmGroup ht) (memoryOk_bump ok _ _ _)

theorem memoryOk_closeStripe (ok : s.memoryOk) {x} : (s.closeStripe x).memoryOk :=
  memoryOk_foldl (memoryOk_bumpN (memoryOk_setStripe ok)) fun _ _ ht => memoryOk_confirmSector ht

theorem memoryOk_stageSector (ok : s.memoryOk) {c rs s'} (e : s.stageSector c rs = some s') : s'.memoryOk := by
  unfold stageSector at e
  extract_lets t at e
  have slotted : t.memoryOk := memoryOk_withSlot ok
  clear_value t
  split at e
  · cases e
  · have counted := fun y => memoryOk_bumpN (memoryOk_setStripe slotted (y := y)) (b := .fmc) (i := c / 4) (c := 0x138) (n := 4096)
    have both := fun y => memoryOk_ite (c := rs.all (·.moved) = true) (memoryOk_bumpN (counted y) (b := .fmc) (i := c / 4) (c := 0x130)
      (n := 4096)) (counted y)
    exact Option.some.inj e ▸ memoryOk_ite (memoryOk_closeStripe (both _)) (both _)

theorem memoryOk_fillStripes (ok : s.memoryOk) {t} : (s.fillStripes t).memoryOk :=
  memoryOk_foldl ok fun _ _ ht => memoryOk_closeStripe (memoryOk_foldl ht fun _ _ ht => memoryOk_bumpN ht)

theorem memoryOk_wear (ok : s.memoryOk) {f} : (s.wear f).memoryOk := memoryOk_setReg (memoryOk_drawBool (memoryOk_drawBool ok)) _ _

theorem memoryOk_showSpares (ok : s.memoryOk) {f} : (s.showSpares f).memoryOk := memoryOk_setFld ok

theorem memoryOk_markBad (ok : s.memoryOk) {k} : (s.markBad k).memoryOk := memoryOk_setSector ok

theorem memoryOk_queueRebuild (ok : s.memoryOk) {d page found} : (s.queueRebuild d page found).memoryOk := memoryOk_ite ok ok

theorem memoryOk_moveSite (ok : s.memoryOk) {x i} : (s.moveSite x i).memoryOk := by
  unfold moveSite
  extract_lets r t
  have sited : r.2.memoryOk := memoryOk_sitePage ok
  clear_value r
  split
  · exact memoryOk_bumpN (memoryOk_setStripe sited)
  · exact memoryOk_update (memoryOk_setStripe sited)

theorem memoryOk_emptyBlock (ok : s.memoryOk) {d inBlock} : (s.emptyBlock d inBlock).memoryOk := by
  unfold emptyBlock
  refine memoryOk_foldl ok fun t x ht => ?_
  split
  · exact memoryOk_moveSite ht
  · exact ht

theorem memoryOk_failDie (ok : s.memoryOk) {d} : (s.failDie d).memoryOk :=
  memoryOk_foldl (memoryOk_emptyBlock (memoryOk_raise (memoryOk_setFld ok))) fun _ _ ht => memoryOk_queueRebuild (memoryOk_foldl ht fun _ _ ht =>
    memoryOk_markBad ht)

theorem memoryOk_retireBlock (ok : s.memoryOk) {d block} : (s.retireBlock d block).memoryOk := by
  unfold retireBlock
  extract_lets f n s1 s2 tier tier' s3 s4 s5
  have counted : s2.memoryOk := memoryOk_setFld (memoryOk_raise ok)
  have shown : s3.memoryOk := memoryOk_showSpares (memoryOk_update counted)
  have emptied : s5.memoryOk := memoryOk_emptyBlock (memoryOk_ite (memoryOk_raise shown) shown)
  exact memoryOk_ite (memoryOk_failDie emptied) emptied

theorem memoryOk_reclaim (ok : s.memoryOk) : s.reclaim.memoryOk :=
  memoryOk_foldl (memoryOk_foldl (memoryOk_update ok) fun _ _ ht => memoryOk_wear ht) fun _ _ ht => memoryOk_retireBlock ht

theorem memoryOk_showStored (ok : s.memoryOk) {t} : (s.showStored t).memoryOk := by
  have added : ∀ c a b {u : State}, u.memoryOk → (if u.fld (rOff .tier t 0x80) 0 0 = 1 then u
      else u.setReg (rOff .tier t c) (u.reg (rOff .tier t c) + BitVec.ofNat 64 b - BitVec.ofNat 64 a)).memoryOk :=
    fun _ _ _ _ hu => memoryOk_ite hu (memoryOk_setReg hu _ _)
  exact memoryOk_update (added _ _ _ (added _ _ _ ok))

theorem memoryOk_ebbSpend (ok : s.memoryOk) {c n} : (s.ebbSpend c n).memoryOk := ok

theorem memoryOk_moveFetches (ok : s.memoryOk) {u} : (s.moveFetches u).memoryOk := ok

theorem memoryOk_giveFrames (ok : s.memoryOk) : s.giveFrames.memoryOk := ok

theorem memoryOk_moveRebuilds (ok : s.memoryOk) {u} : (s.moveRebuilds u).memoryOk := ok

theorem memoryOk_loseGroups (ok : s.memoryOk) {gs} : (s.loseGroups gs).memoryOk :=
  memoryOk_foldl ok fun _ _ ht => memoryOk_postEvent (memoryOk_error (memoryOk_update (memoryOk_setFgroup ht)))

theorem memoryOk_copyPage (ok : s.memoryOk) {d page y} : (s.copyPage d page y).memoryOk :=
  memoryOk_update (memoryOk_foldl ok fun _ _ ht => memoryOk_setSector ht)

theorem memoryOk_placeRebuilt (ok : s.memoryOk) {j} : (s.placeRebuilt j).memoryOk := by
  unfold placeRebuilt
  extract_lets f r
  have sited : r.2.memoryOk := memoryOk_sitePage ok
  clear_value r
  split
  · exact sited
  · have moved := fun y : Nat × Nat => memoryOk_bumpN (memoryOk_bumpN (memoryOk_bump (memoryOk_copyPage sited (d := j.die) (page := j.page)
      (y := y)) .fmc f 0x110)
      (b := .fmc) (i := f) (c := 0x100) (n := 28)) (b := .fmc) (i := fmcOf y.1) (c := 0x138) (n := 16384)
    exact memoryOk_ite (memoryOk_bump (memoryOk_update (moved _)) _ _ _) (memoryOk_update (moved _))

theorem memoryOk_advanceRebuild (ok : s.memoryOk) {j secondFails} : (s.advanceRebuild j secondFails).memoryOk :=
  memoryOk_ite ok (memoryOk_ite (memoryOk_loseGroups (memoryOk_update ok)) (memoryOk_ite ok (memoryOk_placeRebuilt ok)))

theorem memoryOk_emptyRebuilds (ok : s.memoryOk) : s.emptyRebuilds.memoryOk := memoryOk_foldl ok fun _ _ ht => memoryOk_advanceRebuild ht

theorem memoryOk_movePatrol (ok : s.memoryOk) {u} : (s.movePatrol u).memoryOk := memoryOk_foldl ok fun _ _ ht => memoryOk_ite ht ht

theorem memoryOk_bookPatrol (ok : s.memoryOk) {t u} : (s.bookPatrol t u).memoryOk := by
  unfold bookPatrol
  refine memoryOk_ite ok ?_
  refine memoryOk_foldl (memoryOk_update ok) fun t x ht => ?_
  refine memoryOk_ite ht ?_
  dsimp only
  split
  · exact ht
  · exact memoryOk_ite (memoryOk_update ht) ht

theorem memoryOk_flashTurn (ok : s.memoryOk) {u} : (s.flashTurn u).memoryOk :=
  memoryOk_ite ok (memoryOk_reclaim (memoryOk_giveFrames (memoryOk_emptyRebuilds (memoryOk_movePatrol (memoryOk_moveRebuilds
    (memoryOk_moveFetches ok))))))

end Sys2Proof.Machine.State
end

section
/-! PROOF. HBM stays canonical: computed status and flags (the operations of `Machine/Flags`). -/

namespace Sys2Proof.Machine.State

variable {s : State}

theorem memoryOk_setSel (ok : s.memoryOk) {by' a w} : (s.setSel by' a w).memoryOk := by
  unfold setSel
  split
  · exact memoryOk_setReg ok _ _
  · exact memoryOk_update ok

theorem memoryOk_setDom (ok : s.memoryOk) {d v} : (s.setDom d v).memoryOk := ok

theorem memoryOk_setTel (ok : s.memoryOk) {port vc t} : (s.setTel port vc t).memoryOk := ok

end Sys2Proof.Machine.State
end

section
/-! PROOF. HBM stays canonical: completions, journals, admission, the discard rule and parcels (the operations of `Machine/Stop`). -/

namespace Sys2Proof.Machine.State

variable {s : State}

theorem memoryOk_putCpl (ok : s.memoryOk) {i c} : (s.putCpl i c).memoryOk :=
  memoryOk_ite (memoryOk_ringPut ok) (memoryOk_bump (memoryOk_ringPut ok) _ _ _)

theorem memoryOk_postCpl (ok : s.memoryOk) {i c} : (s.postCpl i c).memoryOk :=
  memoryOk_ite (memoryOk_putCpl (memoryOk_bumpN (memoryOk_update ok))) (memoryOk_bump (memoryOk_update (memoryOk_bumpN (memoryOk_update ok))) _ _ _)

theorem memoryOk_postHeld {i n} : ∀ {s : State}, s.memoryOk → (s.postHeld i n).memoryOk := by
  induction n with
  | zero => exact id
  | succ n ih =>
    intro s ok
    unfold postHeld
    split
    · exact ok
    · exact memoryOk_ite (ih (memoryOk_putCpl (memoryOk_update ok))) ok

theorem memoryOk_endCmd (ok : s.memoryOk) {op e status r1 reason} : (s.endCmd op e status r1 reason).memoryOk := memoryOk_postCpl ok

theorem memoryOk_endNow (ok : s.memoryOk) {op e status} : (s.endNow op e status).memoryOk := memoryOk_endCmd ok

theorem memoryOk_refuse (ok : s.memoryOk) {op e retry} : (s.refuse op e retry).memoryOk := memoryOk_endCmd ok

theorem memoryOk_journal (ok : s.memoryOk) {op e obj wait r1} : (s.journal op e obj wait r1).memoryOk := ok

theorem memoryOk_journalTick (ok : s.memoryOk) {op e obj t} : (s.journalTick op e obj t).memoryOk := memoryOk_journal ok

theorem memoryOk_finish (ok : s.memoryOk) {j status r1} : (s.finish j status r1).memoryOk := memoryOk_postCpl (memoryOk_update ok)

theorem memoryOk_finishAll (ok : s.memoryOk) {p status} : (s.finishAll p status).memoryOk := memoryOk_foldl ok fun _ _ ht => memoryOk_finish ht

theorem memoryOk_finishDue (ok : s.memoryOk) {ops} : (s.finishDue ops).memoryOk := memoryOk_finishAll ok

theorem memoryOk_command (ok : s.memoryOk) {op e wellFormed feature obj tenant k} (hk : ∀ t, t.memoryOk → (k t).memoryOk) :
    (s.command op e wellFormed feature obj tenant k).memoryOk := by
  have counted := memoryOk_bump ok .fwc 0 0x100
  unfold command
  refine memoryOk_ite ok (memoryOk_ite (memoryOk_endNow counted) (memoryOk_ite (memoryOk_endNow counted) (memoryOk_ite (memoryOk_endNow counted) ?_)))
  split
  · exact memoryOk_refuse (memoryOk_update counted)
  · exact memoryOk_ite (memoryOk_endNow counted) (hk _ counted)

theorem memoryOk_setAdmission (ok : s.memoryOk) {on} : (s.setAdmission on).memoryOk :=
  memoryOk_foldl (memoryOk_ite ok ok) fun _ _ ht => memoryOk_ite (memoryOk_setReg ht _ _) (memoryOk_raise (memoryOk_setReg ht _ _))

theorem memoryOk_stopAdmission (ok : s.memoryOk) : s.stopAdmission.memoryOk := memoryOk_setAdmission ok

theorem memoryOk_mgtAnswer (ok : s.memoryOk) {op id result body} : (s.mgtAnswer op id result body).memoryOk := memoryOk_bump (memoryOk_emit ok) _ _ _

theorem memoryOk_endReset (ok : s.memoryOk) {result} : (s.endReset result).memoryOk := by
  unfold endReset
  split
  · exact ok
  · exact memoryOk_mgtAnswer (memoryOk_update ok)

theorem memoryOk_openAdmission (ok : s.memoryOk) : s.openAdmission.memoryOk :=
  memoryOk_ite ok (memoryOk_endReset (memoryOk_setAdmission (memoryOk_update ok)))

theorem memoryOk_recordStop (ok : s.memoryOk) {v} : (s.recordStop v).memoryOk := memoryOk_bump (memoryOk_setReg ok _ _) _ _ _

theorem memoryOk_noteDiscard (ok : s.memoryOk) {v r} : (s.noteDiscard v r).memoryOk := ok

theorem memoryOk_endBulk (ok : s.memoryOk) {ring tag status moved fault va reason} : (s.endBulk ring tag status moved fault va reason).memoryOk :=
  memoryOk_postCpl (memoryOk_update ok)

theorem memoryOk_dropPackets (ok : s.memoryOk) {rid} : (s.dropPackets rid).memoryOk := ok

theorem memoryOk_discardReq (ok : s.memoryOk) {v r} : (s.discardReq v r).memoryOk := by
  unfold discardReq
  refine memoryOk_ite (memoryOk_ite (memoryOk_dropPackets (memoryOk_update ok)) (memoryOk_releaseAfter (memoryOk_dropPackets
    (memoryOk_update ok)))) ?_
  dsimp only
  split
  · exact memoryOk_endBulk (memoryOk_bump (memoryOk_ite (memoryOk_dropPackets (memoryOk_update ok)) (memoryOk_releaseAfter (memoryOk_dropPackets
    (memoryOk_update ok)))) _ _ _)
  · exact memoryOk_noteDiscard (memoryOk_bump (memoryOk_ite (memoryOk_dropPackets (memoryOk_update ok)) (memoryOk_releaseAfter (memoryOk_dropPackets
    (memoryOk_update ok)))) _ _ _)

theorem memoryOk_discardWhere (ok : s.memoryOk) {v p} : (s.discardWhere v p).memoryOk := memoryOk_foldl ok fun _ _ ht => memoryOk_discardReq ht

theorem memoryOk_discardParked (ok : s.memoryOk) {p} : (s.discardParked p).memoryOk := by
  unfold discardParked
  refine memoryOk_foldl (memoryOk_update ok) fun t x ht => ?_
  split
  · exact memoryOk_endBulk (memoryOk_bump ht _ _ _)
  · exact ht

theorem memoryOk_discardAll (ok : s.memoryOk) {v} : (s.discardAll v).memoryOk :=
  memoryOk_discardParked (memoryOk_discardWhere (memoryOk_recordStop (memoryOk_stopAdmission ok)))

theorem memoryOk_discardPort (ok : s.memoryOk) {v} : (s.discardPort v).memoryOk := memoryOk_discardWhere (memoryOk_recordStop ok)

theorem memoryOk_domainGoesDown (ok : s.memoryOk) {d cause culprit} : (s.domainGoesDown d cause culprit).memoryOk := by
  unfold domainGoesDown
  dsimp only
  split
  · exact memoryOk_bump (memoryOk_raise (memoryOk_setDom (memoryOk_update (memoryOk_discardWhere (memoryOk_recordStop ok))))) _ _ _
  · exact memoryOk_raise (memoryOk_setDom (memoryOk_update (memoryOk_discardWhere (memoryOk_recordStop ok))))

theorem memoryOk_postDown (ok : s.memoryOk) {d} : (s.postDown d).memoryOk := memoryOk_postEventAt ok

theorem memoryOk_noteDown (ok : s.memoryOk) {d b cause culprit tile} : (s.noteDown d b cause culprit tile).memoryOk := by
  unfold noteDown
  refine memoryOk_ite ok ?_
  split
  · exact memoryOk_ite (memoryOk_setDom ok) ok
  · exact memoryOk_setDom ok

theorem memoryOk_detectDown (ok : s.memoryOk) {d cause culprit tile} : (s.detectDown d cause culprit tile).memoryOk :=
  memoryOk_noteDown (memoryOk_drawBool ok)

theorem memoryOk_allDomainsDown (ok : s.memoryOk) : s.allDomainsDown.memoryOk :=
  memoryOk_foldl ok fun _ _ ht => memoryOk_setDom (memoryOk_postDown (memoryOk_domainGoesDown (memoryOk_setDom ht)))

theorem memoryOk_writeInactive (ok : s.memoryOk) {w} : (s.writeInactive w).memoryOk :=
  memoryOk_putEntry (memoryOk_update (memoryOk_foldl ok fun _ _ ht => memoryOk_putEntry ht))

theorem memoryOk_tableChange (ok : s.memoryOk) {w} : (s.tableChange w).2.memoryOk := by
  unfold tableChange
  refine memoryOk_snd_ite ?_ ?_
  · exact memoryOk_update (memoryOk_putEntry ok)
  · refine memoryOk_snd_ite ?_ (memoryOk_update ok)
    exact memoryOk_update (memoryOk_fwSwitch (memoryOk_writeInactive ok))

theorem memoryOk_runDeferred (ok : s.memoryOk) {t} : (s.runDeferred t).memoryOk := by
  unfold runDeferred
  refine memoryOk_ite ok ?_
  refine memoryOk_foldl (memoryOk_update ok) fun t x ht => ?_
  split
  · next _ t heq =>
      exact memoryOk_update ((memoryOk_of_snd (memoryOk_tableChange ht) heq))
  · next t heq =>
      exact (memoryOk_of_snd (memoryOk_tableChange ht) heq)

theorem memoryOk_takeParcel (ok : s.memoryOk) {ext i} : (s.takeParcel ext i).2.memoryOk := memoryOk_update ok

theorem memoryOk_startStack (ok : s.memoryOk) : (s.startStack).2.memoryOk := memoryOk_update ok

theorem memoryOk_fillLsm (ok : s.memoryOk) {f v} : (s.fillLsm f v).memoryOk := ok

theorem memoryOk_pinZero (ok : s.memoryOk) {p st fmt assured} : (s.pinZero p st fmt assured).memoryOk := by
  have give : ∀ (t u : State) p st assured hold kind, t.memoryOk → t.giveFrame p st assured hold kind = some u → u.memoryOk :=
    fun _ _ _ _ _ _ _ ht => memoryOk_giveFrame ht
  rw [pinZero]
  generalize State.giveFrame = gf at give
  split
  · exact ok
  · next t e =>
    have given := give _ _ _ _ _ _ _ ok e
    split
    · exact given
    · next f _ =>
      have mirrored := fun m => memoryOk_ite (c := assured = true) (memoryOk_zeroFrame
        (memoryOk_zeroFrame given f fmt false (some p)) m fmt true (some p))
        (memoryOk_zeroFrame given f fmt false (some p))
      exact memoryOk_ite (memoryOk_fillLsm (mirrored _)) (mirrored _)

theorem memoryOk_dropParcel (ok : s.memoryOk) {p} : (s.dropParcel p).memoryOk :=
  memoryOk_invalidate (memoryOk_changeLive (memoryOk_update (memoryOk_freeFrame ok)))

theorem memoryOk_changeExtt (ok : s.memoryOk) {x e} : (s.changeExtt x e).memoryOk := memoryOk_invalidate (memoryOk_changeLive ok)

theorem memoryOk_setDrainTicks (ok : s.memoryOk) : s.setDrainTicks.memoryOk := ok

end Sys2Proof.Machine.State
end

section
/-! PROOF. HBM stays canonical: packets that leave (the operations of `Machine/Egress`). -/

namespace Sys2Proof.Machine.State

variable {s : State}

theorem memoryOk_rtrCount (ok : s.memoryOk) {tile c ev} : (s.rtrCount tile c ev).memoryOk := memoryOk_raise (memoryOk_bump ok _ _ _)

theorem memoryOk_enqueue (ok : s.memoryOk) {p e} : (s.enqueue p e).memoryOk := memoryOk_setSched (memoryOk_update ok)

theorem memoryOk_sendCtrl (ok : s.memoryOk) {p pkt cls} : (s.sendCtrl p pkt cls).memoryOk := memoryOk_enqueue ok

theorem memoryOk_sendReply (ok : s.memoryOk) {p pkt filter} : (s.sendReply p pkt filter).memoryOk :=
  memoryOk_ite ok (memoryOk_sendCtrl (memoryOk_bump (memoryOk_setSched ok) _ _ _))

theorem memoryOk_answer (ok : s.memoryOk) {p q status retry reason} : (s.answer p q status retry reason).memoryOk := memoryOk_sendReply ok

theorem memoryOk_countRefusal (ok : s.memoryOk) {tile p ctx reason} : (s.countRefusal tile p ctx reason).memoryOk :=
  memoryOk_ite (memoryOk_raise (memoryOk_setReg (memoryOk_setReg (memoryOk_bump (memoryOk_bump ok _ _ _) _ _ _) _ _) _ _)) (memoryOk_setReg
    (memoryOk_setReg (memoryOk_bump (memoryOk_bump ok _ _ _) _ _ _) _ _) _ _)

theorem memoryOk_refusePkt (ok : s.memoryOk) {tile p q reason} : (s.refusePkt tile p q reason).memoryOk := memoryOk_answer (memoryOk_countRefusal ok)

theorem memoryOk_setMemo (ok : s.memoryOk) {tile bank eid m} : (s.setMemo tile bank eid m).memoryOk := ok

theorem memoryOk_cross (ok : s.memoryOk) {a b n} : (s.cross a b n).memoryOk := memoryOk_ite ok ok

theorem memoryOk_forwardOn (ok : s.memoryOk) {tile p vc pkt stomped} : (s.forwardOn tile p vc pkt stomped).memoryOk :=
  memoryOk_enqueue (memoryOk_bumpN (memoryOk_bump ok _ _ _))

end Sys2Proof.Machine.State
end

section
/-! PROOF. HBM stays canonical: the link layer (the operations of `Machine/LinkOps`). -/

namespace Sys2Proof.Machine.State

variable {s : State}

theorem memoryOk_updateXoff (ok : s.memoryOk) {p} : (s.updateXoff p).memoryOk := memoryOk_setFld ok

theorem memoryOk_sendBlock (ok : s.memoryOk) {p b} : (s.sendBlock p b).memoryOk := memoryOk_bump (memoryOk_emit ok) _ _ _

theorem memoryOk_sendCtl (ok : s.memoryOk) {p cmsg lanes ok' stamp} : (s.sendCtl p cmsg lanes ok' stamp).memoryOk := memoryOk_sendBlock ok

theorem memoryOk_sendNak (ok : s.memoryOk) {p seen ns} : (s.sendNak p seen ns).memoryOk :=
  memoryOk_ite ok (memoryOk_setLink (memoryOk_bump (memoryOk_sendBlock ok) _ _ _))

theorem memoryOk_takeAck (ok : s.memoryOk) {p b} : (s.takeAck p b).memoryOk := memoryOk_setFld (memoryOk_ite (memoryOk_setLink ok) ok)

theorem memoryOk_finishPort (ok : s.memoryOk) {p} : (s.finishPort p).memoryOk := memoryOk_foldl ok fun _ _ ht => memoryOk_finish ht

theorem memoryOk_linkChange (ok : s.memoryOk) {p} : (s.linkChange p).memoryOk := memoryOk_postEvent ok

theorem memoryOk_setLinkState (ok : s.memoryOk) {p st} : (s.setLinkState p st).memoryOk :=
  memoryOk_setFld (memoryOk_ite (memoryOk_setFld (memoryOk_ite (memoryOk_setFld ok) ok)) (memoryOk_ite (memoryOk_setFld ok) ok))

theorem memoryOk_setCause (ok : s.memoryOk) {p c} : (s.setCause p c).memoryOk := memoryOk_setFld ok

theorem memoryOk_stompPartial (ok : s.memoryOk) {p x} : (s.stompPartial p x).memoryOk := by
  unfold stompPartial
  refine memoryOk_ite ok ?_
  dsimp only
  split
  · exact ok
  · exact memoryOk_ite (memoryOk_bump (memoryOk_forwardOn (memoryOk_drawBool ok)) _ _ _) (memoryOk_drawBool ok)

theorem memoryOk_linkCause (ok : s.memoryOk) {p} : (s.linkCause p).memoryOk := by
  unfold linkCause
  refine memoryOk_foldl ok fun t x ht => ?_
  dsimp only
  split
  · exact memoryOk_detectDown ht
  · exact ht

theorem memoryOk_leaveUp (ok : s.memoryOk) {p cause next} : (s.leaveUp p cause next).memoryOk := by
  unfold leaveUp
  extract_lets l s1 s2 s3 q nTransit keep sched s4 s5 s6 s7
  have down : s2.memoryOk := memoryOk_setFld (memoryOk_setLinkState (memoryOk_raise (memoryOk_setCause ok)))
  have stomped : s3.memoryOk := memoryOk_foldl down fun _ _ ht => memoryOk_stompPartial ht
  have kept : s4.memoryOk := memoryOk_setSched stomped
  have counted : s5.memoryOk := memoryOk_ite kept (memoryOk_raise (memoryOk_bumpN kept))
  exact memoryOk_linkCause (memoryOk_setLink (memoryOk_discardPort counted))

theorem memoryOk_dropQueued (ok : s.memoryOk) {p} : (s.dropQueued p).memoryOk := memoryOk_bumpN (memoryOk_update ok)

theorem memoryOk_enterDown (ok : s.memoryOk) {p cause} : (s.enterDown p cause).memoryOk :=
  memoryOk_linkChange (memoryOk_finishPort (memoryOk_setLink (memoryOk_setFld (memoryOk_raise (memoryOk_bump (memoryOk_setLinkState (memoryOk_setCause
    (memoryOk_dropQueued (memoryOk_ite (memoryOk_leaveUp ok) ok)))) _ _ _)))))

theorem memoryOk_enterDisabled (ok : s.memoryOk) {p cause} : (s.enterDisabled p cause).memoryOk :=
  memoryOk_linkChange (memoryOk_finishPort (memoryOk_setLink (memoryOk_setFld (memoryOk_setLinkState (memoryOk_dropQueued (memoryOk_ite
    (memoryOk_leaveUp ok) ok))))))

theorem memoryOk_beginTraining (ok : s.memoryOk) {p st mask retrain} : (s.beginTraining p st mask retrain).memoryOk :=
  memoryOk_setLink (memoryOk_setLinkState ok)

theorem memoryOk_sendSlots (ok : s.memoryOk) {p code n} : (s.sendSlots p code n).memoryOk :=
  memoryOk_setLink (memoryOk_foldl ok fun _ _ ht => memoryOk_sendCtl ht)

theorem memoryOk_endAnnounce (ok : s.memoryOk) {p} : (s.endAnnounce p).memoryOk := memoryOk_sendSlots ok

theorem memoryOk_enterTrain (ok : s.memoryOk) {p} : (s.enterTrain p).memoryOk := memoryOk_ite (memoryOk_beginTraining (memoryOk_setFld ok)) ok

theorem memoryOk_enterRetrain (ok : s.memoryOk) {p cause mask announce} : (s.enterRetrain p cause mask announce).memoryOk :=
  memoryOk_linkChange (memoryOk_ite (memoryOk_sendSlots (memoryOk_setLink (memoryOk_beginTraining (memoryOk_bump (memoryOk_leaveUp ok) _ _ _))))
    (memoryOk_setLink (memoryOk_beginTraining (memoryOk_bump (memoryOk_leaveUp ok) _ _ _))))

theorem memoryOk_replayCause (ok : s.memoryOk) {p cause} : (s.replayCause p cause).memoryOk :=
  memoryOk_ite (memoryOk_enterDown ok) (memoryOk_enterRetrain ok)

theorem memoryOk_enterInit (ok : s.memoryOk) {p lanes leader} : (s.enterInit p lanes leader).memoryOk :=
  memoryOk_sendCtl (memoryOk_setLink (memoryOk_setFld (memoryOk_setFld (memoryOk_setFld (memoryOk_setLinkState ok)))))

theorem memoryOk_enterUp (ok : s.memoryOk) {p} : (s.enterUp p).memoryOk :=
  memoryOk_linkChange (memoryOk_finishPort (memoryOk_ite (memoryOk_raise (memoryOk_raise (memoryOk_setFld (memoryOk_setLink (memoryOk_setFld
    (memoryOk_setLinkState ok)))))) (memoryOk_raise (memoryOk_setFld (memoryOk_setLink (memoryOk_setFld (memoryOk_setLinkState ok)))))))

theorem memoryOk_checkInit (ok : s.memoryOk) {p} : (s.checkInit p).memoryOk := by
  unfold checkInit
  dsimp only
  split
  · exact memoryOk_raise (memoryOk_enterDown ok)
  · exact memoryOk_raise (memoryOk_enterDown ok)
  · exact memoryOk_enterUp ok
  · exact ok

theorem memoryOk_repeatLinkId (ok : s.memoryOk) {p n} : (s.repeatLinkId p n).memoryOk :=
  memoryOk_ite ok (memoryOk_foldl (memoryOk_drawNat ok) fun _ _ ht => memoryOk_sendCtl ht)

theorem memoryOk_countSymbols (ok : s.memoryOk) {symbols codewords} : (s.countSymbols symbols codewords).memoryOk :=
  memoryOk_foldl ok fun _ _ ht => memoryOk_foldl (memoryOk_bumpN ht) fun _ _ ht => memoryOk_setLink (memoryOk_setReg ht _ _)

theorem memoryOk_repeatLinkIds (ok : s.memoryOk) : s.repeatLinkIds.memoryOk :=
  memoryOk_foldl ok fun _ _ ht => memoryOk_ite (memoryOk_repeatLinkId ht) ht

theorem memoryOk_pushEnd (ok : s.memoryOk) {p ns} : (s.pushEnd p ns).memoryOk := by
  unfold pushEnd
  dsimp only
  split
  · exact memoryOk_ite (memoryOk_ite (memoryOk_raise (memoryOk_bump (memoryOk_setSched ok) _ _ _)) (memoryOk_setSched ok)) ok
  · exact ok

theorem memoryOk_replayAll {p ns timer us} : ∀ {s : State}, s.memoryOk → (s.replayAll p ns timer us).memoryOk := by
  induction us with
  | nil => exact id
  | cons u r ih =>
    intro s ok
    unfold replayAll
    refine memoryOk_ite (memoryOk_replayCause ok) (memoryOk_ite (memoryOk_replayCause ok) (ih ?_))
    have sent := fun l b => memoryOk_pushEnd (memoryOk_bump (memoryOk_sendBlock (memoryOk_setLink ok (p := p) (l := l)) (p := p)
      (b := b)) .lnk p 0x118) (p := p) (ns := ns)
    exact memoryOk_ite (memoryOk_bump (sent _ _) _ _ _) (sent _ _)

end Sys2Proof.Machine.State
end

section
/-! PROOF. HBM stays canonical: network time (the operations of `Machine/Tim`). -/

namespace Sys2Proof.Machine.State

variable {s : State}

theorem memoryOk_writeDir (ok : s.memoryOk) {f} : (s.writeDir f).memoryOk := by
  unfold writeDir
  split
  · exact ok
  · exact memoryOk_update ok

theorem memoryOk_confirmTrial (ok : s.memoryOk) : s.confirmTrial.memoryOk := by
  unfold confirmTrial
  split
  · exact memoryOk_ite (memoryOk_writeDir ok) ok
  · exact ok

theorem memoryOk_refreshRecords (ok : s.memoryOk) : s.refreshRecords.memoryOk := by
  unfold refreshRecords
  split
  · exact ok
  · exact memoryOk_ite (memoryOk_update ok) ok

theorem memoryOk_showLicence (ok : s.memoryOk) : s.showLicence.memoryOk := memoryOk_setReg (memoryOk_setReg ok _ _) _ _

theorem memoryOk_showParcels (ok : s.memoryOk) : s.showParcels.memoryOk := memoryOk_setFld ok

theorem memoryOk_takeVariant (ok : s.memoryOk) : s.takeVariant.memoryOk :=
  memoryOk_ite (memoryOk_raise (memoryOk_showParcels (memoryOk_showLicence ok))) ok

theorem memoryOk_showStartMs (ok : s.memoryOk) : s.showStartMs.memoryOk := memoryOk_setFld ok

theorem memoryOk_openDevice (ok : s.memoryOk) : s.openDevice.memoryOk :=
  memoryOk_ite (memoryOk_openAdmission ok) (memoryOk_ite (memoryOk_takeVariant (memoryOk_openAdmission ok)) (memoryOk_refreshRecords
    (memoryOk_confirmTrial (memoryOk_showStartMs (memoryOk_takeVariant (memoryOk_openAdmission ok))))))

theorem memoryOk_setLock (ok : s.memoryOk) {b on} : (s.setLock b on).memoryOk :=
  memoryOk_ite (memoryOk_raise (memoryOk_update (memoryOk_setFld (memoryOk_setFld ok)))) (memoryOk_setFld ok)

theorem memoryOk_updateStratum (ok : s.memoryOk) : s.updateStratum.memoryOk := ok

theorem memoryOk_chooseSource (ok : s.memoryOk) : s.chooseSource.memoryOk := by
  unfold chooseSource
  refine memoryOk_updateStratum ?_
  refine memoryOk_ite ?_ ?_
  · split
    · exact memoryOk_update ok
    · exact ok
  · refine memoryOk_raise ?_
    refine memoryOk_setLock ?_
    refine memoryOk_update ?_
    split
    · refine memoryOk_setFld ?_
      refine memoryOk_setFld ?_
      split
      · exact memoryOk_update ok
      · exact ok
    · refine memoryOk_setFld ?_
      split
      · exact memoryOk_update ok
      · exact ok

theorem memoryOk_noteOffset (ok : s.memoryOk) {o} : (s.noteOffset o).memoryOk := memoryOk_setFld ok

theorem memoryOk_stepTime (ok : s.memoryOk) {o} : (s.stepTime o).memoryOk := memoryOk_bump (memoryOk_update (memoryOk_update ok)) _ _ _

theorem memoryOk_applyOffset (ok : s.memoryOk) {o} : (s.applyOffset o).memoryOk :=
  memoryOk_ite (memoryOk_update (memoryOk_stepTime (memoryOk_noteOffset ok))) (memoryOk_ite (memoryOk_update (memoryOk_setFld (memoryOk_drawNat
    (memoryOk_noteOffset ok)))) (memoryOk_raise (memoryOk_setFld (memoryOk_update (memoryOk_update (memoryOk_setFld (memoryOk_drawNat
    (memoryOk_noteOffset ok))))))))

theorem memoryOk_takeBeacon (ok : s.memoryOk) {p k local'} : (s.takeBeacon p k local').memoryOk := by
  unfold takeBeacon
  extract_lets s1 stratum rtt o tim s2 st s3 good t s4 s5 whole
  have noted : s2.memoryOk := memoryOk_update (memoryOk_bump ok _ _ _)
  have run : s4.memoryOk := memoryOk_update (memoryOk_bump noted _ _ _)
  have locked : s5.memoryOk := memoryOk_ite (memoryOk_setLock run) (memoryOk_ite (memoryOk_setLock run) run)
  exact memoryOk_ite (memoryOk_ite (memoryOk_applyOffset locked) (memoryOk_ite (memoryOk_noteOffset locked)
    (memoryOk_noteOffset (memoryOk_applyOffset locked)))) noted

theorem memoryOk_sendBeacons (ok : s.memoryOk) : s.sendBeacons.memoryOk :=
  memoryOk_ite (memoryOk_foldl (memoryOk_update ok) fun _ _ ht => memoryOk_ite (memoryOk_bump (memoryOk_sendCtrl (memoryOk_update ht)) _ _ _) ht) ok

theorem memoryOk_takePps (ok : s.memoryOk) {local'} : (s.takePps local').memoryOk :=
  memoryOk_ite (memoryOk_updateStratum (memoryOk_applyOffset (memoryOk_ite (memoryOk_setLock (memoryOk_update (memoryOk_bump ok _ _ _))) (memoryOk_ite
    (memoryOk_setLock (memoryOk_update (memoryOk_bump ok _ _ _))) (memoryOk_update (memoryOk_bump ok _ _ _)))))) ok

theorem memoryOk_enterHoldover (ok : s.memoryOk) : s.enterHoldover.memoryOk :=
  memoryOk_ite (memoryOk_updateStratum (memoryOk_ite (memoryOk_setFld (memoryOk_ite (memoryOk_raise (memoryOk_setLock ok)) ok)) (memoryOk_raise
    (memoryOk_setFld (memoryOk_ite (memoryOk_raise (memoryOk_setLock ok)) ok))))) ok

end Sys2Proof.Machine.State
end

section
/-! PROOF. HBM stays canonical: the directory, recalls, snoops and the sweep (the operations of `Machine/CohOps`). -/

namespace Sys2Proof.Machine.State

variable {s : State}

theorem memoryOk_checkDirLine (ok : s.memoryOk) {e a} : (s.checkDirLine e a).2.memoryOk := by
  have failed := memoryOk_noteDirFail ok (ln := a / 256)
  unfold checkDirLine
  dsimp only
  split
  · split
    · have note : ∀ {ml : Nat} (t : State), t.memoryOk → (t.noteDirFail ml).memoryOk := fun _ ht => memoryOk_noteDirFail ht
      split
      · next heq => exact memoryOk_of_tryMirror failed note heq
      · next heq => exact memoryOk_queueRepair (memoryOk_of_tryMirror failed note heq) _ _
      · next heq => exact memoryOk_of_tryMirror failed note heq
    · exact memoryOk_queueRepair failed _ _
  · split <;> exact ok

theorem memoryOk_readDirLine (ok : s.memoryOk) {e a} : (s.readDirLine e a).2.memoryOk := memoryOk_checkDirLine (memoryOk_bump ok _ _ _)

theorem memoryOk_dropDir (ok : s.memoryOk) {ln} : (s.dropDir ln).memoryOk := ok

theorem memoryOk_keepDir (ok : s.memoryOk) {ln bs} : (s.keepDir ln bs).memoryOk := by
  unfold keepDir
  extract_lets mine r t
  have drawn : r.2.memoryOk := memoryOk_drawNat ok
  have room : t.memoryOk := by
    refine memoryOk_ite ok ?_
    split
    · exact memoryOk_dropDir drawn
    · exact drawn
  exact memoryOk_update room

theorem memoryOk_fetchDir (ok : s.memoryOk) {tile e ln} : (s.fetchDir tile e ln).2.memoryOk := by
  unfold fetchDir
  extract_lets a fetch
  have fetched (t : State) (ht : t.memoryOk) : (fetch t).2.memoryOk := by
    dsimp only [fetch]
    split
    · exact ht
    · next heq =>
      have line := memoryOk_fetchLine ht heq
      split
      · next heq => exact memoryOk_keepDir (memoryOk_of_snd (memoryOk_checkDirLine line) heq)
      · next heq => exact memoryOk_of_snd (memoryOk_checkDirLine line) heq
  clear_value fetch
  split
  · exact memoryOk_snd_ite (fetched _ (memoryOk_parityError (memoryOk_dropDir ok))) ok
  · exact fetched _ ok

theorem memoryOk_readDir (ok : s.memoryOk) {e ln} : (s.readDir e ln).2.memoryOk := memoryOk_readDirLine ok

theorem memoryOk_putDirLine (ok : s.memoryOk) {e ln bs poison} : (s.putDirLine e ln bs poison).memoryOk := by
  unfold putDirLine
  dsimp only
  split
  · exact memoryOk_writeLine (memoryOk_writeLine (memoryOk_ite (memoryOk_dropDir ok) (memoryOk_update ok)) _ _ _ _ _ _ _) _ _ _ _ _ _ _
  · exact memoryOk_writeLine (memoryOk_ite (memoryOk_dropDir ok) (memoryOk_update ok)) _ _ _ _ _ _ _

theorem memoryOk_writeDirEntry (ok : s.memoryOk) {e ln w} : (s.writeDirEntry e ln w).memoryOk := by
  unfold writeDirEntry
  extract_lets a r t u
  have read : t.memoryOk := memoryOk_readDirLine ok
  have found : u.memoryOk := memoryOk_ite (memoryOk_detectDown read) read
  exact memoryOk_bump (memoryOk_putDirLine found) _ _ _

theorem memoryOk_noteOwned (ok : s.memoryOk) {t x ln new} : (s.noteOwned t x ln new).memoryOk := ok

theorem memoryOk_setRecall (ok : s.memoryOk) {r} : (s.setRecall r).memoryOk := ok

theorem memoryOk_closeRecall (ok : s.memoryOk) {x ln} : (s.closeRecall x ln).memoryOk := ok

theorem memoryOk_useSpare (ok : s.memoryOk) {ls} : (s.useSpare ls).memoryOk := memoryOk_foldl ok fun _ _ ht => memoryOk_useSlot ht

theorem memoryOk_poisonLine (ok : s.memoryOk) {x ln} : (s.poisonLine x ln).memoryOk := by
  unfold poisonLine
  dsimp only
  split
  · exact memoryOk_writePool ok
  · exact ok

theorem memoryOk_completeRecall (ok : s.memoryOk) {r} : (s.completeRecall r).memoryOk := by
  unfold completeRecall
  refine memoryOk_ite ?_ (memoryOk_setRecall ok)
  refine memoryOk_setRecall ?_
  refine memoryOk_noteOwned ?_
  refine memoryOk_writeDirEntry ?_
  refine memoryOk_ite (memoryOk_poisonLine (memoryOk_useSpare ok)) ?_
  split
  · exact memoryOk_writePool (memoryOk_useSpare ok)
  · exact memoryOk_useSpare ok

theorem memoryOk_retryRecalls (ok : s.memoryOk) : s.retryRecalls.memoryOk :=
  memoryOk_foldl ok fun _ _ ht => memoryOk_ite (memoryOk_completeRecall ht) ht

theorem memoryOk_cohResponse (ok : s.memoryOk) {port k} : (s.cohResponse port k).memoryOk := by
  unfold cohResponse
  split
  · refine memoryOk_ite ok ?_
    refine memoryOk_ite (memoryOk_bump ok _ _ _) ?_
    split
    · exact memoryOk_ite (memoryOk_completeRecall (memoryOk_ite (memoryOk_bump ok _ _ _) ok)) (memoryOk_bump ok _ _ _)
    · exact memoryOk_bump ok _ _ _
  · exact memoryOk_bump ok _ _ _

theorem memoryOk_takeResponse (ok : s.memoryOk) {port k} : (s.takeResponse port k).memoryOk := by
  unfold takeResponse
  split
  · exact memoryOk_update ok
  · exact memoryOk_cohResponse ok

theorem memoryOk_releaseResponses (ok : s.memoryOk) : s.releaseResponses.memoryOk := memoryOk_foldl ok fun _ _ ht => memoryOk_takeResponse ht

theorem memoryOk_expireRecalls (ok : s.memoryOk) {tile} : (s.expireRecalls tile).memoryOk := ok

theorem memoryOk_takeDirty (ok : s.memoryOk) {tile p g s'} (e : s.takeDirty tile p g = some s') : s'.memoryOk := by
  unfold takeDirty at e
  split at e
  · cases e
    exact ok
  · split at e
    · cases e
      exact memoryOk_reserve ok
    · cases e

theorem memoryOk_sendSnoop (ok : s.memoryOk) {tile r n} : (s.sendSnoop tile r n).memoryOk := by
  unfold sendSnoop
  extract_lets k used all dt par
  refine memoryOk_ite ok ?_
  split
  · exact ok
  · split
    · exact ok
    · split
      · exact ok
      · next t e =>
        have taken : t.memoryOk := by
          split at e
          · cases e; exact ok
          · exact memoryOk_takeDirty ok e
        extract_lets pkt coh counted told
        have sent : told.memoryOk := memoryOk_bump (memoryOk_sendCtrl (memoryOk_update taken)) _ _ _
        split
        · exact memoryOk_setRecall sent
        · exact sent

theorem memoryOk_sendSnoops (ok : s.memoryOk) {tile} : (s.sendSnoops tile).memoryOk :=
  memoryOk_foldl ok fun _ _ ht => memoryOk_foldl ht fun _ _ ht => memoryOk_sendSnoop ht

theorem memoryOk_timeoutSnoops (ok : s.memoryOk) {tile} : (s.timeoutSnoops tile).memoryOk := by
  unfold timeoutSnoops
  refine memoryOk_foldl ok fun t x ht => ?_
  refine memoryOk_foldl ht fun t x ht => ?_
  split
  · exact memoryOk_ite (memoryOk_noteDown ht) ht
  · exact ht

theorem memoryOk_sweepLine (ok : s.memoryOk) {d tile x first} : (s.sweepLine d tile x first).memoryOk := by
  unfold sweepLine
  extract_lets e a slots r ws t u
  have read : t.memoryOk := memoryOk_useSpare (memoryOk_readDirLine ok)
  have swept : u.memoryOk := memoryOk_foldl read fun _ _ ht => memoryOk_noteOwned (memoryOk_ite (memoryOk_setDom (memoryOk_bump
    (memoryOk_poisonLine ht) _ _ _)) ht)
  exact memoryOk_ite (memoryOk_putDirLine swept) swept

theorem memoryOk_checkSwept (ok : s.memoryOk) {d} : (s.checkSwept d).memoryOk :=
  memoryOk_ite (memoryOk_postEvent (memoryOk_raise (memoryOk_setDom ok))) ok

theorem memoryOk_sweepTurn (ok : s.memoryOk) {tile from' x} (e : s.sweepTurn tile from' = some x) : x.2.memoryOk := by
  unfold sweepTurn at e
  obtain ⟨d, -, hd⟩ := List.exists_of_findSome?_eq_some e
  split at hd
  · split at hd
    · cases hd
      exact memoryOk_setDom (memoryOk_sweepLine ok)
    · cases hd
  · cases hd

theorem memoryOk_sweepTurns {tile n} : ∀ {from'} {s : State}, s.memoryOk → (s.sweepTurns tile n from').memoryOk := by
  induction n with
  | zero => exact id
  | succ n ih =>
    intro from' s ok
    unfold sweepTurns
    split
    · next e => exact ih (memoryOk_sweepTurn ok e)
    · exact ok

theorem memoryOk_sweepTile (ok : s.memoryOk) {tile lines} : (s.sweepTile tile lines).memoryOk :=
  memoryOk_foldl (memoryOk_sweepTurns ok) fun _ _ ht => memoryOk_checkSwept ht

theorem memoryOk_runDown (ok : s.memoryOk) {d} : (s.runDown d).memoryOk := by
  unfold runDown
  split
  · exact memoryOk_ite (memoryOk_checkSwept (memoryOk_postDown (memoryOk_finishAll (memoryOk_domainGoesDown ok)))) ok
  · exact memoryOk_ite ok (memoryOk_finishAll ok)

end Sys2Proof.Machine.State
end

section
/-! PROOF. HBM stays canonical: packets that arrive (the operations of `Machine/Router`). -/

namespace Sys2Proof.Machine.State

variable {s : State}

theorem memoryOk_answerArrival (ok : s.memoryOk) {p k a} : (s.answerArrival p k a).memoryOk :=
  memoryOk_answer (memoryOk_ite (memoryOk_bump (memoryOk_ite (memoryOk_bump ok _ _ _) ok) _ _ _) (memoryOk_ite (memoryOk_bump ok _ _ _) ok))

theorem memoryOk_takeFragment (ok : s.memoryOk) {p k a} : (s.takeFragment p k a).memoryOk := memoryOk_ite ok ok

theorem memoryOk_dropFragment (ok : s.memoryOk) {p} : (s.dropFragment p).memoryOk := memoryOk_bump ok _ _ _

theorem memoryOk_batchFragment (ok : s.memoryOk) {p k} : (s.batchFragment p k).memoryOk := by
  unfold batchFragment
  refine memoryOk_ite ?_ ?_
  · split
    · exact memoryOk_dropFragment ok
    · exact memoryOk_ite (memoryOk_refusePkt (memoryOk_bump ok _ _ _)) (memoryOk_takeFragment (memoryOk_update ok))
  · refine memoryOk_ite (memoryOk_dropFragment ok) ?_
    split
    · exact memoryOk_ite (memoryOk_takeFragment ok) (memoryOk_dropFragment ok)
    · exact memoryOk_dropFragment ok

theorem memoryOk_enterIntake (ok : s.memoryOk) {p k} : (s.enterIntake p k).memoryOk := by
  unfold enterIntake
  dsimp only
  split
  · exact memoryOk_update ok
  · exact memoryOk_update ok

theorem memoryOk_takeEcho (ok : s.memoryOk) {p k} : (s.takeEcho p k).memoryOk := memoryOk_ite (memoryOk_rtrCount ok) (memoryOk_sendReply ok)

theorem memoryOk_dropTransit (ok : s.memoryOk) {t} : (s.dropTransit t).memoryOk := ok

theorem memoryOk_putTransit (ok : s.memoryOk) {t t'} : (s.putTransit t t').memoryOk := ok

theorem memoryOk_noCandidate (ok : s.memoryOk) {t r} : (s.noCandidate t r).memoryOk :=
  memoryOk_raise (memoryOk_raise (memoryOk_bump (memoryOk_dropTransit ok) _ _ _))

theorem memoryOk_forwardHead (ok : s.memoryOk) {t} : (s.forwardHead t).memoryOk := by
  unfold forwardHead
  refine memoryOk_ite (memoryOk_rtrCount (memoryOk_dropTransit ok)) ?_
  refine memoryOk_ite (memoryOk_ite (memoryOk_sendReply (memoryOk_raise (memoryOk_raise (memoryOk_bump (memoryOk_dropTransit ok) _ _ _))))
    (memoryOk_bump (memoryOk_putTransit ok) _ _ _)) ?_
  dsimp only
  split
  · exact memoryOk_noCandidate ok
  · exact memoryOk_ite (memoryOk_putTransit ok) (memoryOk_forwardOn (memoryOk_ite (memoryOk_ite (memoryOk_cross (memoryOk_dropTransit ok))
    (memoryOk_setMemo (memoryOk_cross (memoryOk_dropTransit ok)))) (memoryOk_raise (memoryOk_bump (memoryOk_ite (memoryOk_cross
    (memoryOk_dropTransit ok)) (memoryOk_setMemo (memoryOk_cross (memoryOk_dropTransit ok)))) _ _ _))))

theorem memoryOk_roomForRoute (ok : s.memoryOk) {tile} : (s.roomForRoute tile).memoryOk := by
  unfold roomForRoute
  refine memoryOk_ite ok ?_
  split
  · next _ t heq =>
      split
      · exact memoryOk_update ((memoryOk_of_snd (memoryOk_drawNat ok) heq))
      · exact (memoryOk_of_snd (memoryOk_drawNat ok) heq)

theorem memoryOk_lookUp (ok : s.memoryOk) {t} : (s.lookUp t).memoryOk :=
  memoryOk_ite (memoryOk_forwardHead (memoryOk_bump (memoryOk_ite (memoryOk_parityError (memoryOk_setMemo ok)) ok) _ _ _)) (memoryOk_ite (memoryOk_ite
    (memoryOk_parityError (memoryOk_setMemo ok)) ok) (memoryOk_putTransit (memoryOk_bump (memoryOk_ite (memoryOk_parityError
    (memoryOk_setMemo ok)) ok) _ _ _)))

theorem memoryOk_countRx (ok : s.memoryOk) {p vc k} : (s.countRx p vc k).memoryOk := memoryOk_setTel ok

theorem memoryOk_captureEndCrc (ok : s.memoryOk) {p k} : (s.captureEndCrc p k).memoryOk := memoryOk_error ok

theorem memoryOk_decide' (ok : s.memoryOk) {p vc k local'} : (s.decide' p vc k local').memoryOk := by
  have arrived := memoryOk_bump ok .rtr (p / 8) 0x110
  have badCrc := memoryOk_raise (memoryOk_captureEndCrc arrived (p := p) (k := k)) (b := .rtr) (i := p / 8) (k := 0)
  have broadcast := memoryOk_ite (c := k.opcode.toNat = 0x30) (memoryOk_takeBeacon arrived (p := p) (k := k) (local' := local'))
    (memoryOk_takeEcho arrived (p := p) (k := k))
  unfold decide'
  refine memoryOk_ite (memoryOk_rtrCount ok) (memoryOk_ite ?bcast (memoryOk_ite ?ours (memoryOk_update ok)))
  case bcast => exact memoryOk_ite (memoryOk_ite badCrc broadcast) (memoryOk_rtrCount ok)
  case ours =>
    refine memoryOk_ite badCrc (memoryOk_ite (memoryOk_ite (memoryOk_batchFragment arrived) ?request) ?other)
    case request =>
      split
      · exact memoryOk_answerArrival arrived
      · exact memoryOk_ite (memoryOk_batchFragment arrived) (memoryOk_enterIntake arrived)
    case other =>
      have response := memoryOk_ite (c := (s.bump .rtr (p / 8) 0x110).check1 k = true) (memoryOk_takeResponse arrived (port := p) (k := k))
        (memoryOk_rtrCount arrived (tile := p / 8) (c := 0x168) (ev := 0))
      exact memoryOk_ite (memoryOk_ite (memoryOk_rtrCount arrived) response) (memoryOk_ite (memoryOk_takeEcho arrived) (memoryOk_rtrCount arrived))

theorem memoryOk_arrive (ok : s.memoryOk) {p vc k local'} : (s.arrive p vc k local').memoryOk :=
  memoryOk_ite ok (memoryOk_ite (memoryOk_update (memoryOk_countRx ok)) (memoryOk_decide' (memoryOk_countRx ok)))

theorem memoryOk_retryIngress (ok : s.memoryOk) : s.retryIngress.memoryOk := memoryOk_foldl ok fun _ _ ht => memoryOk_ite ht (memoryOk_decide' ht)

theorem memoryOk_forwardTransit (ok : s.memoryOk) {p vc} : (s.forwardTransit p vc).memoryOk := by
  unfold forwardTransit
  split
  · exact ok
  · exact memoryOk_ite ok (memoryOk_updateXoff (memoryOk_retryIngress (memoryOk_ite (memoryOk_forwardHead ok) (memoryOk_lookUp ok))))

theorem memoryOk_retryHeld (ok : s.memoryOk) {p vc} : (s.retryHeld p vc).memoryOk := by
  unfold retryHeld
  split
  · exact memoryOk_ite (memoryOk_updateXoff (memoryOk_retryIngress (memoryOk_lookUp (memoryOk_putTransit ok)))) ok
  · exact ok

theorem memoryOk_fillRoute (ok : s.memoryOk) {p vc} : (s.fillRoute p vc).memoryOk := by
  unfold fillRoute
  split
  · refine memoryOk_ite ?_ ok
    extract_lets tile i
    split
    · exact ok
    · next t e =>
      have read := fun ln => memoryOk_checkRegion (memoryOk_fetchLine ok e) (who := .requester) (ln := ln)
      exact memoryOk_ite
        (memoryOk_updateXoff (memoryOk_retryIngress (memoryOk_raise (memoryOk_raise (memoryOk_bump (memoryOk_dropTransit
          (memoryOk_raiseTableCrc (read _))) _ _ _)))))
        (memoryOk_updateXoff (memoryOk_retryIngress (memoryOk_forwardHead (memoryOk_putTransit (memoryOk_ite (memoryOk_setMemo
          (memoryOk_roomForRoute (read _))) (read _))))))
  · exact ok

theorem memoryOk_arriveAs (ok : s.memoryOk) {p ops k local'} : (s.arriveAs p ops k local').memoryOk := memoryOk_ite (memoryOk_arrive ok) ok

end Sys2Proof.Machine.State
end

section
/-! PROOF. HBM stays canonical: requests taken, their checks and their demand maps (the operations of `Machine/Intake`). -/

namespace Sys2Proof.Machine.State

variable {s : State}

theorem memoryOk_unqueue (ok : s.memoryOk) {q} : (s.unqueue q).memoryOk := ok

theorem memoryOk_freeAsm (ok : s.memoryOk) {q} : (s.freeAsm q).memoryOk := ok

theorem memoryOk_countHead (ok : s.memoryOk) {tile} : (s.countHead tile).memoryOk := ok

theorem memoryOk_takeHead (ok : s.memoryOk) {p op k} (hk : ∀ q t, t.memoryOk → (k q t).memoryOk) : (s.takeHead p op k).memoryOk := by
  unfold takeHead
  split
  · exact ok
  · have taken := fun q => memoryOk_countHead (memoryOk_unqueue ok (q := q)) (tile := p / 8)
    have refused := fun q c => memoryOk_refusePkt (memoryOk_freeAsm (taken q) (q := q)) (tile := p / 8) (p := p) (q := q.pkt) (reason := c)
    exact memoryOk_ite (refused _ _) (memoryOk_ite (refused _ _) (hk _ _ (taken _)))

end Sys2Proof.Machine.State

namespace Sys2Proof.Machine.Demand
open State

variable {d : Demand}

theorem memoryOk_foldl {α} {f : Demand → α → Demand} {l : List α} (ok : d.st.memoryOk) (hf : ∀ d x, d.st.memoryOk → (f d x).st.memoryOk) :
    (l.foldl f d).st.memoryOk :=
  List.foldlRecOn (motive := fun d => d.st.memoryOk = true) l f ok fun d hd x _ => hf d x hd

theorem memoryOk_add (ok : d.st.memoryOk) {ns} : (d.add ns).st.memoryOk := ok

theorem memoryOk_refuse (ok : d.st.memoryOk) {r} : (d.refuse r).st.memoryOk := ok

theorem memoryOk_lose (ok : d.st.memoryOk) {ns} : (d.lose ns).st.memoryOk := ok

theorem memoryOk_frame (ok : d.st.memoryOk) {e p st pct} : (d.frame e p st pct).st.memoryOk := by
  have give : ∀ u, d.st.giveFrame p st e.assured pct .resident = some u → u.memoryOk := fun _ => memoryOk_giveFrame ok
  rw [frame]
  generalize d.st.giveFrame p st e.assured pct .resident = given at give
  cases d.st.frameOf p with
  | some f => exact ok
  | none =>
    cases given with
    | some u => exact give u rfl
    | none => exact ok

theorem memoryOk_missGroup (ok : d.st.memoryOk) {h p g st lines} : (d.missGroup h p g st lines).st.memoryOk := by
  unfold missGroup
  dsimp only
  split
  · exact ok
  · show State.memoryOk (ite _ _ _ : Demand).st
    split
    · exact memoryOk_bump ok _ _ _
    · exact ok

theorem memoryOk_readLines (ok : d.st.memoryOk) {h e lns pct} : (d.readLines h e lns pct).st.memoryOk :=
  memoryOk_foldl (memoryOk_foldl ok fun _ _ hd => memoryOk_frame hd) fun _ _ hd => memoryOk_missGroup hd

theorem memoryOk_dirty (ok : d.st.memoryOk) {h groups} : (d.dirty h groups).st.memoryOk := by
  unfold dirty
  dsimp only
  split <;> exact ok

theorem memoryOk_writeLine (ok : d.st.memoryOk) {e p l slots} : (d.writeLine e p l slots).st.memoryOk := by
  unfold writeLine
  dsimp only
  split
  · exact ok
  · split <;> exact ok

theorem memoryOk_mustBeResident (ok : d.st.memoryOk) {p l} : (d.mustBeResident p l).st.memoryOk := by
  unfold mustBeResident
  split
  · exact ok
  · exact memoryOk_startFetch ok

theorem memoryOk_egress (ok : d.st.memoryOk) {h c ctx eid u sizes} : (d.egress h c ctx eid u sizes).1.st.memoryOk := by
  unfold egress
  dsimp only
  split
  · exact ok
  · split <;> exact ok

end Sys2Proof.Machine.Demand

namespace Sys2Proof.Machine.State

variable {s : State}

theorem memoryOk_countCycles (ok : s.memoryOk) {ns} : (s.countCycles ns).memoryOk := by
  unfold countCycles
  refine memoryOk_foldl ok fun t x ht => ?_
  split
  · exact memoryOk_bumpN ht
  · exact ht

theorem memoryOk_claimIndex (ok : s.memoryOk) {h core n} : (s.claimIndex h core n).memoryOk := memoryOk_ite ok (memoryOk_update (memoryOk_bumpN ok))

theorem memoryOk_useIndex (ok : s.memoryOk) {h n} : (s.useIndex h n).memoryOk :=
  memoryOk_ite ok (memoryOk_update (memoryOk_bumpN (memoryOk_claimIndex ok)))

theorem memoryOk_noteGroups (ok : s.memoryOk) {h gs} : (s.noteGroups h gs).memoryOk := ok

end Sys2Proof.Machine.State

namespace Sys2Proof.Machine.Demand
open State

variable {d : Demand}

theorem memoryOk_decide' (ok : d.st.memoryOk) {s0 h p k mk} (ok0 : s0.memoryOk) : (d.decide' s0 h p k mk).memoryOk := by
  unfold Demand.decide'
  extract_lets ns bad rs s1 r s2 adm s3 s4 s5 s6 least tier s7
  split
  · have reserved : s3.memoryOk := memoryOk_update (State.memoryOk_reserve ok)
    have held : s4.memoryOk := State.memoryOk_foldl reserved fun _ _ ht => memoryOk_holdParcel ht
    have heldW : s5.memoryOk := State.memoryOk_foldl held fun _ _ ht => memoryOk_holdParcel ht
    have hit : s6.memoryOk := State.memoryOk_foldl heldW fun _ _ ht => memoryOk_hitParcel ht
    exact memoryOk_bump (memoryOk_countCycles hit) _ _ _
  · have hit : s7.memoryOk := State.memoryOk_foldl (memoryOk_update ok0) fun _ _ ht => memoryOk_hitParcel ht
    exact memoryOk_refusePkt (memoryOk_refusedDemand hit)

end Sys2Proof.Machine.Demand

namespace Sys2Proof.Machine

/-- What step 1 has decided keeps the form however step 2 ends it. -/
def Decided.MemoryOk : Decided → Prop
  | .inl s => s.memoryOk
  | .inr a => a.s0.memoryOk ∧ a.d.st.memoryOk ∧ ∀ t, t.memoryOk → (a.after t).memoryOk

open State

theorem Decided.memoryOk_ite {c : Prop} [Decidable c] {x y : Decided} (hx : x.MemoryOk) (hy : y.MemoryOk) :
    Decided.MemoryOk (if c then x else y) := by
  split
  · exact hx
  · exact hy

theorem Decided.memoryOk_inr {s0 : State} {d : Demand} {req after} (ok0 : s0.memoryOk) (okd : d.st.memoryOk)
    (hafter : ∀ t, t.memoryOk → (after t).memoryOk) : Decided.MemoryOk (.inr ⟨s0, d, req, after⟩) := ⟨ok0, okd, hafter⟩

theorem Decided.memoryOk_settle {x : Decided} (ok : x.MemoryOk) {h p k} : (x.settle h p k).memoryOk := by
  cases x with
  | inl s => exact ok
  | inr a =>
    obtain ⟨ok0, okd, hafter⟩ := ok
    have decided := Demand.memoryOk_decide' okd ok0 (h := h) (p := p) (k := k) (mk := a.req)
    exact State.memoryOk_ite (hafter _ decided) decided

end Sys2Proof.Machine

namespace Sys2Proof.Machine.State

variable {s : State}

theorem memoryOk_whenFetched {f : Fetched × State} (ok : f.2.memoryOk) {h p k go} (hg : ∀ t, t.memoryOk → Decided.MemoryOk (go t)) :
    Decided.MemoryOk (State.whenFetched h p k f go) := by
  unfold State.whenFetched
  split
  · exact hg _ ok
  · exact memoryOk_refusePkt ok
  · exact memoryOk_answer (memoryOk_raiseTableCrc ok)

theorem memoryOk_frontAt (ok : s.memoryOk) {h p q right ns k} (hk : ∀ c t, t.memoryOk → Decided.MemoryOk (k c t)) :
    Decided.MemoryOk (s.frontAt h p q right ns k) := by
  refine memoryOk_whenFetched (memoryOk_takeCopies ok) fun t ht => ?_
  dsimp only
  split
  · exact memoryOk_answer ht
  · exact hk _ _ ht

theorem memoryOk_front (ok : s.memoryOk) {p q right ns k} (hk : ∀ c t, t.memoryOk → Decided.MemoryOk (k c t)) :
    Decided.MemoryOk (s.front p q right ns k) := memoryOk_frontAt ok hk

theorem memoryOk_stepOne (ok : s.memoryOk) {h p k ns go} (hg : ∀ t, t.memoryOk → Decided.MemoryOk (go t)) :
    Decided.MemoryOk (s.stepOne h p k ns go) := by
  unfold stepOne
  dsimp only
  split
  · exact hg _ ok
  · exact memoryOk_refusePkt (memoryOk_refusedDemand ok)

theorem memoryOk_decideRead (ok : s.memoryOk) {p q} : Decided.MemoryOk (s.decideRead p q) := by
  unfold decideRead
  extract_lets k n h
  split
  · exact memoryOk_answer ok
  · split
    · next x off _ =>
      refine memoryOk_front ok fun c t ht => ?_
      extract_lets e cls pct d1 d2
      split
      · exact memoryOk_answer ht
      · have read : d2.st.memoryOk := Demand.memoryOk_readLines ht
        have sent := Demand.memoryOk_egress read (h := h) (c := c) (ctx := k.ctxid.toNat) (eid := k.src) (u := pct) (sizes := [n])
        refine ⟨ht, ?_, fun _ hu => hu⟩
        split
        · exact Demand.memoryOk_foldl sent fun _ _ hd => hd
        · exact sent
    · exact memoryOk_front ok fun _ _ ht => memoryOk_answer ht

theorem memoryOk_decideWrite (ok : s.memoryOk) {p q} : Decided.MemoryOk (s.decideWrite p q) := by
  unfold decideWrite
  extract_lets k n src ack h
  split
  · exact memoryOk_answer ok
  · split
    · refine memoryOk_front ok fun c t ht => memoryOk_stepOne ht fun t ht => ?_
      split
      · exact memoryOk_answer ht
      · split
        · exact memoryOk_answer ht
        · next ps _ =>
          extract_lets cls d0 d1 gs d2 d3
          have put : d1.st.memoryOk := Demand.memoryOk_foldl ht fun d pc hd => by
            dsimp only
            split
            · exact Demand.memoryOk_writeLine (Demand.memoryOk_frame hd)
            · exact Demand.memoryOk_writeLine (Demand.memoryOk_mustBeResident hd)
          have dirtied : d3.st.memoryOk := Demand.memoryOk_foldl (Demand.memoryOk_dirty put) fun _ _ hd => hd
          have sent := Demand.memoryOk_egress dirtied (h := h) (c := c) (ctx := k.ctxid.toNat) (eid := k.src) (u := tadd t.tick 2) (sizes := [0])
          exact ⟨ht, sent, fun _ hu => memoryOk_useIndex (memoryOk_noteGroups hu)⟩
    · exact memoryOk_front ok fun _ _ ht => memoryOk_answer ht

end Sys2Proof.Machine.State
end

section
/-! PROOF. HBM stays canonical: lookup batches (the operations of `Machine/Lookup`). -/

namespace Sys2Proof.Machine.Walk
open State

variable {w : Walk}

theorem memoryOk_whenFetched (ok : w.st.memoryOk) {h xs go} (hg : ∀ v, v.st.memoryOk → (go v).st.memoryOk) :
    (w.whenFetched h xs go).st.memoryOk := by
  unfold whenFetched
  have copied := memoryOk_takeCopies ok (tile := h) (xs := xs)
  split
  · next heq => exact hg _ (memoryOk_of_snd copied heq)
  · next heq => exact memoryOk_of_snd copied heq
  · next heq => exact memoryOk_of_snd copied heq

theorem memoryOk_readExt (ok : w.st.memoryOk) {h b x off go} (hg : ∀ v, v.st.memoryOk → (go v).st.memoryOk) :
    (w.readExt h b x off go).st.memoryOk := memoryOk_whenFetched ok hg

theorem memoryOk_chase (ok : w.st.memoryOk) {h b c ctx imm x off} : (w.chase h b c ctx imm x off).st.memoryOk := by
  refine memoryOk_readExt ok fun v hv => ?_
  dsimp only
  split
  · exact hv
  · refine memoryOk_whenFetched hv fun v hv => ?_
    split
    · exact memoryOk_keyFail hv
    · split
      · exact hv
      · split
        · exact hv
        · split
          · exact memoryOk_readLine (memoryOk_useSlot hv)
          · exact hv

theorem memoryOk_resolve (ok : w.st.memoryOk) {h b} : (w.resolve h b).st.memoryOk := by
  unfold resolve
  split
  · split
    · exact memoryOk_readExt ok fun _ hv => hv
    · exact ok
  · exact ok

theorem memoryOk_leave (ok : w.st.memoryOk) {h b} : (w.leave h b).st.memoryOk := by
  have resolved := memoryOk_resolve ok (h := h) (b := b)
  unfold leave
  dsimp only
  split
  · split <;> exact resolved
  · exact resolved

theorem memoryOk_addrOp (ok : w.st.memoryOk) {h b c ctx tx ws key m} : (Walk.addrOp h b c ctx tx ws key w m).st.memoryOk := by
  have left : (if m.opc = 1 ∨ m.opc = 2 then w.leave h b else w).st.memoryOk := by
    split
    · exact memoryOk_leave ok
    · exact ok
  have fetched := fun (v : Walk) (hv : v.st.memoryOk) xs (f : Walk → Addr) =>
    memoryOk_whenFetched hv (h := h) (xs := xs) (go := fun w => { w with at' := f w }) fun _ hv => hv
  unfold addrOp
  generalize (if m.opc = 1 ∨ m.opc = 2 then w.leave h b else w) = v at left
  dsimp only
  split
  · split <;> split <;> exact left
  · split <;> exact left
  · split
    · exact memoryOk_chase (memoryOk_resolve left)
    · exact memoryOk_resolve left
  · split
    · exact fetched _ left _ _
    · exact fetched _ left _ _
    · exact left
  · exact left

end Sys2Proof.Machine.Walk

namespace Sys2Proof.Machine
open State

theorem State.memoryOk_indexThread {s : State} (ok : s.memoryOk) {h b c ctx tx ws key poisoned} :
    (s.indexThread h b c ctx tx ws key poisoned).st.memoryOk := by
  unfold State.indexThread
  split
  · exact ok
  · exact Walk.memoryOk_resolve (List.foldlRecOn (motive := fun (w : Walk) => w.st.memoryOk = true) _ _ ok fun _ hw _ _ => Walk.memoryOk_addrOp hw)

theorem Index.memoryOk_take {ix : Index} {b h near ran elems} {w : Walk} {mk} (ok : w.st.memoryOk) :
    (ix.take b h near ran elems w mk).st.memoryOk := by
  unfold Index.take
  dsimp only
  split
  · split
    · exact ok
    · split
      · exact ok
      · have copied := fun xs => memoryOk_takeCopies ok (tile := h) (xs := xs)
        split
        · next heq => exact memoryOk_of_snd (copied _) heq
        · next heq => exact memoryOk_of_snd (copied _) heq
        · next heq =>
          have reads := memoryOk_of_snd (copied _) heq
          split
          · exact reads
          · split <;> exact reads
  all_goals exact ok

theorem Index.memoryOk_table {ix : Index} (ok : ix.st.memoryOk) {cores b c ctx near bs ps h ti t ws o firstOut} :
    (ix.table cores b c ctx near bs ps h ti t ws o firstOut).st.memoryOk := by
  unfold Index.table
  dsimp only
  split
  · exact ok
  · exact List.foldlRecOn (motive := fun (x : Index) => x.st.memoryOk = true) _ _ ok fun _ hx _ _ => Index.memoryOk_take (memoryOk_indexThread hx)

namespace Demand

variable {d : Demand}

theorem memoryOk_placeOutput (ok : d.st.memoryOk) {b secs pct tile ts} : (d.placeOutput b secs pct tile ts).1.st.memoryOk := by
  cases ts <;> exact ok

theorem memoryOk_remoteLines (ok : d.st.memoryOk) {b placed} : (d.remoteLines b placed).st.memoryOk :=
  memoryOk_foldl ok fun _ _ hd => memoryOk_foldl hd fun _ _ hd => hd

theorem memoryOk_confluence (ok : d.st.memoryOk) {secs u coll ts} : (d.confluence secs u coll ts).st.memoryOk :=
  memoryOk_foldl ok fun _ _ hd => hd

end Demand

end Sys2Proof.Machine

namespace Sys2Proof.Machine.State

variable {s : State}

theorem memoryOk_takePrograms (ok : s.memoryOk) {bank cps} : (s.takePrograms bank cps).2.memoryOk :=
  memoryOk_foldl_snd ok fun _ _ _ ht => memoryOk_snd_ite (memoryOk_takeProgram ht) ht

theorem memoryOk_headPrograms (ok : s.memoryOk) {h bank ps} : (s.headPrograms h bank ps).2.memoryOk :=
  memoryOk_foldl_snd ok fun _ _ _ ht => memoryOk_snd_ite (memoryOk_takeProgram ht) ht

theorem memoryOk_countIndex (ok : s.memoryOk) {n ran} : (s.countIndex n ran).memoryOk :=
  memoryOk_update (memoryOk_foldl ok fun _ _ ht => memoryOk_bumpN (memoryOk_bump ht _ _ _))

theorem memoryOk_countThread (ok : s.memoryOk) {core c} : (s.countThread core c).memoryOk := memoryOk_bump ok _ _ _

theorem memoryOk_threadEnd (ok : s.memoryOk) {core c} : (s.threadEnd core c).memoryOk := memoryOk_raise (memoryOk_countThread ok)

theorem memoryOk_threadOverran (ok : s.memoryOk) {core} : (s.threadOverran core).memoryOk := memoryOk_raise (memoryOk_threadEnd ok)

theorem memoryOk_countEnds (ok : s.memoryOk) {ts} : (s.countEnds ts).memoryOk := by
  unfold countEnds
  refine memoryOk_foldl ok fun t x ht => ?_
  split
  · exact ht
  · exact memoryOk_threadEnd ht
  · exact memoryOk_ite (memoryOk_threadOverran ht) (memoryOk_threadEnd ht)

theorem memoryOk_takeLists (ok : s.memoryOk) {c tiles} : (s.takeLists c tiles).2.memoryOk :=
  memoryOk_foldl_snd ok fun _ _ _ ht => memoryOk_snd_ite (memoryOk_takeCopies ht) ht

theorem memoryOk_takePlaced (ok : s.memoryOk) {bank c cps tiles} : (s.takePlaced bank c cps tiles).2.memoryOk :=
  memoryOk_snd_ite (memoryOk_takeLists (memoryOk_takePrograms ok)) (memoryOk_takePrograms ok)

theorem memoryOk_claimRan (ok : s.memoryOk) {h ran} : (s.claimRan h ran).memoryOk := memoryOk_foldl ok fun _ _ ht => memoryOk_claimIndex ht

theorem memoryOk_batchAsk (ok : s.memoryOk) {p k c cls bs ps ts progs total slots ix} :
    Decided.MemoryOk (s.batchAsk p k c cls bs ps ts progs total slots ix) := by
  unfold batchAsk
  extract_lets h b pct offs firsts secs d0 d1 live rows d2 keys placed threads cps cvts fetch
  have fetched : d1.st.memoryOk := Demand.memoryOk_foldl ok fun _ _ hd => memoryOk_startFetch hd
  have read : d2.st.memoryOk := Demand.memoryOk_foldl fetched fun _ _ hd => Demand.memoryOk_readLines hd
  have put : placed.1.st.memoryOk :=
    List.foldlRecOn (motive := fun (a : Demand × List Thread) => a.1.st.memoryOk = true) _ _ read fun _ ha _ _ => Demand.memoryOk_placeOutput ha
  have sent := Demand.memoryOk_egress put (h := h) (c := c) (ctx := k.ctxid.toNat) (eid := k.src) (u := pct) (sizes := packetSizes total)
  have fetchOk : ∀ t : State, t.memoryOk → (fetch t).2.memoryOk := fun _ ht => memoryOk_takePlaced ht
  clear_value fetch
  generalize placed.1.egress h c k.ctxid.toNat k.src pct (packetSizes total) = r at sent
  obtain ⟨d, port, segs⟩ := r
  dsimp -zeta -zetaHave only
  extract_lets d3 ask
  have asked : ∀ d : Demand, d.st.memoryOk → Decided.MemoryOk (ask d) := fun _ hd => ⟨fetchOk _ ok, hd, fun _ ht => memoryOk_claimRan ht⟩
  have took : (fetch d3.st).2.memoryOk := fetchOk _ (Demand.memoryOk_remoteLines (Demand.memoryOk_confluence sent))
  split
  · next hf => exact asked _ (memoryOk_of_snd took hf)
  · next hf => exact asked _ (memoryOk_of_snd took hf)
  · exact memoryOk_answer (memoryOk_raiseTableCrc (fetchOk _ ok))

theorem memoryOk_decideBatchOn (ok : s.memoryOk) {cores p q} : Decided.MemoryOk (s.decideBatchOn cores p q) := by
  unfold decideBatchOn
  dsimp only
  refine memoryOk_front (memoryOk_freeAsm ok) fun c t ht => ?_
  split
  · exact memoryOk_refusePkt ht
  · refine memoryOk_whenFetched (memoryOk_headPrograms ht) fun t ht => ?_
    split
    · exact memoryOk_refusePkt ht
    · refine memoryOk_stepOne ht fun t ht => ?_
      refine memoryOk_whenFetched (memoryOk_takePrograms ?_) fun t ht => ?_
      · exact List.foldlRecOn (motive := fun (x : Index) => x.st.memoryOk = true) _ _ ht fun _ hx _ _ => Index.memoryOk_table hx
      · have counted := fun n r ths => memoryOk_countEnds (memoryOk_countIndex ht (n := n) (ran := r)) (ts := ths)
        split
        · exact memoryOk_answer (memoryOk_raiseTableCrc (counted _ _ _))
        · exact memoryOk_answer (counted _ _ _)
        · split
          · exact memoryOk_refusePkt (counted _ _ _)
          · split
            · exact memoryOk_refusePkt (counted _ _ _)
            · exact memoryOk_batchAsk (counted _ _ _)

theorem memoryOk_decideBatch (ok : s.memoryOk) {p q} : Decided.MemoryOk (s.decideBatch p q) := memoryOk_decideBatchOn ok

theorem memoryOk_viewLine (ok : s.memoryOk) {caps p l ln fmt} : (s.viewLine caps p l ln fmt).2.2.memoryOk := by
  unfold viewLine
  split
  · exact ok
  · exact memoryOk_readLine ok

theorem memoryOk_viewLines (ok : s.memoryOk) {caps b c ctx x lns} : (s.viewLines caps b c ctx x lns).2.memoryOk := by
  refine memoryOk_foldl_snd ok fun o t ln ht => ?_
  cases o with
  | none => exact ht
  | some d => exact memoryOk_snd_ite (memoryOk_keyFail ht) (memoryOk_viewLine ht)

theorem memoryOk_runThreads (ok : s.memoryOk) {caps r which} : (s.runThreads caps r which).1.memoryOk := by
  unfold runThreads
  split
  · dsimp only
    refine List.foldlRecOn (motive := fun (a : State × List Thread × List Partial × Byte × List RowRead) => a.1.memoryOk = true) _ _ ok
      fun a ha t _ => ?_
    obtain ⟨s, ts, ps, st, seen⟩ := a
    dsimp only
    split
    · exact ha
    · split
      · exact ha
      · exact ha
      · split
        all_goals
          rename_i u heq
          have viewed : u.memoryOk := by
            split at heq
            · exact (Prod.mk.inj heq).2 ▸ ha
            · exact memoryOk_of_snd (memoryOk_viewLines ha) heq
          have started := memoryOk_countThread viewed (core := t.core) (c := 0x100)
        · exact started
        · have ran := fun c n => memoryOk_bumpN started (b := .eng) (i := c) (c := 0x110) (n := n)
          exact memoryOk_ite (memoryOk_threadOverran (memoryOk_ite (memoryOk_threadEnd (ran _ _)) (ran _ _)))
            (memoryOk_ite (memoryOk_threadEnd (ran _ _)) (ran _ _))
  · exact ok

theorem memoryOk_setWork (ok : s.memoryOk) {rid w} : (s.setWork rid w).memoryOk := ok

theorem memoryOk_setReq (ok : s.memoryOk) {r} : (s.setReq r).memoryOk := ok

theorem memoryOk_runRead (ok : s.memoryOk) {caps r x off n data psn bad which} : (s.runRead caps r x off n data psn bad which).1.memoryOk := by
  unfold runRead
  dsimp only
  refine List.foldlRecOn (motive := fun (a : State × List Byte × BitVec 32 × Bool) => a.1.memoryOk = true) _ _ ok fun a ha ln _ => ?_
  obtain ⟨s, d, m, bad⟩ := a
  dsimp only
  split
  · exact ha
  · split
    · next heq => exact memoryOk_of_snd (memoryOk_viewLines ha) heq
    · next heq => exact memoryOk_of_snd (memoryOk_viewLines ha) heq

theorem memoryOk_setRow (ok : s.memoryOk) {rid w} : (s.setRow rid w).memoryOk := ok

theorem memoryOk_rowPhase (ok : s.memoryOk) {caps r} : (s.rowPhase caps r).memoryOk := by
  unfold rowPhase
  refine memoryOk_ite ok ?_
  split
  · exact memoryOk_setRow (memoryOk_runRead ok)
  · exact memoryOk_setRow (memoryOk_runThreads ok)
  · exact ok

theorem memoryOk_confluence (ok : s.memoryOk) {r} : (s.confluence r).memoryOk := by
  unfold confluence
  split
  · exact ok
  · have counted {l : List (Nat × Nat)} : (l.foldl (fun s c => (s.countThread c.1 0x138).bump .hdg (c.1 / 32) 0x1C8) s).memoryOk :=
      memoryOk_foldl ok fun _ _ ht => memoryOk_bump (memoryOk_countThread ht) _ _ _
    exact memoryOk_setWork (memoryOk_update (memoryOk_bump counted _ _ _))
  · exact ok

theorem memoryOk_sendResult (ok : s.memoryOk) {r op status parts} : (s.sendResult r op status parts).memoryOk := by
  unfold sendResult
  split
  · exact ok
  · exact memoryOk_foldl ok fun _ _ ht => memoryOk_enqueue ht

theorem memoryOk_sendReadResult (ok : s.memoryOk) {r} : (s.sendReadResult r).memoryOk := by
  unfold sendReadResult
  split
  · exact memoryOk_ite (memoryOk_sendResult ok) (memoryOk_sendResult ok)
  · exact memoryOk_ite ok (memoryOk_ite (memoryOk_sendResult ok) (memoryOk_sendResult ok))
  · exact ok

end Sys2Proof.Machine.State
end

section
/-! PROOF. HBM stays canonical: later stages of admitted requests (the operations of `Machine/Stages`). -/

namespace Sys2Proof.Machine.State

variable {s : State}

theorem memoryOk_setMisses (ok : s.memoryOk) {rid ms} : (s.setMisses rid ms).memoryOk := ok

theorem memoryOk_flashSense (ok : s.memoryOk) {r} : (s.flashSense r).memoryOk := memoryOk_setMisses ok

theorem memoryOk_sectorTransfer (ok : s.memoryOk) {r} : (s.sectorTransfer r).memoryOk :=
  memoryOk_setMisses (memoryOk_foldl ok fun _ _ ht => memoryOk_bump ht _ _ _)

theorem memoryOk_fillFails (ok : s.memoryOk) {p g copy} : (s.fillFails p g copy).1.memoryOk := by
  unfold fillFails
  split
  · exact ok
  · split
    · exact memoryOk_sectorFail ok
    · exact ok

theorem memoryOk_fillGroup (ok : s.memoryOk) {fmt m} : (s.fillGroup fmt m).2.memoryOk := by
  have failed := memoryOk_fillFails ok (p := m.parcel) (g := m.group) (copy := m.copy)
  unfold fillGroup
  generalize s.fillFails m.parcel m.group m.copy = r at failed
  obtain ⟨t, bad⟩ := r
  refine memoryOk_foldl_snd failed fun caps t l ht => ?_
  dsimp only
  split
  · exact ht
  · exact memoryOk_snd_ite (memoryOk_bump ht _ _ _) (memoryOk_snd_ite ht (memoryOk_bump (memoryOk_fillLine ht) _ _ _))

theorem memoryOk_missPhase (ok : s.memoryOk) {caps r filled} : (s.missPhase caps r filled).memoryOk := by
  unfold missPhase
  extract_lets hit pending
  split
  · exact memoryOk_setWork (memoryOk_runRead ok)
  · exact memoryOk_setWork (memoryOk_runThreads ok)
  · exact ok

theorem memoryOk_fillWrite (ok : s.memoryOk) {r} : (s.fillWrite r).memoryOk := by
  unfold fillWrite
  extract_lets due live t f u
  have counted : t.memoryOk := memoryOk_foldl ok fun _ _ ht => memoryOk_bump ht _ _ _
  have filled : u.memoryOk := memoryOk_setMisses (memoryOk_foldl_snd counted fun _ _ _ ht => memoryOk_fillGroup ht)
  clear_value u
  refine memoryOk_ite ok ?_
  split
  · exact memoryOk_missPhase filled
  · exact filled

theorem memoryOk_resultSend (ok : s.memoryOk) {r} : (s.resultSend r).memoryOk := memoryOk_ite ok (memoryOk_sendReadResult ok)

theorem memoryOk_withReq (ok : s.memoryOk) {rid k} (hk : ∀ r, (k r).memoryOk) : (s.withReq rid k).memoryOk := by
  unfold withReq
  split
  · exact hk _
  · exact ok

end Sys2Proof.Machine.State
end

section
/-! PROOF. HBM stays canonical: pushes, kernels, atomics and the landing tick (the operations of `Machine/Updates`). -/

namespace Sys2Proof.Machine.State

variable {s : State}

theorem memoryOk_keyFailIn (ok : s.memoryOk) {ctx x e i} : (s.keyFailIn ctx x e i).memoryOk := memoryOk_keyFail ok

end Sys2Proof.Machine.State

namespace Sys2Proof.Machine.Demand
open State

variable {d : Demand}

theorem memoryOk_rmwLines (ok : d.st.memoryOk) {e lns} : (d.rmwLines e lns).st.memoryOk :=
  memoryOk_foldl ok fun _ _ hd => memoryOk_writeLine (memoryOk_mustBeResident hd)

theorem memoryOk_push (ok : d.st.memoryOk) {h x e ce u rows z} : (d.push h x e ce u rows z).st.memoryOk := by
  unfold push
  extract_lets s t1 fresh wl d1 d2 d3 d4 fv v d5 d6 d7
  have rowsIn : d1.st.memoryOk := memoryOk_foldl ok fun _ _ hd => memoryOk_foldl hd fun _ _ hd => memoryOk_mustBeResident hd
  have compIn : d2.st.memoryOk := memoryOk_foldl rowsIn fun _ _ hd => memoryOk_mustBeResident hd
  have rowsOut : d3.st.memoryOk := memoryOk_foldl compIn fun _ _ hd => memoryOk_writeLine hd
  have compOut : d4.st.memoryOk := memoryOk_foldl rowsOut fun _ _ hd => memoryOk_writeLine hd
  exact memoryOk_foldl compOut fun _ _ hd => hd

end Sys2Proof.Machine.Demand

namespace Sys2Proof.Machine.State

variable {s : State}

theorem memoryOk_decidePush (ok : s.memoryOk) {p q} : Decided.MemoryOk (s.decidePush p q) := by
  unfold decidePush
  extract_lets k w x n h
  refine memoryOk_front ok fun c t ht => ?_
  refine memoryOk_stepOne ht fun t ht => ?_
  extract_lets e u ce
  split
  · exact memoryOk_answer ht
  · extract_lets z es live dropped rows wls cls' refs
    clear_value refs
    split
    · exact memoryOk_answer ht
    · refine memoryOk_whenFetched (memoryOk_takeCopies ht) fun t ht => ?_
      split
      · exact memoryOk_answer (memoryOk_keyFailIn ht)
      · exact memoryOk_answer (memoryOk_keyFailIn ht)
      · split
        · exact memoryOk_answer ht
        · split
          · exact memoryOk_answer ht
          · extract_lets cls d1 d2 gs d3
            have charged : d3.st.memoryOk := Demand.memoryOk_dirty (Demand.memoryOk_push ht)
            have sent := Demand.memoryOk_egress charged (h := h) (c := c) (ctx := k.ctxid.toNat) (eid := k.src) (u := tadd t.tick 2) (sizes := [8])
            generalize d3.egress h c k.ctxid.toNat k.src (tadd t.tick 2) [8] = r at sent
            obtain ⟨d, port, segs⟩ := r
            refine Decided.memoryOk_inr ht sent fun t ht => ?_
            have counted := memoryOk_bumpN (memoryOk_useIndex (memoryOk_noteGroups ht (h := h) (gs := gs)) (h := h) (n := n)) (b := .hdg)
              (i := h) (c := 0x1D8) (n := n)
            exact memoryOk_ite counted (memoryOk_raise (memoryOk_bumpN counted))

theorem memoryOk_atomicChecks (ok : s.memoryOk) {h p k c x n go} (hg : ∀ t, t.memoryOk → Decided.MemoryOk (go t)) :
    Decided.MemoryOk (s.atomicChecks h p k c x n go) := by
  unfold atomicChecks
  extract_lets e ops lns
  split
  · exact memoryOk_answer ok
  · split
    · exact memoryOk_answer ok
    · refine memoryOk_whenFetched (memoryOk_takeCopies ok) fun t ht => ?_
      split
      · exact memoryOk_answer (memoryOk_keyFailIn ht)
      · exact hg _ ht

theorem memoryOk_admitAtomic (ok : s.memoryOk) {h p k c x n dom after} (ha : ∀ t, t.memoryOk → (after t).memoryOk) :
    Decided.MemoryOk (s.admitAtomic h p k c x n dom after) := by
  unfold admitAtomic
  extract_lets e ops ret cls d1 d2 gs d3 home d4
  have charged : d3.st.memoryOk := Demand.memoryOk_dirty (Demand.memoryOk_rmwLines ok)
  have linked : d4.st.memoryOk := Demand.memoryOk_foldl charged fun _ _ hd => hd
  have sent := Demand.memoryOk_egress linked (h := h) (c := c) (ctx := k.ctxid.toNat) (eid := k.src) (u := tadd s.tick 2)
    (sizes := [if ret then 16 * n else 0])
  generalize d4.egress h c k.ctxid.toNat k.src (tadd s.tick 2) [if ret then 16 * n else 0] = r at sent
  obtain ⟨d, port, segs⟩ := r
  refine ⟨ok, ?_, fun t ht => ha _ (memoryOk_noteGroups ht)⟩
  cases port with
  | none => exact sent
  | some o =>
    dsimp only
    split
    · exact Demand.memoryOk_foldl sent fun _ _ hd => hd
    · exact sent

theorem memoryOk_decideAtomic (ok : s.memoryOk) {p q} : Decided.MemoryOk (s.decideAtomic p q) := by
  refine memoryOk_front ok fun c t ht => memoryOk_atomicChecks ht fun t ht => ?_
  split
  · exact memoryOk_answer ht
  · exact memoryOk_admitAtomic ht fun _ hu => hu

theorem memoryOk_takeHome (ok : s.memoryOk) {tile want k} (hk : ∀ q t, t.memoryOk → (k q t).memoryOk) : (s.takeHome tile want k).memoryOk := by
  unfold takeHome
  split
  · exact ok
  · extract_lets adm taken out
    have counted : taken.memoryOk := memoryOk_countHead (memoryOk_update ok)
    exact memoryOk_releaseResponses (memoryOk_ite (memoryOk_refusePkt counted) (memoryOk_ite (memoryOk_refusePkt counted) (hk _ _ counted)))

theorem memoryOk_openRecall (ok : s.memoryOk) {tile p k dn x ln q kind who qShares owner ovf} :
    (s.openRecall tile p k dn x ln q kind who qShares owner ovf).memoryOk := by
  unfold openRecall
  refine memoryOk_refusePkt ?_
  refine memoryOk_bump ?_ _ _ _
  refine memoryOk_ite ?_ ?_
  · split
    · exact memoryOk_ite (memoryOk_closeRecall ok) ok
    · exact ok
  · refine memoryOk_ite ?_ ?_
    · refine memoryOk_raise ?_
      split
      · exact memoryOk_ite (memoryOk_closeRecall ok) ok
      · exact ok
    · refine memoryOk_ite ?_ ?_
      · refine memoryOk_bump ?_ _ _ _
        refine memoryOk_update ?_
        split
        · exact memoryOk_ite (memoryOk_closeRecall ok) ok
        · exact ok
      · refine memoryOk_update ?_
        split
        · exact memoryOk_ite (memoryOk_closeRecall ok) ok
        · exact ok

theorem memoryOk_homeFront (ok : s.memoryOk) {tile q right n dn epoch k} (hk : ∀ c m t, t.memoryOk → Decided.MemoryOk (k c m t)) :
    Decided.MemoryOk (s.homeFront tile q right n dn epoch k) := by
  refine memoryOk_frontAt ok fun c t ht => ?_
  dsimp only
  split
  · exact memoryOk_answer ht
  · split
    · exact memoryOk_answer ht
    · split
      · exact memoryOk_answer ht
      · exact hk _ _ _ ht

theorem memoryOk_decideHomeAtomic (ok : s.memoryOk) {tile q} : Decided.MemoryOk (s.decideHomeAtomic tile q) := by
  unfold decideHomeAtomic
  extract_lets k x n dn
  refine memoryOk_homeFront ok fun c m t ht => ?_
  extract_lets e
  refine memoryOk_atomicChecks ht fun t ht => ?_
  split
  · exact memoryOk_answer ht
  · refine memoryOk_whenFetched (memoryOk_fetchDir ht) fun t ht => ?_
    split
    · exact memoryOk_answer (memoryOk_detectDown ht)
    · extract_lets w wait
      split
      · exact memoryOk_refusePkt (memoryOk_bump ht _ _ _)
      · split
        · exact memoryOk_admitAtomic ht fun _ hu => memoryOk_closeRecall hu
        · split
          · exact memoryOk_refusePkt (memoryOk_raise ht)
          · split
            · exact memoryOk_openRecall ht
            · exact memoryOk_openRecall ht

theorem memoryOk_applyAtomic (ok : s.memoryOk) {e fmt home o} : (s.applyAtomic e fmt home o).2.memoryOk := by
  unfold applyAtomic
  extract_lets r tile i
  split
  · exact ok
  · next ln _ =>
    have read := memoryOk_readLine ok (p := r.1) (l := r.2.1) (ln := ln) (fmt := fmt)
    generalize s.readLine r.1 r.2.1 ln fmt = v at read
    obtain ⟨bs, psn, t⟩ := v
    exact memoryOk_snd_ite (memoryOk_bump read _ _ _)
      (memoryOk_bump (memoryOk_writePool (memoryOk_bump (memoryOk_ite (memoryOk_bump read _ _ _) read) _ _ _)) _ _ _)

theorem memoryOk_unitsLand {α : Type} [DecidableEq α] (ok : s.memoryOk) {units : List α} : (s.unitsLand units).2.memoryOk := by
  unfold unitsLand
  split
  · exact ok
  · exact memoryOk_foldl_snd ok fun _ _ _ ht => memoryOk_drawBool ht

theorem memoryOk_applyAtomics (ok : s.memoryOk) {e fmt home ops} : (s.applyAtomics e fmt home ops).2.memoryOk := by
  refine memoryOk_foldl_snd (memoryOk_unitsLand ok) fun b t o ht => ?_
  dsimp only
  split
  · exact memoryOk_applyAtomic ht
  · exact ht

theorem memoryOk_drawRho (ok : s.memoryOk) {g} : (s.drawRho g).2.memoryOk := memoryOk_update ok

theorem memoryOk_encodeStoch (ok : s.memoryOk) {g xs} : (s.encodeStoch g xs).2.memoryOk :=
  memoryOk_foldl_snd ok fun _ _ _ ht => memoryOk_drawRho ht

theorem memoryOk_encodeWeights (ok : s.memoryOk) {g e xs} : (s.encodeWeights g e xs).2.2.memoryOk := by
  unfold encodeWeights
  extract_lets r
  split
  · exact memoryOk_encodeStoch ok
  · split <;> exact ok

theorem memoryOk_kernelRead (ok : s.memoryOk) {e lns} : (s.kernelRead e lns).2.2.memoryOk :=
  List.foldlRecOn (motive := fun (a : List Byte × Bool × State) => a.2.2.memoryOk = true) _ _ ok fun _ ha _ _ => memoryOk_readLine ha

theorem memoryOk_kernelWrite (ok : s.memoryOk) {e lns bs poison} : (s.kernelWrite e lns bs poison).memoryOk :=
  memoryOk_foldl ok fun _ _ ht => memoryOk_writePool ht

theorem memoryOk_applyKernel (ok : s.memoryOk) {b x u row gs} : (s.applyKernel b x u row gs).memoryOk := by
  have read {t : State} {e lns bs poison t'} (ht : t.memoryOk) (h : t.kernelRead e lns = (bs, poison, t')) : t'.memoryOk := by
    have done := memoryOk_kernelRead ht (e := e) (lns := lns)
    rw [h] at done
    exact done
  have encoded {t : State} {g e xs bs nan t'} (ht : t.memoryOk) (h : t.encodeWeights g e xs = (bs, nan, t')) : t'.memoryOk := by
    have done := memoryOk_encodeWeights ht (g := g) (e := e) (xs := xs)
    rw [h] at done
    exact done
  unfold applyKernel
  extract_lets e ce n core g grad s1
  have begun : s1.memoryOk := memoryOk_update ok
  clear_value s1
  split
  next hw =>
  split
  next hv =>
  split
  next hc =>
  extract_lets
  split
  next hn =>
  have weights := encoded (read (read (read begun hw) hv) hc) hn
  split
  next hs =>
  have state := memoryOk_of_snd (memoryOk_snd_ite (memoryOk_encodeStoch weights) weights) hs
  exact memoryOk_bump (memoryOk_bumpN (memoryOk_kernelWrite (memoryOk_kernelWrite (memoryOk_kernelWrite state)))) _ _ _

theorem memoryOk_captureAt (ok : s.memoryOk) {point ws} : (s.captureAt point ws).2.memoryOk :=
  memoryOk_foldl_snd ok fun _ _ _ ht => memoryOk_foldl_snd ht fun _ _ _ hu => memoryOk_readLine hu

theorem memoryOk_landWrite (ok : s.memoryOk) {r ps f ack} : (s.landWrite r ps f ack).memoryOk := by
  unfold landWrite
  dsimp only
  split
  · exact memoryOk_setWork (memoryOk_keyFail ok)
  · exact memoryOk_setWork (memoryOk_foldl (memoryOk_unitsLand ok) fun _ _ ht => memoryOk_ite (memoryOk_writePool ht) ht)

theorem memoryOk_landOne (ok : s.memoryOk) {r} : (s.landOne r).memoryOk := by
  unfold landOne
  split
  · exact memoryOk_landWrite ok
  · exact memoryOk_setWork (memoryOk_applyAtomics ok)
  · exact ok

theorem memoryOk_landPushes (ok : s.memoryOk) {l} : (s.landPushes l).memoryOk := by
  refine memoryOk_foldl (memoryOk_foldl (memoryOk_unitsLand ok) fun t k ht => ?_) fun t r ht => ?_
  · dsimp only
    split
    · exact memoryOk_applyKernel ht
    · exact ht
  · split
    · exact memoryOk_setWork ht
    · exact ht

theorem memoryOk_landCoh (ok : s.memoryOk) {r} : (s.landCoh r).memoryOk := by
  unfold landCoh
  split
  · extract_lets e q t c k able v u st
    have written : t.memoryOk := by
      dsimp only [t]
      split
      · exact memoryOk_writePool ok
      · exact ok
    clear_value t
    have viewed : u.memoryOk := by
      dsimp only [u, v]
      split
      · split
        · exact memoryOk_readLine written
        · exact memoryOk_keyFail written
      · exact written
    clear_value u
    exact memoryOk_setWork (memoryOk_noteOwned (memoryOk_writeDirEntry viewed))
  · exact ok

theorem memoryOk_fillsFirst (ok : s.memoryOk) {work} : (s.fillsFirst work).memoryOk :=
  memoryOk_foldl ok fun _ _ ht => memoryOk_withReq ht fun _ => memoryOk_fillWrite ht

theorem memoryOk_landing (ok : s.memoryOk) : s.landing.memoryOk := by
  unfold landing
  extract_lets due home order s1 ws
  split
  · exact ok
  · have filled : s1.memoryOk := memoryOk_fillsFirst ok
    clear_value s1
    split
    next heq =>
    have captured := memoryOk_of_snd (memoryOk_captureAt filled) heq
    split
    next heq =>
    have landed := memoryOk_of_snd (memoryOk_foldl_snd captured fun _ _ _ ht => memoryOk_captureAt (memoryOk_landOne ht)) heq
    have homes := memoryOk_foldl (l := due.filter home) (memoryOk_landPushes landed (l := due.filter fun r => r.work.isPush))
      fun _ r ht => memoryOk_ite (c := r.work.isCoh = true) (memoryOk_landCoh ht (r := r)) (memoryOk_landOne ht (r := r))
    refine memoryOk_retryRecalls (memoryOk_update (memoryOk_foldl homes fun t w ht => ?_))
    split
    next heq =>
    have drawn := memoryOk_of_snd (memoryOk_snd_ite (memoryOk_drawBool ht) ht) heq
    split
    · exact memoryOk_rowPhase drawn
    · exact drawn

theorem memoryOk_dropReq (ok : s.memoryOk) {rid} : (s.dropReq rid).memoryOk := ok

theorem memoryOk_writeAck (ok : s.memoryOk) {r} : (s.writeAck r).memoryOk := by
  unfold writeAck
  split
  · exact memoryOk_ite ok (memoryOk_ite (memoryOk_sendResult ok) (memoryOk_ite (memoryOk_sendResult ok) ok))
  · exact ok

theorem memoryOk_pushCompletion (ok : s.memoryOk) {r} : (s.pushCompletion r).memoryOk := by
  unfold pushCompletion
  split
  · exact memoryOk_ite ok (memoryOk_ite (memoryOk_sendResult ok) ok)
  · exact ok

theorem memoryOk_atomicResult (ok : s.memoryOk) {r} : (s.atomicResult r).memoryOk := by
  unfold atomicResult
  split
  · exact memoryOk_ite ok (memoryOk_sendResult ok)
  · exact ok

end Sys2Proof.Machine.State
end

section
/-! PROOF. HBM stays canonical: coherence requests at their home (the operations of `Machine/Coherence`). -/

namespace Sys2Proof.Machine.State

variable {s : State}

theorem memoryOk_lostLine (ok : s.memoryOk) {tile p k dn x ln q} : (s.lostLine tile p k dn x ln q).memoryOk := by
  have opens : ∀ t tile p k dn x ln q kind who qShares owner ovf, t.memoryOk → (State.openRecall t tile p k dn x ln q kind who qShares owner ovf).memoryOk :=
    fun _ _ _ _ _ _ _ _ _ _ _ _ _ ht => memoryOk_openRecall ht
  have key : ∀ f, f = @lostLine → (f s tile p k dn x ln q).memoryOk := by
    intro f hf
    delta lostLine at hf
    subst hf
    generalize @openRecall = op at opens
    beta_reduce
    extract_lets t
    have opened : t.memoryOk := opens _ _ _ _ _ _ _ _ _ _ _ _ _ ok
    clear_value t
    split
    · exact memoryOk_completeRecall opened
    · exact opened
  exact key _ rfl

end Sys2Proof.Machine.State

namespace Sys2Proof.Machine.Demand
open State

variable {d : Demand}

theorem memoryOk_coherent (ok : d.st.memoryOk) {tile e ln withData write} : (d.coherent tile e ln withData write).st.memoryOk := by
  unfold coherent
  extract_lets s u r dl d1 d2 d3 d4
  have mirrored : d2.st.memoryOk := by
    dsimp only [d2]
    split <;> exact ok
  have data : d3.st.memoryOk := by
    dsimp only [d3]
    split
    · split <;> exact mirrored
    · exact mirrored
  have dataMirrored : d4.st.memoryOk := by
    dsimp only [d4]
    split
    · split <;> exact data
    · exact data
  split
  · exact memoryOk_dirty dataMirrored
  · exact data

end Sys2Proof.Machine.Demand

namespace Sys2Proof.Machine.State

variable {s : State}

theorem memoryOk_admitCoh (ok : s.memoryOk) {tile p k c msg dn x ln new granted withData write} :
    Decided.MemoryOk (s.admitCoh tile p k c msg dn x ln new granted withData write) := by
  unfold admitCoh
  extract_lets e r d1 d2 d3 size
  have charged : d3.st.memoryOk := Demand.memoryOk_coherent (d := d1) ok
  have sent := Demand.memoryOk_egress charged (h := tile) (c := c) (ctx := k.ctxid.toNat) (eid := k.src) (u := tadd s.tick 2) (sizes := [size])
  generalize d3.egress tile c k.ctxid.toNat k.src (tadd s.tick 2) [size] = r at sent
  obtain ⟨d, port, segs⟩ := r
  refine Decided.memoryOk_inr ok ?_ fun t ht => ?_
  · cases port <;> exact sent
  · extract_lets noted closed
    have closedOk : closed.memoryOk := memoryOk_closeRecall (memoryOk_ite (memoryOk_noteGroups ht) ht)
    exact memoryOk_ite (memoryOk_bump closedOk _ _ _) closedOk

theorem memoryOk_decideCoh (ok : s.memoryOk) {tile msg act q} : Decided.MemoryOk (s.decideCoh tile msg act q) := by
  have counted := memoryOk_bump ok .coh tile 0x100
  unfold decideCoh
  refine Decided.memoryOk_ite (memoryOk_answer counted) ?_
  split
  · refine memoryOk_homeFront counted fun c m t ht => ?_
    refine Decided.memoryOk_ite (memoryOk_answer ht) ?_
    refine memoryOk_whenFetched (memoryOk_takeCopies ht) fun t ht => ?_
    split
    · exact memoryOk_answer (memoryOk_keyFailIn ht)
    · refine memoryOk_whenFetched (memoryOk_fetchDir ht) fun t ht => ?_
      split
      · exact memoryOk_answer (memoryOk_detectDown ht)
      · refine Decided.memoryOk_ite (memoryOk_refusePkt (memoryOk_bump ht _ _ _)) ?_
        extract_lets full
        split
        · exact memoryOk_answer (memoryOk_bump ht _ _ _)
        · exact memoryOk_refusePkt (memoryOk_raise ht)
        · exact memoryOk_lostLine ht
        · exact memoryOk_openRecall ht
        · exact memoryOk_admitCoh (memoryOk_ite (memoryOk_raise ht) ht)
  · exact memoryOk_answer counted

theorem memoryOk_takeCoh (ok : s.memoryOk) {tile msg act} : (s.takeCoh tile msg act).memoryOk := by
  have settled := fun q (t : State) ht p k => Decided.memoryOk_settle (memoryOk_decideCoh (s := t) ht (tile := tile) (msg := msg) (act := act)
    (q := q))
    (h := tile) (p := p) (k := k)
  unfold takeCoh
  split
  · exact memoryOk_takeHome ok fun q t ht => settled q t ht _ _
  · dsimp only
    split
    · exact memoryOk_takeHead ok fun q t ht => settled q t ht _ _
    · exact ok

theorem memoryOk_grantSend (ok : s.memoryOk) {r} : (s.grantSend r).memoryOk := by
  unfold grantSend
  split
  · exact memoryOk_ite ok (memoryOk_sendResult ok)
  · exact ok

end Sys2Proof.Machine.State
end

section
/-! PROOF. HBM stays canonical: bulk requests, the page-table walk and chunks (the operations of `Machine/Bulk`). -/

namespace Sys2Proof.Machine.Demand

variable {d : Demand}

theorem memoryOk_unplanned (ok : d.st.memoryOk) {why} : (d.unplanned why).st.memoryOk := by
  cases why <;> exact ok

theorem memoryOk_bulkFrames (ok : d.st.memoryOk) {e off len} : (d.bulkFrames e off len).st.memoryOk :=
  memoryOk_foldl ok fun _ _ hd => memoryOk_frame hd

end Sys2Proof.Machine.Demand

namespace Sys2Proof.Machine.State

variable {s : State}

theorem memoryOk_sendAccepted (ok : s.memoryOk) {p k pct} : (s.sendAccepted p k pct).memoryOk := memoryOk_sendReply ok

theorem memoryOk_admitBulk (ok : s.memoryOk) {p k c copy x so dst len} : Decided.MemoryOk (s.admitBulk p k c copy x so dst len) := by
  unfold admitBulk
  extract_lets h e v d1 d2
  split
  · exact memoryOk_refusePkt ok
  · extract_lets plan
    have framed : d2.st.memoryOk := by
      dsimp only [d2]
      split
      · exact Demand.memoryOk_bulkFrames ok
      · exact ok
    split
    · exact Decided.memoryOk_inr ok (Demand.memoryOk_unplanned framed) fun _ ht => ht
    · extract_lets pct d3
      split
      next d4 segs heq =>
      have sent : d4.st.memoryOk := by
        split at heq
        · split at heq <;> cases heq <;> exact framed
        · cases heq
          exact framed
      exact Decided.memoryOk_inr ok sent fun _ ht => memoryOk_sendAccepted ht

theorem memoryOk_decideBulk (ok : s.memoryOk) {p copy q} : Decided.MemoryOk (s.decideBulk p copy q) := by
  unfold decideBulk
  extract_lets k nw lw len ps ns
  refine memoryOk_whenFetched (memoryOk_takeCopies ok) fun t ht => ?_
  extract_lets c st
  clear_value st ps
  split
  · exact memoryOk_answer ht
  · split
    · exact memoryOk_answer ht
    · split
      · split
        · exact memoryOk_answer ht
        · exact memoryOk_admitBulk ht
      · split
        · exact memoryOk_answer ht
        · exact memoryOk_admitBulk ht
      · exact memoryOk_answer ht

theorem memoryOk_placeHost (ok : s.memoryOk) {h d x po start} : (s.placeHost h d x po start).2.memoryOk := by
  have refused := fun ns bad least c k => memoryOk_countRefusal (memoryOk_refusedDemand ok (h := h) (ns := ns) (bad := bad) (least := least))
    (tile := h) (p := 0)
    (ctx := c) (reason := k)
  unfold placeHost
  extract_lets no e m1 m2
  have framed : m2.st.memoryOk := by
    dsimp only [m2]
    split
    · exact Demand.memoryOk_bulkFrames ok
    · exact ok
  split
  · exact refused _ _ _ _ _
  · split
    · exact refused _ _ _ _ _
    · exact memoryOk_postCpl (memoryOk_bump (memoryOk_foldl (memoryOk_update (memoryOk_reserve framed)) fun _ _ ht => memoryOk_holdParcel ht) _ _ _)

theorem memoryOk_admitHost (ok : s.memoryOk) {d start} : (s.admitHost d start).2.memoryOk := by
  unfold admitHost
  extract_lets h no f t
  have copied : f.2.memoryOk := memoryOk_takeCopies ok
  clear_value f
  split
  · exact memoryOk_countRefusal copied
  · exact memoryOk_raiseTableCrc copied
  · split
    · exact copied
    · refine memoryOk_snd_ite (memoryOk_countRefusal copied) ?_
      split
      · exact memoryOk_placeHost copied
      · exact copied

theorem memoryOk_takeHostBulk (ok : s.memoryOk) {d} : (s.takeHostBulk d).memoryOk := by
  unfold takeHostBulk
  split
  · next _ _ _ t heq =>
      exact memoryOk_endBulk ((memoryOk_of_snd (memoryOk_admitHost ok) heq))
  · next _ t heq =>
      exact memoryOk_postCpl (memoryOk_update ((memoryOk_of_snd (memoryOk_admitHost ok) heq)))
  · next t heq =>
      exact (memoryOk_of_snd (memoryOk_admitHost ok) heq)

theorem memoryOk_readmitOne (ok : s.memoryOk) {q} : (s.readmitOne q).memoryOk := by
  unfold readmitOne
  split
  · next d _ =>
    have tried := memoryOk_admitHost ok (d := d) (start := q.resume)
    extract_lets rid gone
    split
    · next heq => exact memoryOk_endBulk (memoryOk_update (memoryOk_of_snd tried heq))
    · next heq => exact memoryOk_endBulk (memoryOk_update (memoryOk_of_snd tried heq))
    · next heq => exact memoryOk_update (memoryOk_of_snd tried heq)
    · next heq => exact memoryOk_update (memoryOk_of_snd tried heq)
  · exact ok

theorem memoryOk_readmit (ok : s.memoryOk) {rid} : (s.readmit rid).memoryOk :=
  memoryOk_foldl ok fun _ _ ht => memoryOk_ite (memoryOk_readmitOne ht) ht

theorem memoryOk_cachePte (ok : s.memoryOk) {e} : (s.cachePte e).memoryOk := ok

theorem memoryOk_cacheLeaf (ok : s.memoryOk) {core e} : (s.cacheLeaf core e).memoryOk := ok

theorem memoryOk_cachedPte (ok : s.memoryOk) {tile asid mode i va} : (s.cachedPte tile asid mode i va).2.memoryOk := by
  unfold cachedPte
  split
  · exact memoryOk_snd_ite (memoryOk_parityError (memoryOk_update ok)) ok
  · exact ok

theorem memoryOk_readPte (ok : s.memoryOk) {a} : (s.readPte a).2.memoryOk := by
  unfold readPte
  split
  · exact memoryOk_readRegionLine (memoryOk_useSlot ok)
  · exact ok

theorem memoryOk_walkFrom {useCache w i} : ∀ {a l n} {s : State}, s.memoryOk → (State.walkFrom useCache w i a l n s).2.2.2.memoryOk := by
  induction i with
  | zero => exact fun ok => ok
  | succ i ih =>
    intro a l n s ok
    rw [walkFrom]
    extract_lets hit rd
    have looked : hit.2.memoryOk := by
      dsimp only [hit]
      split
      · exact memoryOk_cachedPte ok
      · exact ok
    have read : rd.2.memoryOk := by
      dsimp only [rd]
      split
      · exact looked
      · exact memoryOk_readPte looked
    split
    · exact ok
    · split
      · exact read
      · split
        · exact read
        · split
          · exact read
          · split
            · split
              · exact read
              · split
                · exact read
                · exact ih read
            · exact read

theorem memoryOk_leafHit (ok : s.memoryOk) {core w} : (s.leafHit core w).2.memoryOk := by
  unfold leafHit
  split
  · refine memoryOk_snd_ite (memoryOk_parityError (memoryOk_update ok)) ?_
    split
    · exact ok
    · exact ok
  · exact ok

theorem memoryOk_walkPage (ok : s.memoryOk) {core c w} : (s.walkPage core c w).2.memoryOk := by
  unfold walkPage
  split
  · next heq => exact memoryOk_cacheLeaf (memoryOk_of_snd (memoryOk_leafHit ok) heq)
  · next t heq =>
    extract_lets levels first res s1
    have missed : t.memoryOk := memoryOk_of_snd (memoryOk_leafHit ok) heq
    have cached : first.2.2.2.memoryOk := memoryOk_walkFrom missed
    have walked : res.2.2.2.memoryOk := by
      dsimp only [res]
      split
      · exact cached
      · split
        · exact cached
        · exact memoryOk_walkFrom cached
    clear_value res
    have counted : s1.memoryOk := memoryOk_bumpN (memoryOk_bump walked _ _ _)
    clear_value s1
    split
    · have kept := memoryOk_foldl (l := res.2.1) (f := State.cachePte) counted fun _ _ ht => memoryOk_cachePte ht
      dsimp only
      split
      · exact memoryOk_cacheLeaf kept
      · exact kept
    · exact counted

theorem memoryOk_bulkLine (ok : s.memoryOk) {e ln} : (s.bulkLine e ln).2.2.memoryOk := by
  unfold bulkLine
  extract_lets q
  split
  · split
    · exact memoryOk_readLine ok
    · exact ok
  · exact ok

theorem memoryOk_bulkKeyFail (ok : s.memoryOk) {r e x off} : (s.bulkKeyFail r e x off).memoryOk := memoryOk_keyFail ok

theorem memoryOk_sendBulk (ok : s.memoryOk) {r seq0 status final parts} : (s.sendBulk r seq0 status final parts).memoryOk := by
  unfold sendBulk
  split
  · exact ok
  · exact memoryOk_foldl ok fun _ _ ht => memoryOk_enqueue ht

theorem memoryOk_readChunk (ok : s.memoryOk) {r ch ptr len seq} : (s.readChunk r ch ptr len seq).memoryOk := by
  unfold readChunk
  split
  · extract_lets e stop n got t parts fin u moved r' v
    have read : t.memoryOk := List.foldlRecOn (motive := fun (a : List Byte × List Bool × State) => a.2.2.memoryOk = true) _ _ ok
      fun _ ha _ _ => memoryOk_bulkLine ha
    have sent : v.memoryOk := memoryOk_setReq (memoryOk_sendBulk read)
    clear_value v stop
    split
    · exact sent
    · exact memoryOk_sendBulk (memoryOk_bulkKeyFail sent)
  · exact ok

theorem memoryOk_copyChunk (ok : s.memoryOk) {r ch src dst} : (s.copyChunk r ch src dst).memoryOk := by
  unfold copyChunk
  split
  · extract_lets n e f a b stop lines t u v
    have copied : t.memoryOk := memoryOk_foldl ok fun _ _ ht => memoryOk_writePool (memoryOk_bulkLine ht)
    clear_value t a b
    have failed : u.memoryOk := by
      dsimp only [u]
      split
      · exact memoryOk_ite (memoryOk_bulkKeyFail copied) copied
      · exact copied
    clear_value u
    have stopped : v.memoryOk := by
      dsimp only [v]
      split
      · exact memoryOk_ite (memoryOk_bulkKeyFail failed) failed
      · exact failed
    exact memoryOk_setReq stopped
  · exact ok

theorem memoryOk_hostChunk (ok : s.memoryOk) {r d ch} : (s.hostChunk r d ch).memoryOk := by
  unfold hostChunk
  split
  · refine memoryOk_ite ok ?_
    extract_lets e
    split
    · exact memoryOk_endBulk (memoryOk_dropReq (memoryOk_releaseAfter (memoryOk_bulkKeyFail ok)))
    · refine memoryOk_setReq (memoryOk_foldl ok fun t i ht => ?_)
      split
      · exact ht
      · exact memoryOk_ite (memoryOk_writePool (memoryOk_readRegionLine ht)) (memoryOk_writeLine (memoryOk_bulkLine ht) _ _ _ _ _ _ _)
  · exact ok

theorem memoryOk_bulkChunk (ok : s.memoryOk) {r} : (s.bulkChunk r).memoryOk := by
  unfold bulkChunk
  split
  · exact ok
  · split
    · exact memoryOk_readChunk ok
    · exact memoryOk_copyChunk ok
    · exact memoryOk_hostChunk ok
    · exact ok

theorem memoryOk_dropFault (ok : s.memoryOk) {t d type va resume} : (s.dropFault t d type va resume).memoryOk :=
  memoryOk_ite (memoryOk_endBulk (memoryOk_bump (memoryOk_raise (memoryOk_setFld ok)) _ _ _)) (memoryOk_postEvent (memoryOk_endBulk (memoryOk_bump
    (memoryOk_raise (memoryOk_setFld ok)) _ _ _)))

theorem memoryOk_parkFault (ok : s.memoryOk) {t r c d resume va type level pte} : (s.parkFault t r c d resume va type level pte).memoryOk := by
  unfold parkFault
  extract_lets write u room old park
  have released : u.memoryOk := memoryOk_dropReq (memoryOk_releaseAfter ok)
  clear_value u old
  split
  · exact memoryOk_ite (memoryOk_bump (memoryOk_update (memoryOk_update released)) _ _ _) (memoryOk_dropFault released)
  · exact memoryOk_ite (memoryOk_update (memoryOk_update released)) (memoryOk_dropFault released)

theorem memoryOk_finalFault (ok : s.memoryOk) {t r d status type va resume} : (s.finalFault t r d status type va resume).memoryOk :=
  memoryOk_endBulk (memoryOk_bump (memoryOk_dropReq (memoryOk_releaseAfter ok)) _ _ _)

theorem memoryOk_setChunk (ok : s.memoryOk) {r c c'} : (s.setChunk r c c').memoryOk := memoryOk_setReq ok

theorem memoryOk_walkChunk (ok : s.memoryOk) {tile core c write a n} : (s.walkChunk tile core c write a n).2.2.memoryOk := by
  refine List.foldlRecOn (motive := fun (x : List Nat × Option (Nat × WalkEnd) × State) => x.2.2.memoryOk = true) _ _ ok fun x hx i _ => ?_
  obtain ⟨ps, f, t⟩ := x
  cases f with
  | some f => exact hx
  | none =>
    dsimp only
    split
    · next heq => exact memoryOk_of_snd (memoryOk_walkPage hx) heq
    · next heq => exact memoryOk_of_snd (memoryOk_walkPage hx) heq

theorem memoryOk_walkFault (ok : s.memoryOk) {r c d ch va f} : (s.walkFault r c d ch va f).memoryOk := by
  have counted := memoryOk_bulkChunk ok (r := r)
  unfold walkFault
  dsimp only
  split
  · exact memoryOk_ite (memoryOk_finalFault counted) (memoryOk_parkFault counted)
  · exact memoryOk_finalFault counted
  · exact counted

theorem memoryOk_bulkWalk (ok : s.memoryOk) {r} : (s.bulkWalk r).memoryOk := by
  unfold bulkWalk
  split
  · extract_lets c
    next d ch _ _ =>
    have walked := memoryOk_walkChunk ok (tile := ch.tile) (core := ch.core) (c := s.ctxt r.banks r.ctx.toNat) (write := !d.toPool)
      (a := d.hva.toNat + ch.off) (n := 256 * ch.lines)
    split
    · next heq =>
      rw [heq] at walked
      exact memoryOk_setChunk walked
    · next heq =>
      rw [heq] at walked
      exact memoryOk_walkFault walked
  · exact ok

theorem memoryOk_writeFaults (ok : s.memoryOk) {t} : (s.writeFaults t).memoryOk :=
  memoryOk_foldl ok fun _ _ ht => memoryOk_update (memoryOk_raise (memoryOk_bump (memoryOk_setFld (memoryOk_writeWords ht _ _)) _ _ _))

theorem memoryOk_closeGroups (ok : s.memoryOk) {t} : (s.closeGroups t).memoryOk := by
  unfold closeGroups
  refine memoryOk_finishDue ?_
  refine memoryOk_foldl ok fun t x ht => ?_
  refine memoryOk_ite ?_ (memoryOk_bump (memoryOk_update (memoryOk_update ht)) _ _ _)
  refine memoryOk_bump ?_ _ _ _
  refine memoryOk_foldl (memoryOk_update (memoryOk_update ht)) fun t x ht => ?_
  split
  · exact memoryOk_endBulk ht
  · exact ht

theorem memoryOk_bulkCompletion (ok : s.memoryOk) {r} : (s.bulkCompletion r).memoryOk := by
  unfold bulkCompletion
  refine memoryOk_ite ok ?_
  split
  · exact memoryOk_ite ok (memoryOk_sendResult ok)
  · exact memoryOk_ite (memoryOk_endBulk (memoryOk_dropReq ok)) ok
  · exact ok

end Sys2Proof.Machine.State
end

section
/-! PROOF. HBM stays canonical: egress scheduling (the operations of `Machine/Sched`). -/

namespace Sys2Proof.Machine.State

variable {s : State}

theorem memoryOk_fillTokens (ok : s.memoryOk) {p t} : (s.fillTokens p t).memoryOk := memoryOk_setSched ok

theorem memoryOk_advanceTags (ok : s.memoryOk) {p e} : (s.advanceTags p e).memoryOk := memoryOk_setSched ok

theorem memoryOk_sendBlocks (ok : s.memoryOk) {p vc ns k} : (s.sendBlocks p vc ns k).memoryOk :=
  memoryOk_foldl ok fun _ _ ht => memoryOk_bump (memoryOk_sendBlock (memoryOk_setLink ht)) _ _ _

theorem memoryOk_countTx (ok : s.memoryOk) {p vc k} : (s.countTx p vc k).memoryOk := memoryOk_setTel ok

theorem memoryOk_responseLeft (ok : s.memoryOk) {rid} : (s.responseLeft rid).memoryOk := ok

theorem memoryOk_noteWait (ok : s.memoryOk) {p e} : (s.noteWait p e).memoryOk :=
  memoryOk_ite (memoryOk_ite (memoryOk_raise (memoryOk_drawBool ok)) (memoryOk_drawBool ok)) ok

theorem memoryOk_sendPacket (ok : s.memoryOk) {p t k e} : (s.sendPacket p t k e).memoryOk := by
  unfold sendPacket
  dsimp only
  split
  · exact memoryOk_ite (memoryOk_responseLeft (memoryOk_ite (memoryOk_bump (memoryOk_countTx (memoryOk_emit (memoryOk_sendBlocks (memoryOk_ite
    (memoryOk_setSched (memoryOk_noteWait (memoryOk_ite ok (memoryOk_advanceTags ok)))) (memoryOk_bumpN (memoryOk_setSched (memoryOk_noteWait
    (memoryOk_ite ok (memoryOk_advanceTags ok))))))))) _ _ _) (memoryOk_countTx (memoryOk_emit (memoryOk_sendBlocks (memoryOk_ite (memoryOk_setSched
    (memoryOk_noteWait (memoryOk_ite ok (memoryOk_advanceTags ok)))) (memoryOk_bumpN (memoryOk_setSched (memoryOk_noteWait (memoryOk_ite ok
    (memoryOk_advanceTags ok))))))))))) (memoryOk_ite (memoryOk_bump (memoryOk_countTx (memoryOk_emit (memoryOk_sendBlocks (memoryOk_ite
    (memoryOk_setSched (memoryOk_noteWait (memoryOk_ite ok (memoryOk_advanceTags ok)))) (memoryOk_bumpN (memoryOk_setSched (memoryOk_noteWait
    (memoryOk_ite ok (memoryOk_advanceTags ok))))))))) _ _ _) (memoryOk_countTx (memoryOk_emit (memoryOk_sendBlocks (memoryOk_ite (memoryOk_setSched
    (memoryOk_noteWait (memoryOk_ite ok (memoryOk_advanceTags ok)))) (memoryOk_bumpN (memoryOk_setSched (memoryOk_noteWait (memoryOk_ite ok
    (memoryOk_advanceTags ok))))))))))
  · exact memoryOk_ite (memoryOk_bump (memoryOk_countTx (memoryOk_emit (memoryOk_sendBlocks (memoryOk_ite (memoryOk_setSched (memoryOk_noteWait
    (memoryOk_ite ok (memoryOk_advanceTags ok)))) (memoryOk_bumpN (memoryOk_setSched (memoryOk_noteWait (memoryOk_ite ok
    (memoryOk_advanceTags ok))))))))) _ _ _) (memoryOk_countTx (memoryOk_emit (memoryOk_sendBlocks (memoryOk_ite (memoryOk_setSched (memoryOk_noteWait
    (memoryOk_ite ok (memoryOk_advanceTags ok)))) (memoryOk_bumpN (memoryOk_setSched (memoryOk_noteWait (memoryOk_ite ok
    (memoryOk_advanceTags ok)))))))))

theorem memoryOk_dropStale (ok : s.memoryOk) {p} : (s.dropStale p).memoryOk := by
  unfold dropStale
  refine memoryOk_foldl (memoryOk_bumpN (memoryOk_setSched ok)) fun t x ht => ?_
  split
  · exact memoryOk_ite (memoryOk_responseLeft ht) ht
  · exact ht

theorem memoryOk_sendSelect (ok : s.memoryOk) {p ns} : (s.sendSelect p ns).memoryOk := by
  unfold sendSelect
  refine memoryOk_ite ok ?_
  dsimp only
  split
  · exact memoryOk_ite (memoryOk_sendPacket (memoryOk_fillTokens (memoryOk_dropStale ok))) (memoryOk_sendBlock (memoryOk_fillTokens
    (memoryOk_dropStale ok)))
  · exact memoryOk_sendBlock (memoryOk_fillTokens (memoryOk_dropStale ok))

theorem memoryOk_dropLate (ok : s.memoryOk) {p} : (s.dropLate p).memoryOk :=
  memoryOk_foldl ok fun _ _ ht => memoryOk_discardReq (memoryOk_recordStop (memoryOk_raise (memoryOk_bumpN (memoryOk_setSched ht))))

end Sys2Proof.Machine.State
end

section
/-! PROOF. HBM stays canonical: table switches and ticks of effect (the operations of `Machine/Switching`). -/

namespace Sys2Proof.Machine.State

variable {s : State}

theorem memoryOk_hostErr (ok : s.memoryOk) : s.hostErr.memoryOk := memoryOk_bump (memoryOk_emit ok) _ _ _

theorem memoryOk_respond (ok : s.memoryOk) {by' done} : (s.respond by' done).memoryOk := by
  unfold respond
  split
  · exact memoryOk_ite (memoryOk_update ok) (memoryOk_hostErr ok)
  · exact ok

theorem memoryOk_loadSluice (ok : s.memoryOk) {S} : (s.loadSluice S).memoryOk :=
  memoryOk_foldl ok fun _ _ ht => memoryOk_ite (memoryOk_raise (memoryOk_setSched ht)) (memoryOk_setSched ht)

theorem memoryOk_ctrlWrite (ok : s.memoryOk) {t value cycle} : (s.ctrlWrite t value cycle).memoryOk :=
  memoryOk_ite (memoryOk_ite (memoryOk_busyErr (memoryOk_ite (memoryOk_setFld ok) ok)) (memoryOk_ite (memoryOk_loadSluice (memoryOk_setReg
    (memoryOk_ite (memoryOk_setFld ok) ok) _ _)) (memoryOk_setReg (memoryOk_ite (memoryOk_setFld ok) ok) _ _))) (memoryOk_ite (memoryOk_ite
    (memoryOk_setFld ok) ok) (memoryOk_setFld (memoryOk_ite (memoryOk_setFld ok) ok)))

theorem memoryOk_baseWrite (ok : s.memoryOk) {t bank value cycle} : (s.baseWrite t bank value cycle).memoryOk :=
  memoryOk_ite (memoryOk_busyErr ok) (memoryOk_setReg ok _ _)

theorem memoryOk_applyForming (ok : s.memoryOk) {S} : (s.applyForming S).memoryOk := by
  unfold applyForming
  refine memoryOk_foldl ok fun t x ht => ?_
  split
  · exact memoryOk_setDom ht
  · exact ht

theorem memoryOk_dropBank (ok : s.memoryOk) {t} : (s.dropBank t).memoryOk := ok

theorem memoryOk_switchTable (ok : s.memoryOk) {t} : (s.switchTable t).memoryOk :=
  memoryOk_ite (memoryOk_postEvent (memoryOk_finishAll (memoryOk_ite (memoryOk_applyForming (memoryOk_dropBank (memoryOk_update
    (memoryOk_setReg ok _ _)))) (memoryOk_dropBank (memoryOk_update (memoryOk_setReg ok _ _)))))) ok

theorem memoryOk_setOldFree (ok : s.memoryOk) {t} : (s.setOldFree t).memoryOk :=
  memoryOk_ite ok (memoryOk_runDeferred (memoryOk_foldl (memoryOk_update (memoryOk_postEvent (memoryOk_setFld ok))) fun _ _ ht =>
    memoryOk_freeBlock ht))

theorem memoryOk_switchPort (ok : s.memoryOk) {p} : (s.switchPort p).memoryOk := by
  unfold switchPort
  dsimp only
  split
  · exact memoryOk_ite (memoryOk_raise (memoryOk_setSched ok)) ok
  · exact ok

theorem memoryOk_invalidateEffect (ok : s.memoryOk) : s.invalidateEffect.memoryOk := memoryOk_finishDue (memoryOk_update (memoryOk_update ok))

theorem memoryOk_policyEffect (ok : s.memoryOk) : s.policyEffect.memoryOk :=
  memoryOk_finishDue (memoryOk_foldl (memoryOk_update ok) fun _ _ ht => memoryOk_foldl ht fun _ _ ht => memoryOk_setReg ht _ _)

theorem memoryOk_freeTail (ok : s.memoryOk) {x n} : (s.freeTail x n).memoryOk :=
  memoryOk_foldl ok fun _ _ ht => memoryOk_setPmap (memoryOk_dropParcel ht)

theorem memoryOk_freeDirs (ok : s.memoryOk) {x n} : (s.freeDirs x n).memoryOk :=
  memoryOk_ite ok (memoryOk_foldl ok fun _ _ ht => memoryOk_ite (memoryOk_setFht (memoryOk_ite (memoryOk_setFht ht) ht)) ht)

theorem memoryOk_unpinFrames (ok : s.memoryOk) {x} : (s.unpinFrames x).memoryOk := by
  unfold unpinFrames
  refine memoryOk_foldl ok fun t x ht => ?_
  split
  · exact memoryOk_ite (memoryOk_setFht ht) ht
  · exact ht

theorem memoryOk_extentDrained (ok : s.memoryOk) {x} : (s.extentDrained x).memoryOk := by
  unfold extentDrained
  split
  · split
    · refine memoryOk_ite ?_ ok
      refine memoryOk_postEvent ?_
      have drained := fun p => memoryOk_finishAll ok (p := p) (status := stOk)
      split
      · exact memoryOk_update (memoryOk_update (drained _))
      · exact memoryOk_freeTail (memoryOk_freeDirs (memoryOk_update (drained _)))
      · exact memoryOk_ite (memoryOk_update (drained _)) (memoryOk_unpinFrames (memoryOk_update (drained _)))
    · exact ok
  · exact ok

theorem memoryOk_pinStep (ok : s.memoryOk) {x} : (s.pinStep x).memoryOk := by
  refine memoryOk_foldl ok fun t ip ht => ?_
  extract_lets u
  have framed : u.memoryOk := by
    dsimp only [u]
    split
    · exact memoryOk_ite ht (memoryOk_setFht ht)
    · exact memoryOk_getD ht fun _ e => memoryOk_giveFrame ht e
  exact memoryOk_ite (memoryOk_foldl framed fun _ _ ht => memoryOk_ite ht (memoryOk_startFetch ht)) framed

theorem memoryOk_beginPin (ok : s.memoryOk) {x create} : (s.beginPin x create).memoryOk := memoryOk_pinStep (memoryOk_update ok)

theorem memoryOk_copyToMirror (ok : s.memoryOk) {p l} : (s.copyToMirror p l).2.memoryOk := by
  unfold copyToMirror
  split
  · exact ok
  · split
    · exact ok
    · exact memoryOk_snd_ite (memoryOk_writeLine (memoryOk_readFor (memoryOk_useSpare ok)) _ _ _ _ _ _ _) ok

theorem memoryOk_copyClean (ok : s.memoryOk) {ls} : (s.copyClean ls).2.memoryOk :=
  memoryOk_foldl_snd ok fun _ _ _ ht => memoryOk_copyToMirror ht

theorem memoryOk_zeroLine (ok : s.memoryOk) {p l} : (s.zeroLine p l).2.memoryOk := by
  unfold zeroLine
  split
  · exact ok
  · have put : ∀ {t : State} {k bs fmt mirror tag}, t.memoryOk → (t.writeLine k bs false false fmt mirror tag).memoryOk :=
      fun ht => memoryOk_writeLine ht _ _ _ _ _ _ _
    exact memoryOk_snd_ite (memoryOk_foldl (put (memoryOk_useSpare ok)) fun _ _ ht => put ht) ok

theorem memoryOk_finishPin (ok : s.memoryOk) {x t} : (s.finishPin x t).memoryOk := memoryOk_foldl ok fun _ _ ht => memoryOk_finish ht

theorem memoryOk_zeroStep (ok : s.memoryOk) {j others} : (s.zeroStep j others).memoryOk := by
  unfold zeroStep
  extract_lets o t
  have zeroed : t.memoryOk := memoryOk_foldl_snd ok fun _ _ _ ht => memoryOk_zeroLine ht
  clear_value t
  exact memoryOk_ite (memoryOk_finishPin (memoryOk_putBoth (memoryOk_update zeroed))) (memoryOk_update zeroed)

theorem memoryOk_pinDone (ok : s.memoryOk) {x} : (s.pinDone x).memoryOk := by
  unfold pinDone
  split
  · exact ok
  · extract_lets others
    refine memoryOk_ite (memoryOk_zeroStep ok) ?_
    split
    · have copied := fun l => memoryOk_copyClean ok (ls := l)
      exact memoryOk_ite (memoryOk_ite (memoryOk_update (memoryOk_changeExtt (copied _))) (memoryOk_update (copied _))) ok
    · exact memoryOk_ite (memoryOk_postEvent (memoryOk_finishPin (memoryOk_foldl (memoryOk_update ok) fun _ _ ht => memoryOk_raise ht))) ok

theorem memoryOk_repin {n} : ∀ {s : State}, s.memoryOk → (State.repin n s).memoryOk := by
  induction n with
  | zero => exact id
  | succ n ih =>
    intro s ok
    unfold repin
    refine memoryOk_ite ok ?_
    split
    · exact ok
    · exact memoryOk_ite (ih (memoryOk_beginPin (memoryOk_update ok))) ok

end Sys2Proof.Machine.State
end

section
/-! PROOF. HBM stays canonical: commands of the translation unit (the operations of `Machine/XltCmds`). -/

namespace Sys2Proof.Machine.State

variable {s : State}

theorem memoryOk_requestInv (ok : s.memoryOk) {pg scope asid page} : (s.requestInv pg scope asid page).memoryOk :=
  memoryOk_update (memoryOk_setReg ok _ _)

theorem memoryOk_invCtrlWrite (ok : s.memoryOk) {tile v} : (s.invCtrlWrite tile v).memoryOk :=
  memoryOk_ite (memoryOk_ite (memoryOk_setFld (memoryOk_setReg (memoryOk_ite (memoryOk_setFld ok) ok) _ _)) (memoryOk_requestInv (memoryOk_setReg
    (memoryOk_ite (memoryOk_setFld ok) ok) _ _))) (memoryOk_setReg (memoryOk_ite (memoryOk_setFld ok) ok) _ _)

theorem memoryOk_invCommand (ok : s.memoryOk) {e} : (s.invCommand e).memoryOk :=
  memoryOk_command ok fun _ ht => memoryOk_journalTick (memoryOk_requestInv ht)

theorem memoryOk_invDrop (ok : s.memoryOk) : s.invDrop.memoryOk := ok

theorem memoryOk_invEnd (ok : s.memoryOk) {i} : (s.invEnd i).memoryOk := memoryOk_raise (memoryOk_bump (memoryOk_setReg ok _ _) _ _ _)

theorem memoryOk_invEffect (ok : s.memoryOk) : s.invEffect.memoryOk :=
  memoryOk_finishDue (memoryOk_foldl (memoryOk_update (memoryOk_invDrop ok)) fun _ _ ht => memoryOk_invEnd ht)

theorem memoryOk_actOnGroup (ok : s.memoryOk) {tile group gen abort} : (s.actOnGroup tile group gen abort).2.memoryOk := by
  unfold actOnGroup
  split
  · exact memoryOk_snd_ite (memoryOk_update ok) (memoryOk_raise (memoryOk_setFld ok))
  · exact memoryOk_raise (memoryOk_setFld ok)

theorem memoryOk_resumeWrite (ok : s.memoryOk) {tile v} : (s.resumeWrite tile v).memoryOk :=
  memoryOk_ite (memoryOk_actOnGroup (memoryOk_setFld (memoryOk_ite (memoryOk_setFld ok) ok))) (memoryOk_setFld (memoryOk_ite (memoryOk_setFld ok) ok))

theorem memoryOk_resumeCommand (ok : s.memoryOk) {e} : (s.resumeCommand e).memoryOk :=
  memoryOk_command ok fun _ ht => memoryOk_ite (memoryOk_journalTick (memoryOk_actOnGroup ht)) (memoryOk_refuse (memoryOk_actOnGroup ht))

end Sys2Proof.Machine.State
end

section
/-! PROOF. HBM stays canonical: firmware's rings (the operations of `Machine/RingRegs`). -/

namespace Sys2Proof.Machine.State

variable {s : State}

theorem memoryOk_ringError (ok : s.memoryOk) {cfg} : (s.ringError cfg).memoryOk := memoryOk_raise (memoryOk_bump (memoryOk_setReg ok _ _) _ _ _)

theorem memoryOk_headWrite (ok : s.memoryOk) {i v} : (s.headWrite i v).memoryOk :=
  memoryOk_ite (memoryOk_ringError (memoryOk_shadow (memoryOk_setReg ok _ _))) (memoryOk_shadow (memoryOk_setReg ok _ _))

theorem memoryOk_tailWrite (ok : s.memoryOk) {r v} : (s.tailWrite r v).memoryOk :=
  memoryOk_ite (memoryOk_ringError (memoryOk_shadow (memoryOk_setReg ok _ _))) (memoryOk_shadow (memoryOk_setReg ok _ _))

theorem memoryOk_clearRing (ok : s.memoryOk) {r} : (s.clearRing r).memoryOk :=
  memoryOk_shadow (memoryOk_shadow (memoryOk_setReg (memoryOk_setReg ok _ _) _ _))

theorem memoryOk_cfgWrite (ok : s.memoryOk) {c v} : (s.cfgWrite c v).memoryOk := by
  have written := fun w => memoryOk_setReg ok c.off w
  unfold cfgWrite
  refine memoryOk_ite ?_ (written _)
  split
  · exact memoryOk_clearRing (memoryOk_shadow (memoryOk_shadow (memoryOk_setReg (memoryOk_setReg (written _) _ _) _ _)))
  · exact memoryOk_clearRing (written _)
  · exact memoryOk_clearRing (written _)
  · exact memoryOk_clearRing (written _)

theorem memoryOk_ringBase (ok : s.memoryOk) {b v} : (s.ringBase b v).memoryOk :=
  memoryOk_ite ok (memoryOk_ite (memoryOk_setReg ok _ _) (memoryOk_setFld ok))

theorem memoryOk_signalDue (ok : s.memoryOk) {r} : (s.signalDue r).memoryOk := memoryOk_ite (memoryOk_vecSignal (memoryOk_update ok)) ok

theorem memoryOk_postHeldEvents {n} : ∀ {s : State}, s.memoryOk → (State.postHeldEvents n s).memoryOk := by
  induction n with
  | zero => exact id
  | succ n ih =>
    intro s ok
    unfold postHeldEvents
    refine memoryOk_ite ok ?_
    split
    · exact ih (memoryOk_bump (memoryOk_ringPut (memoryOk_update ok)) _ _ _)
    · exact memoryOk_ite ok (memoryOk_bump (memoryOk_ringPut (memoryOk_update ok)) _ _ _)

theorem memoryOk_logWrite (ok : s.memoryOk) {r} : (s.logWrite r).memoryOk :=
  memoryOk_ite ok (memoryOk_ite (memoryOk_bump (memoryOk_update (memoryOk_ringPut (memoryOk_seeTime ok))) _ _ _) (memoryOk_raise (memoryOk_bump
    (memoryOk_update ok) _ _ _)))

theorem memoryOk_traceWrite (ok : s.memoryOk) {tp core a0 a1 a2} : (s.traceWrite tp core a0 a1 a2).memoryOk :=
  memoryOk_ite ok (memoryOk_ite (memoryOk_bump (memoryOk_update (memoryOk_ringPut (memoryOk_seeTime ok))) _ _ _) (memoryOk_raise (memoryOk_bump
    (memoryOk_update ok) _ _ _)))

theorem memoryOk_giveTask (ok : s.memoryOk) {t k} : (s.giveTask t k).memoryOk := by
  unfold giveTask
  refine memoryOk_ite ?_ ?_
  · refine memoryOk_setFld ?_
    refine memoryOk_setFld ?_
    split
    · exact memoryOk_setFld ok
    · exact ok
  · refine memoryOk_setFld ?_
    split
    · exact memoryOk_setFld ok
    · exact ok

theorem memoryOk_epoch (ok : s.memoryOk) : s.epoch.memoryOk :=
  memoryOk_ite (memoryOk_foldl ok fun _ _ ht => memoryOk_ite ht (memoryOk_giveTask ht)) ok

theorem memoryOk_lastCore (ok : s.memoryOk) : s.lastCore.memoryOk := memoryOk_ite (memoryOk_stopAdmission ok) ok

theorem memoryOk_watchdog (ok : s.memoryOk) {k} : (s.watchdog k).memoryOk := by
  unfold watchdog
  extract_lets wdt s1 recent fw s2 s3 s4 s5 s6 s7
  have noted : s2.memoryOk := memoryOk_update (memoryOk_setFld ok)
  have raised : s4.memoryOk := memoryOk_raise (memoryOk_bump (memoryOk_setFld noted) _ _ _)
  have again : s6.memoryOk := memoryOk_raise (memoryOk_setFld (memoryOk_setFld raised))
  have judged : s7.memoryOk := memoryOk_ite (memoryOk_postEvent again) (memoryOk_setFld (memoryOk_setFld raised))
  exact memoryOk_ite ok (memoryOk_lastCore judged)

theorem memoryOk_reassign (ok : s.memoryOk) : s.reassign.memoryOk := by
  unfold reassign
  refine memoryOk_ite ok ?_
  refine memoryOk_foldl (memoryOk_update ok) fun t x ht => ?_
  refine memoryOk_ite ?_ ?_
  · refine memoryOk_postEvent ?_
    refine memoryOk_foldl ht fun t x ht => ?_
    refine memoryOk_ite ?_ ht
    split
    · exact memoryOk_giveTask ht
    · exact ht
  · refine memoryOk_setFld ?_
    refine memoryOk_setFld ?_
    refine memoryOk_setFld ?_
    refine memoryOk_postEvent ?_
    refine memoryOk_foldl ht fun t x ht => ?_
    refine memoryOk_ite ?_ ht
    split
    · exact memoryOk_giveTask ht
    · exact ht

end Sys2Proof.Machine.State
end

section
/-! PROOF. HBM stays canonical: holding and releasing the host die (the operations of `Machine/HostOps`). -/

namespace Sys2Proof.Machine.State

variable {s : State}

theorem memoryOk_ringsOff (ok : s.memoryOk) : s.ringsOff.memoryOk := memoryOk_foldl ok fun _ _ ht => memoryOk_setFld ht

theorem memoryOk_holdHost (ok : s.memoryOk) : s.holdHost.memoryOk := memoryOk_update (memoryOk_setFld (memoryOk_setFld ok))

theorem memoryOk_releaseHost (ok : s.memoryOk) : s.releaseHost.memoryOk := by
  unfold releaseHost
  split
  · exact memoryOk_ite (memoryOk_setReg (memoryOk_setReg (memoryOk_setFld (memoryOk_writeWords (memoryOk_writeRegion ok _ _ _) _ _)) _ _) _ _) ok
  · exact ok

theorem memoryOk_endHostBulks (ok : s.memoryOk) : s.endHostBulks.memoryOk := memoryOk_discardParked (memoryOk_discardWhere ok)

theorem memoryOk_hostResetDue (ok : s.memoryOk) : s.hostResetDue.memoryOk := by
  unfold hostResetDue
  split
  · exact ok
  · extract_lets t u
    have held : t.memoryOk := memoryOk_ite (memoryOk_holdHost (memoryOk_ringsOff (memoryOk_endHostBulks ok))) ok
    exact memoryOk_ite (memoryOk_ite (memoryOk_releaseHost (memoryOk_update held)) (memoryOk_update held)) held

theorem memoryOk_beginHostReset (ok : s.memoryOk) {again} : (s.beginHostReset again).memoryOk := by
  unfold beginHostReset
  split
  · exact memoryOk_update ok
  · exact memoryOk_update ok

theorem memoryOk_showTenant (ok : s.memoryOk) {r fmcGen key} : (s.showTenant r fmcGen key).memoryOk := memoryOk_setReg (memoryOk_setReg ok _ _) _ _

theorem memoryOk_putTenant (ok : s.memoryOk) {f} : (s.putTenant f).memoryOk := ok

theorem memoryOk_showRecord (ok : s.memoryOk) {fmcGen} : (s.showRecord fmcGen).memoryOk := memoryOk_showTenant ok

theorem memoryOk_noteTransition (ok : s.memoryOk) : s.noteTransition.memoryOk := memoryOk_raise (memoryOk_update ok)

theorem memoryOk_endBusy (ok : s.memoryOk) : s.endBusy.memoryOk := by
  unfold endBusy
  split
  · exact ok
  · exact memoryOk_mgtAnswer (memoryOk_update ok)

theorem memoryOk_clearDue (ok : s.memoryOk) : s.clearDue.memoryOk := by
  unfold clearDue
  split
  · exact ok
  · exact memoryOk_ite ok (memoryOk_releaseHost (memoryOk_endBusy (memoryOk_noteTransition (memoryOk_showRecord (memoryOk_putTenant
      (memoryOk_update ok))))))

theorem memoryOk_showPurge (ok : s.memoryOk) : s.showPurge.memoryOk := by
  unfold showPurge
  split
  · exact memoryOk_ite (memoryOk_setFld ok) ok
  · exact ok

theorem memoryOk_showFeatures (ok : s.memoryOk) : s.showFeatures.memoryOk := memoryOk_ite ok (memoryOk_setFld ok)

end Sys2Proof.Machine.State
end

section
/-! PROOF. HBM stays canonical: the tick boundary, reports, shares and the period (the operations of `Machine/Ticks`). -/

namespace Sys2Proof.Machine.State

variable {s : State}

theorem memoryOk_sendDemand (ok : s.memoryOk) : s.sendDemand.memoryOk := ok

theorem memoryOk_sendShares (ok : s.memoryOk) {lost} : (s.sendShares lost).memoryOk := ok

theorem memoryOk_returnLeases (ok : s.memoryOk) : s.returnLeases.memoryOk := memoryOk_ite ok (memoryOk_foldl ok fun _ _ ht => memoryOk_bumpN ht)

theorem memoryOk_takeShares (ok : s.memoryOk) : s.takeShares.memoryOk := memoryOk_foldl ok fun _ _ ht => memoryOk_raise ht

theorem memoryOk_senseSample (ok : s.memoryOk) {env} : (s.senseSample env).memoryOk := by
  unfold senseSample
  extract_lets fine was s1 s2 s3 vp v0 mis v s4 s5 e s6
  have sensed : s2.memoryOk := memoryOk_setFld (memoryOk_setFld (memoryOk_setFld (memoryOk_setFld ok)))
  have judged : s3.memoryOk := memoryOk_ite (memoryOk_raise sensed) sensed
  have compared : s4.memoryOk := memoryOk_ite (memoryOk_raise judged) judged
  exact memoryOk_update (memoryOk_setFld (memoryOk_setFld compared))

theorem memoryOk_freeboard (ok : s.memoryOk) {ending} : (s.freeboard ending).memoryOk := by
  unfold freeboard
  extract_lets dmax ls D F h cbar G sh s1 s2 s3 s4 s5
  have granted : s1.memoryOk := memoryOk_foldl ok fun _ _ ht => memoryOk_setFld (memoryOk_setFld ht)
  have shown : s2.memoryOk := memoryOk_setReg (memoryOk_setFld (memoryOk_setFld granted)) _ _
  have counted : s3.memoryOk := memoryOk_ite (memoryOk_bump shown _ _ _) shown
  have raised : s4.memoryOk := memoryOk_ite (memoryOk_raise counted) counted
  exact memoryOk_ite ok (memoryOk_update (memoryOk_setFld raised))

theorem memoryOk_handPass {st target fs} : ∀ {free done} {s : State}, s.memoryOk → (State.handPass st target fs free done s).memoryOk := by
  induction fs with
  | nil => exact fun ok => ok
  | cons f r ih =>
    intro free done s ok
    unfold handPass
    exact memoryOk_ite ok (memoryOk_ite (ih (memoryOk_update ok)) (memoryOk_ite (ih (memoryOk_setFht (memoryOk_update ok)))
      (memoryOk_ite (ih (memoryOk_update ok)) (memoryOk_ite (ih (memoryOk_bump (memoryOk_freeFrame (memoryOk_update ok)) _ _ _)) (ih
        (memoryOk_update ok))))))

theorem memoryOk_evictStack (ok : s.memoryOk) {st} : (s.evictStack st).memoryOk := by
  unfold evictStack
  extract_lets target free t since u v
  have noted : u.memoryOk := memoryOk_ite (memoryOk_update ok) ok
  exact memoryOk_ite (memoryOk_update ok) (memoryOk_handPass (memoryOk_ite (memoryOk_raise noted) noted))

theorem memoryOk_clearCounters (ok : s.memoryOk) : s.clearCounters.memoryOk := memoryOk_foldl ok fun _ _ ht => memoryOk_setFld (memoryOk_update ht)

theorem memoryOk_countDepth (ok : s.memoryOk) {p vc} : (s.countDepth p vc).memoryOk :=
  memoryOk_setTel (memoryOk_snd_ite (memoryOk_drawNat ok) ok)

theorem memoryOk_countDepths (ok : s.memoryOk) : s.countDepths.memoryOk :=
  memoryOk_foldl ok fun _ _ ht => memoryOk_ite ht (memoryOk_foldl ht fun _ _ ht => memoryOk_countDepth ht)

theorem memoryOk_backlog (ok : s.memoryOk) : s.backlog.memoryOk := memoryOk_foldl ok fun _ _ ht => memoryOk_ite (memoryOk_raise ht) ht

theorem memoryOk_noteRates (ok : s.memoryOk) : s.noteRates.memoryOk := ok

theorem memoryOk_resetTick (ok : s.memoryOk) : s.resetTick.memoryOk := ok

theorem memoryOk_shiftCleaned (ok : s.memoryOk) : s.shiftCleaned.memoryOk := ok

theorem memoryOk_upsetLine (ok : s.memoryOk) {u} : (s.upsetLine u).memoryOk := by
  unfold upsetLine
  extract_lets m fw t1 tier t2 flips t3
  have mastered : t1.memoryOk := memoryOk_ite (memoryOk_update ok) ok
  have flipped : t3.memoryOk := memoryOk_foldl (memoryOk_update mastered) fun _ _ ht => memoryOk_wrB ht _ _
  exact memoryOk_setMeta flipped _ _

theorem memoryOk_upset (ok : s.memoryOk) {us} : (s.upset us).memoryOk := memoryOk_foldl ok fun _ _ ht => memoryOk_upsetLine ht

theorem memoryOk_rewriteTables (ok : s.memoryOk) : s.rewriteTables.memoryOk := by
  unfold rewriteTables
  refine memoryOk_foldl (memoryOk_update ok) fun t x ht => ?_
  split
  · exact memoryOk_update (memoryOk_writeLine ht _ _ _ _ _ _ _)
  · exact ht

theorem memoryOk_signalOwed (ok : s.memoryOk) : s.signalOwed.memoryOk := memoryOk_foldl ok fun _ _ ht => memoryOk_signalPage ht

theorem memoryOk_takeEnv (ok : s.memoryOk) {env} : (s.takeEnv env).memoryOk :=
  memoryOk_update (memoryOk_foldl (memoryOk_repeatLinkIds (memoryOk_countSymbols ok)) fun _ _ ht => memoryOk_markParity ht)

theorem memoryOk_freeDue (ok : s.memoryOk) : s.freeDue.memoryOk := memoryOk_foldl ok fun _ _ ht => memoryOk_freeBlock ht

theorem memoryOk_refuseWaiting (ok : s.memoryOk) : s.refuseWaiting.memoryOk := by
  unfold refuseWaiting
  refine memoryOk_ite ok ?_
  refine memoryOk_foldl (memoryOk_update ok) fun t x ht => ?_
  refine memoryOk_ite (memoryOk_answerArrival ht) ?_
  split
  · exact memoryOk_update ht
  · exact memoryOk_update ht

theorem memoryOk_resumeDue (ok : s.memoryOk) : s.resumeDue.memoryOk := memoryOk_ite (memoryOk_finishDue (memoryOk_openDevice (memoryOk_update ok))) ok

theorem memoryOk_resumeTables (ok : s.memoryOk) : s.resumeTables.memoryOk := memoryOk_foldl ok fun _ _ ht => memoryOk_runDeferred ht

theorem memoryOk_kick (ok : s.memoryOk) : s.kick.memoryOk := memoryOk_foldl ok fun _ _ ht => memoryOk_setFld ht

theorem memoryOk_showFree (ok : s.memoryOk) : s.showFree.memoryOk := memoryOk_setFld (memoryOk_setFld ok)

theorem memoryOk_showRepairs (ok : s.memoryOk) : s.showRepairs.memoryOk := memoryOk_foldl ok fun _ _ ht => memoryOk_setFld ht

theorem memoryOk_boundary (ok : s.memoryOk) {env} : (s.boundary env).memoryOk := by
  unfold boundary
  extract_lets ending s1 n tim s2 s3 s4 s5 s6 s7 s8 s9 s10 s11 s12
  have timed : s2.memoryOk := memoryOk_update (memoryOk_returnLeases ok)
  clear_value s2
  have sensed : s3.memoryOk := memoryOk_senseSample (memoryOk_takeEnv (memoryOk_upset timed))
  have shared : s4.memoryOk := memoryOk_takeShares (memoryOk_freeboard (memoryOk_shiftCleaned sensed))
  have flashed : s5.memoryOk := memoryOk_clearCounters (memoryOk_returnFreed (memoryOk_resetTick (memoryOk_countDepths (memoryOk_backlog
    (memoryOk_flashTurn shared)))))
  have shown : s6.memoryOk := memoryOk_foldl (memoryOk_signalOwed (memoryOk_rewriteTables flashed)) fun _ _ ht => memoryOk_showStored ht
  clear_value s6
  have evicted : s8.memoryOk := memoryOk_ite shown (memoryOk_foldl (memoryOk_foldl shown fun _ _ ht => memoryOk_evictStack ht) fun _ _ ht =>
    memoryOk_pinStep ht)
  have drained : s9.memoryOk := memoryOk_noteRates (memoryOk_hostResetDue (memoryOk_resumeDue (memoryOk_freeDue (memoryOk_setDrainTicks evicted))))
  have features : s10.memoryOk := memoryOk_showFeatures (memoryOk_showPurge (memoryOk_clearDue drained))
  clear_value s10
  have stopped : s11.memoryOk := by
    dsimp only [s11]
    split
    · exact memoryOk_ite (memoryOk_stopAdmission features) features
    · exact features
  clear_value s11
  have counted : s12.memoryOk := memoryOk_ite (memoryOk_bump stopped _ _ _) stopped
  have resumed := memoryOk_showFree (memoryOk_kick (memoryOk_resumeTables (memoryOk_chooseSource counted)))
  exact memoryOk_ite ok (memoryOk_releaseResponses (memoryOk_retryRecalls (memoryOk_refuseWaiting (memoryOk_retryIngress
    (memoryOk_showRepairs resumed)))))

theorem memoryOk_bookEbb (ok : s.memoryOk) {t} : (s.bookEbb t).memoryOk := by
  unfold bookEbb
  refine memoryOk_ite ok ?_
  refine memoryOk_bookPatrol ?_
  refine memoryOk_foldl (memoryOk_setReg (memoryOk_update ok) _ _) fun t x ht => ?_
  split
  · exact memoryOk_update ht
  · exact ht

theorem memoryOk_rescaleExtt (ok : s.memoryOk) {f x} : (s.rescaleExtt f x).memoryOk := memoryOk_foldl ok fun _ _ ht => memoryOk_putEntry ht

theorem memoryOk_rescaleFld (ok : s.memoryOk) {f o hi lo} : (s.rescaleFld f o hi lo).memoryOk := memoryOk_setFld ok

theorem memoryOk_rescaleAll (ok : s.memoryOk) {f} : (s.rescaleAll f).memoryOk :=
  memoryOk_rescaleFld (memoryOk_rescaleFld (memoryOk_rescaleFld (memoryOk_rescaleFld (memoryOk_foldl (memoryOk_update (memoryOk_update
    (memoryOk_foldl ok fun _ _ ht => memoryOk_rescaleExtt ht))) fun _ _ ht => memoryOk_rescaleFld ht))))

theorem memoryOk_applyPeriod (ok : s.memoryOk) : s.applyPeriod.memoryOk := by
  unfold applyPeriod
  split
  · exact ok
  · extract_lets passed old new s1 s2 timA s3 n s4 timB s5 timC tim' s6 s7 s8
    have stepped : s3.memoryOk := memoryOk_ite (memoryOk_update (memoryOk_setFld (memoryOk_stepTime ok))) ok
    clear_value s3
    have scaled : s4.memoryOk := memoryOk_ite stepped (memoryOk_rescaleAll stepped)
    have rated : s7.memoryOk := memoryOk_noteRates (memoryOk_update scaled)
    have opened : s8.memoryOk := memoryOk_ite (memoryOk_openAdmission rated) rated
    clear_value s8
    refine memoryOk_ite ok ?_
    split
    · exact memoryOk_finish opened
    · exact opened

end Sys2Proof.Machine.State
end

section
/-! PROOF. HBM stays canonical: the Ebb, rebuilds, repair, Dredge and patrol (the operations of `Machine/Tiering`). -/

namespace Sys2Proof.Machine.State

variable {s : State}

theorem memoryOk_needFrame (ok : s.memoryOk) {p} {s'} (e : s.needFrame p = some s') : s'.memoryOk := by
  unfold needFrame at e
  split at e
  · exact Option.some.inj e ▸ ok
  · exact memoryOk_giveFrame ok e

theorem memoryOk_fillSlot (ok : s.memoryOk) {st pc} : (s.fillSlot st pc).2.memoryOk := by
  unfold fillSlot
  refine memoryOk_snd_ite (memoryOk_useSlot ok) ?_
  refine memoryOk_snd_ite ?_ (memoryOk_spareSlot ok)
  exact memoryOk_snd_ite (memoryOk_useSlot ok) (memoryOk_drawBool ok)

theorem memoryOk_fetchWrite (ok : s.memoryOk) {refetch p l} : (s.fetchWrite refetch p l).2.memoryOk := by
  unfold fetchWrite
  split
  · exact ok
  · split
    · exact ok
    · extract_lets h put
      have written (t : State) (ht : t.memoryOk) : (put t).memoryOk :=
        memoryOk_ite (memoryOk_fillBoth ht) (memoryOk_bump (memoryOk_fillBoth ht) _ _ _)
      split
      · next heq => exact memoryOk_of_snd (memoryOk_fillSlot ok) heq
      · next heq =>
        have slot := memoryOk_of_snd (memoryOk_fillSlot ok) heq
        split
        · split
          · next heq => exact memoryOk_of_snd (memoryOk_fillSlot slot) heq
          · next heq => exact written _ (memoryOk_of_snd (memoryOk_fillSlot slot) heq)
        · exact written _ slot

theorem memoryOk_fetchLines (ok : s.memoryOk) {f ls} : (s.fetchLines f ls).memoryOk := by
  unfold fetchLines
  extract_lets o t
  have fetched : t.memoryOk := memoryOk_foldl_snd ok fun _ _ _ ht => memoryOk_fetchWrite ht
  clear_value t
  exact memoryOk_ite (memoryOk_update fetched) (memoryOk_update fetched)

theorem memoryOk_fetchDone (ok : s.memoryOk) {f} : (s.fetchDone f).memoryOk := by
  unfold fetchDone
  split
  · exact memoryOk_fetchLines ok
  · dsimp only
    split
    · exact ok
    · next t heq =>
        exact memoryOk_ite (memoryOk_bump (memoryOk_update (memoryOk_ite (memoryOk_bump ((memoryOk_needFrame ok heq)) _ _ _)
          ((memoryOk_needFrame ok heq)))) _ _ _) (memoryOk_ite (memoryOk_update (memoryOk_fillFails (memoryOk_ite (memoryOk_bump
          ((memoryOk_needFrame ok heq)) _ _ _) ((memoryOk_needFrame ok heq))))) (memoryOk_fetchLines (memoryOk_fillFails (memoryOk_ite (memoryOk_bump
          ((memoryOk_needFrame ok heq)) _ _ _) ((memoryOk_needFrame ok heq))))))

theorem memoryOk_backgroundFill (ok : s.memoryOk) {p g} : (s.backgroundFill p g).memoryOk :=
  memoryOk_ite ok (memoryOk_foldl ok fun _ _ ht => memoryOk_fetchDone ht)

theorem memoryOk_takeGroup (ok : s.memoryOk) {who p g} : (s.takeGroup who p g).2.2.2.memoryOk := by
  unfold takeGroup
  extract_lets c noCopy
  refine List.foldlRecOn (motive := fun (a : List Byte × BitVec 16 × List Nat × State) => a.2.2.2.memoryOk = true) _ _ ok fun a ha i _ => ?_
  extract_lets t l add
  split
  · split
    · exact ha
    · extract_lets r
      have read : r.2.2.memoryOk := memoryOk_readFor ha
      split
      · exact memoryOk_moveLine read
      · exact read
  · exact ha

theorem memoryOk_noteMerge (ok : s.memoryOk) {t p g} : (s.noteMerge t p g).memoryOk := by
  unfold noteMerge
  split
  · exact ok
  · exact memoryOk_ite ok (memoryOk_ite (memoryOk_bump (memoryOk_bump (memoryOk_bump ok _ _ _) _ _ _) _ _ _) (memoryOk_ite (memoryOk_sectorFail
    (memoryOk_bump (memoryOk_bump ok _ _ _) _ _ _)) (memoryOk_bump (memoryOk_bump ok _ _ _) _ _ _)))

theorem memoryOk_stage (ok : s.memoryOk) {c rs} : (s.stage c rs).memoryOk :=
  memoryOk_getD (memoryOk_update ok) fun _ e => memoryOk_stageSector ok e

theorem memoryOk_programAll (ok : s.memoryOk) {xs} : (s.programAll xs).memoryOk := memoryOk_foldl ok fun _ _ ht => memoryOk_stage ht

theorem memoryOk_ebbAdvance (ok : s.memoryOk) {t} : (s.ebbAdvance t).memoryOk := by
  unfold ebbAdvance
  extract_lets o
  have spent : o.2.memoryOk := memoryOk_foldl_snd ok fun _ _ _ ht => memoryOk_snd_ite (memoryOk_ebbSpend (memoryOk_ebbSpend ht)) ht
  exact memoryOk_update spent

theorem memoryOk_ebbTake (ok : s.memoryOk) {t c p g} : (s.ebbTake t c p g).memoryOk := by
  unfold ebbTake
  extract_lets +onlyGivenNames die merge s1 s2
  have slots : s2.memoryOk := by
    refine memoryOk_foldl (memoryOk_noteMerge ok) fun u i hu => ?_
    split
    · exact memoryOk_ite hu (memoryOk_useSlot hu)
    · exact hu
  clear_value s2
  have taken := memoryOk_takeGroup slots (who := .ebb) (p := p) (g := g)
  generalize s2.takeGroup .ebb p g = o at taken ⊢
  exact memoryOk_ebbAdvance (memoryOk_update taken)

theorem memoryOk_ebbClean (ok : s.memoryOk) {t} : (s.ebbClean t).memoryOk := by
  unfold ebbClean
  split
  · exact ok
  · extract_lets s1 tier s2
    have advanced : s2.memoryOk := memoryOk_update (memoryOk_ebbAdvance ok)
    clear_value s2
    split
    · exact advanced
    · split
      · exact memoryOk_ebbTake advanced
      · exact advanced

theorem memoryOk_programConfirm (ok : s.memoryOk) {t} : (s.programConfirm t).memoryOk :=
  memoryOk_programAll (memoryOk_foldl (memoryOk_foldl (memoryOk_update ok) fun _ _ ht => memoryOk_bump ht _ _ _) fun _ _ ht => memoryOk_bumpN ht)

theorem memoryOk_programFail (ok : s.memoryOk) {d erase} : (s.programFail d erase).memoryOk := by
  unfold programFail
  refine memoryOk_ite ok ?_
  dsimp only
  split
  · exact memoryOk_retireBlock (memoryOk_update (memoryOk_error ok))
  · exact memoryOk_retireBlock (memoryOk_error ok)

theorem memoryOk_sectorRebuild (ok : s.memoryOk) {p g secondFails} : (s.sectorRebuild p g secondFails).memoryOk := by
  unfold sectorRebuild
  dsimp only
  split
  · exact ok
  · refine memoryOk_ite ok ?_
    refine memoryOk_ite (memoryOk_bump ok _ _ _) ?_
    split
    · exact memoryOk_queueRebuild (memoryOk_ite ok (memoryOk_markBad (memoryOk_sectorFail ok)))
    · exact memoryOk_advanceRebuild ok

theorem memoryOk_relocate (ok : s.memoryOk) {p g} : (s.relocate p g).memoryOk := by
  unfold relocate
  refine memoryOk_ite ok ?_
  refine memoryOk_ite (memoryOk_bump ok _ _ _) ?_
  dsimp only
  split
  · exact ok
  · exact memoryOk_ebbAdvance (memoryOk_update (memoryOk_bump ok _ _ _))

theorem memoryOk_rewrite (ok : s.memoryOk) {r} : (s.rewrite r).memoryOk := memoryOk_update (memoryOk_writeLine ok _ _ _ _ _ _ _)

theorem memoryOk_repairRewrite (ok : s.memoryOk) {st pc} : (s.repairRewrite st pc).memoryOk := by
  unfold repairRewrite
  split
  · exact ok
  · have slot := memoryOk_spareSlot ok (st := st) (pc := pc)
    split
    next granted t heq =>
    have after := memoryOk_of_snd slot heq
    exact memoryOk_ite after (memoryOk_ite (memoryOk_update after) (memoryOk_rewrite (memoryOk_update after)))

theorem memoryOk_endLap (ok : s.memoryOk) {t flash} : (s.endLap t flash).memoryOk := by
  unfold endLap
  extract_lets keys o lk pct
  have shown (u : State) (n : Nat) (hu : u.memoryOk) : (pct u n).memoryOk := memoryOk_ite (memoryOk_setFld hu) (memoryOk_setFld hu)
  clear_value pct
  exact memoryOk_ite (shown _ _ (memoryOk_raise (memoryOk_update (memoryOk_setReg ok _ _)))) (shown _ _ ok)

theorem memoryOk_wrap (ok : s.memoryOk) {t k flash} : (s.wrap t k flash).memoryOk := memoryOk_endLap (memoryOk_update ok)

theorem memoryOk_dredgeFound (ok : s.memoryOk) {t ln} : (s.dredgeFound t ln).memoryOk := by
  unfold dredgeFound
  dsimp only
  split
  · exact memoryOk_bump (memoryOk_raise (memoryOk_bump ok _ _ _)) _ _ _
  · exact memoryOk_ite (memoryOk_bump (memoryOk_raise (memoryOk_bump ok _ _ _)) _ _ _) (memoryOk_raise (memoryOk_bump ok _ _ _))

theorem memoryOk_dredgeMirror (ok : s.memoryOk) {t h ln} : (s.dredgeMirror t h ln).memoryOk := by
  unfold dredgeMirror
  extract_lets l pl s1 bad s2
  have read : s1.memoryOk := memoryOk_bump ok _ _ _
  clear_value s1
  split
  · have noted : s2.memoryOk := memoryOk_ite (memoryOk_noteDirFail read) (memoryOk_noteCrcFail read)
    clear_value s2
    have slot {w : Bool} : (if w then (false, s2) else s2.spareSlot (stackOf pl) (s2.pcOf pl)).2.memoryOk :=
      memoryOk_snd_ite noted (memoryOk_spareSlot noted)
    split
    · next heq => exact memoryOk_dredgeFound (memoryOk_of_snd slot heq)
    · next heq =>
      have again := memoryOk_bump (memoryOk_of_snd slot heq) .hmc (stackOf pl) 0x100
      exact memoryOk_dredgeFound (memoryOk_ite again (memoryOk_queueRepair again _ _))
  · exact read

theorem memoryOk_dredgeDir (ok : s.memoryOk) {t h ln} : (s.dredgeDir t h ln).memoryOk := by
  have read := memoryOk_bump ok .hmc (stackOf ln) 0x100
  unfold dredgeDir
  extract_lets ml s1 s2 down lost
  have failed : s2.memoryOk := memoryOk_noteDirFail read
  have downOk : ∀ t : State, t.memoryOk → (down t).memoryOk := fun t ht => by
    dsimp only [down]
    split
    · exact memoryOk_detectDown ht
    · exact ht
  have lostOk : ∀ t : State, t.memoryOk → (lost t).memoryOk := fun t ht => downOk _ (memoryOk_dredgeFound (memoryOk_queueRepair ht _ _))
  clear_value down lost
  refine memoryOk_ite ?_ read
  refine memoryOk_ite ?_ (lostOk _ failed)
  have mirror := fun bad => memoryOk_tryMirror failed (who := .dredge) (ln := ln) (mln := ml) (bad := bad) (note := fun s => s.noteDirFail ml)
    fun _ ht => memoryOk_noteDirFail ht
  split
  · next heq =>
      exact memoryOk_ite (downOk _ (memoryOk_dredgeFound (memoryOk_of_snd (mirror _) heq))) (memoryOk_dredgeFound (memoryOk_of_snd (mirror _) heq))
  · next heq => exact lostOk _ (memoryOk_of_snd (mirror _) heq)
  · next heq => exact memoryOk_dredgeFound (memoryOk_of_snd (mirror _) heq)

theorem memoryOk_dredgeLine (ok : s.memoryOk) {t ln} : (s.dredgeLine t ln).memoryOk := by
  have read := memoryOk_bump ok .drg t 0x100
  unfold dredgeLine
  extract_lets s1 h bad s2 fmt bad' s3
  have region : s2.memoryOk := memoryOk_readRegionFor read
  have frame : s3.memoryOk := memoryOk_readFor read
  exact memoryOk_ite (memoryOk_ite (memoryOk_dredgeFound region) region)
    (memoryOk_ite (memoryOk_dredgeMirror read) (memoryOk_ite (memoryOk_dredgeDir read) (memoryOk_ite (memoryOk_dredgeFound frame) frame)))

theorem memoryOk_dredgeRead (ok : s.memoryOk) {st pc} : (s.dredgeRead st pc).memoryOk := by
  have slot := memoryOk_spareSlot ok (st := st) (pc := pc)
  unfold dredgeRead
  generalize s.spareSlot st pc = r at slot
  obtain ⟨granted, t⟩ := r
  refine memoryOk_ite ok (memoryOk_ite slot ?_)
  extract_lets k seek u
  have sought : ∀ v x, v.memoryOk → (seek v x).memoryOk := fun _ _ hv => memoryOk_setFld (memoryOk_dredgeLine (memoryOk_update hv))
  have wrapped : u.memoryOk := memoryOk_wrap slot
  cases t.dredgeNext st pc (sget (fun _ => 0) t.hmc.dredgePos k) with
  | some x => exact sought _ _ slot
  | none =>
    cases u.dredgeNext st pc 0 with
    | some x => exact sought _ _ wrapped
    | none => exact wrapped

theorem memoryOk_patrolFail (ok : s.memoryOk) {t d page i} : (s.patrolFail t d page i).memoryOk :=
  memoryOk_ite (memoryOk_raise (memoryOk_bump ok _ _ _)) (memoryOk_queueRebuild (memoryOk_markBad (memoryOk_sectorFail (memoryOk_raise
    (memoryOk_bump ok _ _ _)))))

theorem memoryOk_patrolShift (ok : s.memoryOk) {c} : (s.patrolShift c).memoryOk := memoryOk_update ok

theorem memoryOk_patrolRead (ok : s.memoryOk) {c bad} : (s.patrolRead c bad).memoryOk := by
  unfold patrolRead
  refine memoryOk_ite ok ?_
  dsimp only
  split
  · exact memoryOk_wrap ok
  · exact ok
  · exact memoryOk_ite ok (memoryOk_ite (memoryOk_patrolShift ok) (memoryOk_foldl (memoryOk_bumpN (memoryOk_bump (memoryOk_ite (memoryOk_wrap
    (memoryOk_update (memoryOk_patrolShift ok))) (memoryOk_setFld (memoryOk_update (memoryOk_patrolShift ok)))) _ _ _)) fun _ _ ht =>
    memoryOk_patrolFail ht))

theorem memoryOk_slowLap (ok : s.memoryOk) {t lk limitNs} : (s.slowLap t lk limitNs).memoryOk :=
  memoryOk_ite (memoryOk_raise (memoryOk_update ok)) ok

theorem memoryOk_lapSlow (ok : s.memoryOk) {t} : (s.lapSlow t).memoryOk := memoryOk_ite (memoryOk_slowLap (memoryOk_slowLap ok)) (memoryOk_slowLap ok)

theorem memoryOk_calProbe (ok : s.memoryOk) {st pc minusOk plusOk} : (s.calProbe st pc minusOk plusOk).memoryOk := by
  have probed {h} : ({ s with hmc := h } : State).memoryOk := memoryOk_update ok
  exact memoryOk_ite ok (memoryOk_ite probed (memoryOk_ite (memoryOk_bump (memoryOk_update ok) _ _ _)
    (memoryOk_ite (memoryOk_bump (memoryOk_update ok) _ _ _) (memoryOk_raise probed))))

end Sys2Proof.Machine.State
end

section
/-! PROOF. HBM stays canonical: power failure, the drain and the reset inputs (the operations of `Machine/Power`). -/

namespace Sys2Proof.Machine.State

variable {s : State}

theorem memoryOk_writeCharger (ok : s.memoryOk) : s.writeCharger.memoryOk := memoryOk_emit (memoryOk_emit ok)

theorem memoryOk_pmbusPoll (ok : s.memoryOk) {p} : (s.pmbusPoll p).memoryOk := by
  unfold pmbusPoll
  extract_lets recovered s1 rsv s2 low n rsv' s3 was rsv'' s4
  have answered : s2.memoryOk := memoryOk_setFld (memoryOk_update (memoryOk_setReg ok _ _))
  have failed : s3.memoryOk := memoryOk_bumpN (memoryOk_update ok)
  have lost : s4.memoryOk := memoryOk_setFld (memoryOk_update failed)
  exact memoryOk_ite ok (memoryOk_ite (memoryOk_ite (memoryOk_writeCharger answered) answered)
    (memoryOk_ite (memoryOk_ite (memoryOk_raise lost) lost) failed))

theorem memoryOk_capTestStart (ok : s.memoryOk) : s.capTestStart.memoryOk :=
  memoryOk_ite ok (memoryOk_emit (memoryOk_emit (memoryOk_setFld (memoryOk_update ok))))

theorem memoryOk_capTestDone (ok : s.memoryOk) {last} : (s.capTestDone last).memoryOk := by
  unfold capTestDone
  dsimp only
  split
  · exact memoryOk_ite (memoryOk_ite (memoryOk_raise (memoryOk_raise (memoryOk_emit (memoryOk_emit (memoryOk_bump (memoryOk_setFld (memoryOk_setFld
    (memoryOk_update ok))) _ _ _))))) (memoryOk_raise (memoryOk_emit (memoryOk_emit (memoryOk_bump (memoryOk_setFld (memoryOk_setFld
    (memoryOk_update ok))) _ _ _))))) ok
  · exact ok

theorem memoryOk_beginDrain (ok : s.memoryOk) {why cause noDrain quiet} : (s.beginDrain why cause noDrain quiet).memoryOk :=
  memoryOk_update (memoryOk_setFld (memoryOk_ite (memoryOk_stopAdmission ok) (memoryOk_allDomainsDown (memoryOk_discardAll ok))))

theorem memoryOk_powerStop (ok : s.memoryOk) : s.powerStop.memoryOk := by
  unfold powerStop
  refine memoryOk_ite ok ?_
  split
  · split
    · exact ok
    · exact memoryOk_update ok
  · exact memoryOk_ite (memoryOk_beginDrain ok) (memoryOk_ite (memoryOk_beginDrain ok) (memoryOk_beginDrain ok))

theorem memoryOk_powerFail (ok : s.memoryOk) : s.powerFail.memoryOk :=
  memoryOk_ite (memoryOk_powerStop (memoryOk_ite (memoryOk_raise (memoryOk_update ok)) (memoryOk_update ok))) (memoryOk_update ok)

theorem memoryOk_sendNotices (ok : s.memoryOk) : s.sendNotices.memoryOk := by
  unfold sendNotices
  refine memoryOk_foldl (memoryOk_update ok) fun t x ht => ?_
  split
  · exact memoryOk_sendCtrl ht
  · exact memoryOk_bump ht _ _ _

theorem memoryOk_stopPorts (ok : s.memoryOk) : s.stopPorts.memoryOk :=
  memoryOk_foldl (memoryOk_foldl ok fun _ _ ht => memoryOk_bumpN (memoryOk_setSched ht)) fun _ _ ht => memoryOk_ite ht (memoryOk_setFld
    (memoryOk_setLinkState (memoryOk_setCause ht)))

theorem memoryOk_dropWay (ok : s.memoryOk) {p g} : (s.dropWay p g).memoryOk := ok

theorem memoryOk_drainGroup (ok : s.memoryOk) {t p g} : (s.drainGroup t p g).2.memoryOk := by
  have taken := memoryOk_takeGroup (memoryOk_noteMerge (memoryOk_dropWay ok (p := p) (g := g)) (t := t) (p := p) (g := g)) (who := .drain)
    (p := p) (g := g)
  unfold drainGroup
  generalize State.takeGroup _ .drain p g = o at taken ⊢
  exact taken

theorem memoryOk_drainTake {t cs} : ∀ {left acc} {s : State}, s.memoryOk → (State.drainTake t cs left acc s).2.memoryOk := by
  induction cs with
  | nil => exact fun ok => ok
  | cons c r ih =>
    intro left acc s ok
    have drained := memoryOk_drainGroup ok (t := t) (p := c.1) (g := c.2)
    rw [drainTake.eq_def]
    cases left with
    | none => exact ih drained
    | some b =>
      dsimp only
      split
      · exact ih drained
      · exact ok

theorem memoryOk_drainTile (ok : s.memoryOk) {t left} : (s.drainTile t left).memoryOk :=
  memoryOk_foldl (memoryOk_drainTake ok) fun _ _ ht => memoryOk_stage (memoryOk_update ht)

theorem memoryOk_drainDone (ok : s.memoryOk) : s.drainDone.memoryOk := memoryOk_endReset (memoryOk_setFld (memoryOk_update ok))

theorem memoryOk_drainBegin (ok : s.memoryOk) : s.drainBegin.memoryOk := by
  unfold drainBegin
  split
  · exact ok
  · exact memoryOk_ite ok (memoryOk_ite (memoryOk_drainDone (memoryOk_ite (memoryOk_foldl (memoryOk_stopPorts ok) fun _ _ ht =>
    memoryOk_setFld ht) ok)) (memoryOk_foldl (memoryOk_update (memoryOk_ite (memoryOk_foldl (memoryOk_stopPorts ok) fun _ _ ht =>
    memoryOk_setFld ht) ok)) fun _ _ ht => memoryOk_programAll (memoryOk_update ht)))

theorem memoryOk_energyStop (ok : s.memoryOk) : s.energyStop.memoryOk := by
  unfold energyStop
  split
  · exact ok
  · exact memoryOk_ite ok (memoryOk_update (memoryOk_foldl ok fun _ _ ht => memoryOk_drainTile ht))

theorem memoryOk_putCheckpoint (ok : s.memoryOk) {closed lost} : (s.putCheckpoint closed lost).memoryOk := by
  unfold putCheckpoint
  dsimp only
  split
  · exact memoryOk_update ok
  · exact memoryOk_update ok

theorem memoryOk_closeDrain (ok : s.memoryOk) {d measured} : (s.closeDrain d measured).memoryOk := by
  unfold closeDrain
  extract_lets owned s1 s2 left lost ms s3
  have drained : s1.memoryOk := memoryOk_ite ok (memoryOk_foldl ok fun _ _ ht => memoryOk_drainTile ht)
  have filled : s2.memoryOk := memoryOk_foldl drained fun _ _ ht => memoryOk_fillStripes ht
  have put : s3.memoryOk := memoryOk_putCheckpoint filled
  clear_value s3
  exact memoryOk_bump (memoryOk_setReg (memoryOk_update put) _ _) _ _ _

theorem memoryOk_mainReset (_ : s.memoryOk) {warm} : (s.mainReset warm).memoryOk := rfl

theorem memoryOk_endPowerDrain (ok : s.memoryOk) : s.endPowerDrain.memoryOk :=
  memoryOk_ite (memoryOk_drainDone ok) (memoryOk_mainReset (memoryOk_drainDone ok))

theorem memoryOk_powerDeassert (ok : s.memoryOk) : s.powerDeassert.memoryOk := ok

theorem memoryOk_mainPgFall (ok : s.memoryOk) : s.mainPgFall.memoryOk := memoryOk_mainReset (memoryOk_update ok)

theorem memoryOk_coldRst (ok : s.memoryOk) {level} : (s.coldRst level).memoryOk := by
  unfold coldRst
  split
  · exact memoryOk_ite ok (memoryOk_update ok)
  · exact memoryOk_ite (memoryOk_update ok) (memoryOk_mainReset (memoryOk_update ok))

theorem memoryOk_auxRst (ok : s.memoryOk) {level strapTest strapAuxclk} : (s.auxRst level strapTest strapAuxclk).memoryOk :=
  memoryOk_ite ok (memoryOk_ite (memoryOk_update (memoryOk_update ok)) (memoryOk_ite ok (memoryOk_ite (memoryOk_showTenant (memoryOk_update
    (memoryOk_update ok))) (memoryOk_raise (memoryOk_showTenant (memoryOk_update (memoryOk_update ok)))))))

end Sys2Proof.Machine.State
end

section
/-! PROOF. HBM stays canonical: the host die's accesses and modules (the operations of `Machine/HostAttach`). -/

namespace Sys2Proof.Machine.State

variable {s : State}

theorem memoryOk_hostData (ok : s.memoryOk) {data poison} : (s.hostData data poison).memoryOk :=
  memoryOk_ite (memoryOk_bump (memoryOk_emit ok) _ _ _) (memoryOk_emit ok)

theorem memoryOk_serveRegion (ok : s.memoryOk) {op ctl p} : (s.serveRegion op ctl p).memoryOk := by
  unfold serveRegion
  split
  · exact memoryOk_hostData (memoryOk_readRegionLine ok)
  · exact memoryOk_ite (memoryOk_hostErr ok) (memoryOk_update (memoryOk_ite (memoryOk_writeTables ok) (memoryOk_writeRegion ok _ _ _)))

theorem memoryOk_servePool (ok : s.memoryOk) {op p l ln} : (s.servePool op p l ln).memoryOk := by
  unfold servePool
  refine memoryOk_ite (memoryOk_hostErr (memoryOk_keyFail ok)) ?_
  split
  · exact memoryOk_hostData (memoryOk_readLine ok)
  · exact memoryOk_update (memoryOk_writePool ok)

theorem memoryOk_hostSlots (ok : s.memoryOk) {op ln} {s'} (e : s.hostSlots op ln = some s') : s'.memoryOk := by
  unfold hostSlots at e
  extract_lets st pc at e
  split at e
  · exact Option.some.inj e ▸ memoryOk_foldl ok fun _ _ ht => memoryOk_useHost ht
  · cases e

theorem memoryOk_hostServe (ok : s.memoryOk) {op t} (e : s.hostServe op = some t) : t.memoryOk := by
  have err : ∀ {u}, some s.hostErr = some u → u.memoryOk := fun e => Option.some.inj e ▸ memoryOk_hostErr ok
  unfold hostServe at e
  extract_lets a at e
  split at e
  · exact err e
  · split at e
    · split at e
      · split at e
        · exact Option.some.inj e ▸ memoryOk_hostData (memoryOk_ite (memoryOk_seeTime ok) ok)
        · exact err e
      · exact err e
    · exact err e
  · split at e
    · exact err e
    · obtain ⟨u, hu, rfl⟩ := Option.map_eq_some_iff.1 e
      exact memoryOk_serveRegion (memoryOk_hostSlots ok hu)
  · split at e
    · exact err e
    · obtain ⟨u, hu, rfl⟩ := Option.map_eq_some_iff.1 e
      exact memoryOk_serveRegion (memoryOk_hostSlots ok hu)
  · extract_lets p l at e
    split at e
    · exact err e
    · split at e
      · split at e
        · obtain ⟨u, hu, rfl⟩ := Option.map_eq_some_iff.1 e
          exact memoryOk_servePool (memoryOk_hostSlots ok hu)
        · exact err e
      · exact err e

theorem memoryOk_queueHost (ok : s.memoryOk) {m op} : (s.queueHost m op).memoryOk := ok

theorem memoryOk_hostAccess (ok : s.memoryOk) {op} : (s.hostAccess op).memoryOk := by
  unfold hostAccess
  refine memoryOk_ite ok ?_
  refine memoryOk_ite (memoryOk_queueHost ok) ?_
  refine memoryOk_ite ok ?_
  refine memoryOk_ite (memoryOk_queueHost (memoryOk_ite (memoryOk_bump ok _ _ _) ok)) ?_
  split
  · next t heq =>
      exact (memoryOk_hostServe ok heq)
  · exact memoryOk_queueHost (memoryOk_bump ok _ _ _)

theorem memoryOk_hostDeferred (ok : s.memoryOk) {m} : (s.hostDeferred m).memoryOk := by
  unfold hostDeferred
  refine memoryOk_ite ok ?_
  split
  · exact ok
  · split
    · next t heq =>
        exact memoryOk_update ((memoryOk_hostServe ok heq))
    · exact ok

theorem memoryOk_moduleRetrain (ok : s.memoryOk) {m lanes} : (s.moduleRetrain m lanes).memoryOk :=
  memoryOk_ite ok (memoryOk_ite (memoryOk_raise (memoryOk_raise (memoryOk_bump (memoryOk_setReg ok _ _) _ _ _))) (memoryOk_raise (memoryOk_bump
    (memoryOk_setReg ok _ _) _ _ _)))

theorem memoryOk_moduleBack (ok : s.memoryOk) {m} : (s.moduleBack m).memoryOk :=
  memoryOk_ite ok (memoryOk_foldl (memoryOk_setFld ok) fun _ _ ht => memoryOk_hostDeferred ht)

theorem memoryOk_moduleDown (ok : s.memoryOk) {m} : (s.moduleDown m).memoryOk :=
  memoryOk_ite ok (memoryOk_beginHostReset (memoryOk_raise (memoryOk_setFld ok)))

theorem memoryOk_aliveWrite (ok : s.memoryOk) {v} : (s.aliveWrite v).memoryOk :=
  memoryOk_ite (memoryOk_setReg ok _ _) (memoryOk_raise (memoryOk_setFld (memoryOk_setReg ok _ _)))

theorem memoryOk_bootTimeout (ok : s.memoryOk) {waitedMs} : (s.bootTimeout waitedMs).memoryOk := memoryOk_ite (memoryOk_raise (memoryOk_setFld ok)) ok

theorem memoryOk_hostResetReq (ok : s.memoryOk) : s.hostResetReq.memoryOk := memoryOk_ite ok (memoryOk_beginHostReset (memoryOk_raise ok))

theorem memoryOk_unmask (ok : s.memoryOk) {v} : (s.unmask v).memoryOk :=
  memoryOk_ite (memoryOk_bump (memoryOk_emit (memoryOk_setFld (memoryOk_setFld ok))) _ _ _) (memoryOk_setFld ok)

theorem memoryOk_vecMaskWrite (ok : s.memoryOk) {j w} : (s.vecMaskWrite j w).memoryOk :=
  memoryOk_foldl (memoryOk_setReg ok _ _) fun _ _ ht => memoryOk_unmask ht

end Sys2Proof.Machine.State
end

section
/-! PROOF. HBM stays canonical: what a port receives and how it trains (the operations of `Machine/Links`). -/

namespace Sys2Proof.Machine.State

variable {s : State}

theorem memoryOk_takeBlock (ok : s.memoryOk) {p b k} (hk : ∀ t, t.memoryOk → (k t).memoryOk) : (s.takeBlock p b k).memoryOk :=
  memoryOk_ite ok (memoryOk_ite (memoryOk_bump ok _ _ _) (hk _ (memoryOk_bump ok _ _ _)))

theorem memoryOk_takeHeader (ok : s.memoryOk) {p b ns} : (s.takeHeader p b ns).memoryOk :=
  memoryOk_ite ok (memoryOk_ite (memoryOk_sendNak (memoryOk_takeAck ok)) (memoryOk_takeAck ok))

theorem memoryOk_dropPartial (ok : s.memoryOk) {p vc} : (s.dropPartial p vc).memoryOk := memoryOk_setLink ok

theorem memoryOk_feedBlock (ok : s.memoryOk) {p ns b} : (s.feedBlock p ns b).memoryOk :=
  memoryOk_ite (memoryOk_bump (memoryOk_ite (memoryOk_dropPartial (memoryOk_bump ok _ _ _)) ok) _ _ _) (memoryOk_ite (memoryOk_arrive
    (memoryOk_dropPartial (memoryOk_ite (memoryOk_dropPartial (memoryOk_bump ok _ _ _)) ok))) (memoryOk_setLink (memoryOk_dropPartial (memoryOk_ite
    (memoryOk_dropPartial (memoryOk_bump ok _ _ _)) ok))))

theorem memoryOk_feedHeld {p ns n} : ∀ {s : State}, s.memoryOk → (State.feedHeld p ns n s).memoryOk := by
  induction n with
  | zero => exact id
  | succ n ih =>
    intro s ok
    rw [feedHeld]
    split
    · exact ok
    · exact ih (memoryOk_feedBlock (memoryOk_setLink ok))

theorem memoryOk_forgetNaks (ok : s.memoryOk) {p} : (s.forgetNaks p).memoryOk := memoryOk_setLink ok

theorem memoryOk_dataBlock (ok : s.memoryOk) {p b ns} : (s.dataBlock p b ns).memoryOk :=
  memoryOk_ite ok (memoryOk_updateXoff (memoryOk_ite (memoryOk_forgetNaks (memoryOk_feedHeld (memoryOk_feedBlock (memoryOk_setLink
    (memoryOk_takeAck ok))))) (memoryOk_ite (memoryOk_sendNak (memoryOk_ite (memoryOk_takeAck ok) (memoryOk_setLink (memoryOk_takeAck ok))))
    (memoryOk_bump (memoryOk_takeAck ok) _ _ _))))

theorem memoryOk_nakBlock (ok : s.memoryOk) {p b ns} : (s.nakBlock p b ns).memoryOk :=
  memoryOk_ite ok (memoryOk_replayAll (memoryOk_bump (memoryOk_takeHeader ok) _ _ _))

theorem memoryOk_replayTimeout (ok : s.memoryOk) {p ns} : (s.replayTimeout p ns).memoryOk := by
  unfold replayTimeout
  refine memoryOk_ite ok ?_
  split
  · exact ok
  · exact memoryOk_ite (memoryOk_replayAll ok) ok

theorem memoryOk_measure (ok : s.memoryOk) {p} : (s.measure p).memoryOk :=
  memoryOk_ite ok (memoryOk_checkInit (memoryOk_sendCtl (memoryOk_setLink (memoryOk_setReg (memoryOk_setReg ok _ _) _ _))))

theorem memoryOk_linkId (ok : s.memoryOk) {p b} : (s.linkId p b).memoryOk := by
  unfold linkId
  extract_lets w eid o s1 s2 l first c vc s3 s4
  have told : s1.memoryOk := memoryOk_setFld (memoryOk_setFld ok)
  have seen : s3.memoryOk := memoryOk_setLink (memoryOk_repeatLinkId told)
  have probed : s4.memoryOk := memoryOk_ite (memoryOk_foldl seen fun _ _ ht => memoryOk_sendCtl (memoryOk_update ht)) seen
  exact memoryOk_ite ok (memoryOk_ite (memoryOk_raise (memoryOk_enterDown told)) (memoryOk_ite (memoryOk_enterDown told) (memoryOk_measure probed)))

theorem memoryOk_rttProbe (ok : s.memoryOk) {p b} : (s.rttProbe p b).memoryOk := memoryOk_ite (memoryOk_sendCtl ok) ok

theorem memoryOk_rttReply (ok : s.memoryOk) {p b ns} : (s.rttReply p b ns).memoryOk :=
  memoryOk_ite ok (memoryOk_ite ok (memoryOk_measure (memoryOk_setLink ok)))

theorem memoryOk_initDone (ok : s.memoryOk) {p b} : (s.initDone p b).memoryOk := memoryOk_ite ok (memoryOk_checkInit (memoryOk_setLink ok))

theorem memoryOk_setPeerLanes (ok : s.memoryOk) {p b} : (s.setPeerLanes p b).memoryOk := memoryOk_setLink ok

theorem memoryOk_retrainReq (ok : s.memoryOk) {p b} : (s.retrainReq p b).memoryOk :=
  memoryOk_ite (memoryOk_setPeerLanes (memoryOk_enterRetrain (memoryOk_sendCtl ok))) (memoryOk_ite (memoryOk_ite (memoryOk_setPeerLanes
    (memoryOk_endAnnounce ok)) (memoryOk_setLink (memoryOk_setPeerLanes (memoryOk_bump (memoryOk_setCause (memoryOk_sendSlots (memoryOk_sendSlots
    (memoryOk_drawNat ok)))) _ _ _)))) ok)

theorem memoryOk_followed (ok : s.memoryOk) {p b} : (s.followed p b).memoryOk :=
  memoryOk_ite (memoryOk_setLink (memoryOk_setPeerLanes (memoryOk_endAnnounce ok))) ok

theorem memoryOk_trainDone (ok : s.memoryOk) {p mine peer} : (s.trainDone p mine peer).memoryOk := by
  unfold trainDone
  refine memoryOk_ite ok ?_
  dsimp only
  split
  · exact memoryOk_ite (memoryOk_enterDown (memoryOk_endAnnounce ok)) (memoryOk_enterInit (memoryOk_setLink (memoryOk_endAnnounce ok)))
  · exact memoryOk_enterDown (memoryOk_endAnnounce ok)

theorem memoryOk_trainTimeout (ok : s.memoryOk) {p us} : (s.trainTimeout p us).memoryOk :=
  memoryOk_ite (memoryOk_enterDown ok) (memoryOk_ite (memoryOk_enterDown ok) ok)

theorem memoryOk_laneErr (ok : s.memoryOk) {p lane} : (s.laneErr p lane).memoryOk := memoryOk_ite (memoryOk_enterRetrain ok) ok

theorem memoryOk_lockLost (ok : s.memoryOk) {p} : (s.lockLost p).memoryOk := memoryOk_ite (memoryOk_enterRetrain (memoryOk_drawBool ok)) ok

theorem memoryOk_probationEnd (ok : s.memoryOk) {p} : (s.probationEnd p).memoryOk := by
  unfold probationEnd
  extract_lets l
  split
  · exact memoryOk_ite (memoryOk_setFld (memoryOk_setLink ok)) ok
  · exact ok

theorem memoryOk_trainRetry (ok : s.memoryOk) {p} : (s.trainRetry p).memoryOk := memoryOk_ite (memoryOk_enterTrain ok) ok

theorem memoryOk_leaveDisabled (ok : s.memoryOk) {p} : (s.leaveDisabled p).memoryOk :=
  memoryOk_ite (memoryOk_linkChange (memoryOk_raise (memoryOk_bump (memoryOk_setLinkState ok) _ _ _))) ok

theorem memoryOk_lnkCtrlWrite (ok : s.memoryOk) {p v} : (s.lnkCtrlWrite p v).memoryOk := by
  unfold lnkCtrlWrite
  extract_lets o s1 s2 s3 s4
  have stored : s1.memoryOk := memoryOk_setReg ok _ _
  have disabled : s2.memoryOk := memoryOk_ite (memoryOk_ite stored (memoryOk_enterDisabled stored)) (memoryOk_leaveDisabled stored)
  have down : s3.memoryOk := memoryOk_ite (memoryOk_enterDown disabled) disabled
  have retrained : s4.memoryOk := memoryOk_ite (memoryOk_setFld (memoryOk_enterRetrain down)) down
  exact memoryOk_ite (memoryOk_enterTrain retrained) retrained

theorem memoryOk_takeCtl (ok : s.memoryOk) {p b code ns k} (hk : ∀ t, t.memoryOk → (k t).memoryOk) : (s.takeCtl p b code ns k).memoryOk :=
  memoryOk_ite (memoryOk_takeBlock ok fun _ ht => hk _ (memoryOk_takeHeader ht)) ok

end Sys2Proof.Machine.State
end

section
/-! PROOF. HBM stays canonical: register writes (the operations of `Machine/Registers`). -/

namespace Sys2Proof.Machine.State

variable {s : State}

theorem memoryOk_evtClear (ok : s.memoryOk) {b i v} : (s.evtClear b i v).memoryOk :=
  memoryOk_ite (memoryOk_signalPage (memoryOk_setReg ok _ _)) (memoryOk_setReg ok _ _)

theorem memoryOk_evtForce (ok : s.memoryOk) {b i v} : (s.evtForce b i v).memoryOk := memoryOk_foldl ok fun _ _ ht => memoryOk_raise ht

theorem memoryOk_errClear (ok : s.memoryOk) {b i v} : (s.errClear b i v).memoryOk :=
  memoryOk_ite (memoryOk_foldl ok fun _ _ ht => memoryOk_setReg ht _ _) ok

theorem memoryOk_cntWrite (ok : s.memoryOk) {b i v} : (s.cntWrite b i v).memoryOk := memoryOk_setReg ok _ _

theorem memoryOk_commonWrite (ok : s.memoryOk) {by' b i o v t} (e : s.commonWrite by' b i o v = some t) : t.memoryOk := by
  unfold commonWrite at e
  split at e
  · exact Option.some.inj e ▸ memoryOk_evtClear ok
  · split at e
    · cases e
    · exact Option.some.inj e ▸ memoryOk_setReg ok _ _
  · exact Option.some.inj e ▸ memoryOk_evtForce ok
  · dsimp only at e
    split at e
    · exact Option.some.inj e ▸ memoryOk_setReg ok _ _
    · exact Option.some.inj e ▸ memoryOk_setReg ok _ _
  · exact Option.some.inj e ▸ memoryOk_errClear ok
  · exact Option.some.inj e ▸ memoryOk_cntWrite ok
  · split at e
    · cases e
    · exact Option.some.inj e ▸ ok
  · exact Option.some.inj e ▸ ok

theorem memoryOk_admitWrite (ok : s.memoryOk) {i v} : (s.admitWrite i v).memoryOk :=
  memoryOk_ite (memoryOk_ite (memoryOk_update (memoryOk_setReg ok _ _)) (memoryOk_setReg ok _ _)) (memoryOk_raise (memoryOk_ite (memoryOk_update
    (memoryOk_setReg ok _ _)) (memoryOk_setReg ok _ _)))

theorem memoryOk_hostCtrlWrite (ok : s.memoryOk) {v} : (s.hostCtrlWrite v).memoryOk :=
  memoryOk_ite (memoryOk_ite (memoryOk_setFld ok) (memoryOk_holdHost (memoryOk_setFld ok))) (memoryOk_ite (memoryOk_setReg (memoryOk_setReg
    (memoryOk_setFld (memoryOk_setFld ok)) _ _) _ _) (memoryOk_setFld ok))

theorem memoryOk_ownWrite (ok : s.memoryOk) {pg o a v} {s'} (e : s.ownWrite pg o a v = some s') : s'.memoryOk := by
  unfold ownWrite at e
  split at e
  · split at e
    · exact Option.some.inj e ▸ memoryOk_hostCtrlWrite ok
    · split at e
      · exact Option.some.inj e ▸ memoryOk_aliveWrite ok
      · split at e
        · exact Option.some.inj e ▸ memoryOk_vecMaskWrite ok
        · cases e
  · split at e
    next heq =>
    have drawn := memoryOk_of_snd (memoryOk_drawNat ok) heq
    split at e
    · exact Option.some.inj e ▸ memoryOk_ctrlWrite drawn
    · exact Option.some.inj e ▸ memoryOk_baseWrite drawn
    · exact Option.some.inj e ▸ memoryOk_baseWrite drawn
    · cases e
  case h_3 | h_4 =>
    split at e
    · exact Option.some.inj e ▸ memoryOk_cfgWrite ok
    · exact Option.some.inj e ▸ memoryOk_ringBase ok
    · exact Option.some.inj e ▸ memoryOk_tailWrite ok
    · exact Option.some.inj e ▸ memoryOk_headWrite ok
    · cases e
  · split at e
    · exact Option.some.inj e ▸ memoryOk_admitWrite ok
    · cases e
  · split at e
    · exact Option.some.inj e ▸ memoryOk_invCtrlWrite ok
    · split at e
      · exact Option.some.inj e ▸ memoryOk_resumeWrite ok
      · cases e
  · split at e
    · exact Option.some.inj e ▸ memoryOk_lnkCtrlWrite ok
    · cases e
  · cases e

theorem memoryOk_regWrite (ok : s.memoryOk) {by' a size v} : (s.regWrite by' a size v).2.memoryOk := by
  unfold regWrite
  split
  · exact ok
  · split
    · exact ok
    · dsimp only
      refine memoryOk_snd_ite ok (memoryOk_snd_ite ok ?_)
      split
      · split
        · next heq => exact memoryOk_commonWrite ok heq
        · exact ok
      · split
        · split
          · exact memoryOk_setSel ok
          · exact ok
        · split
          · exact ok
          · split
            · exact ok
            · refine memoryOk_snd_ite ?_ ok
              split
              · next heq => exact memoryOk_ownWrite ok heq
              · exact memoryOk_setReg ok _ _

theorem memoryOk_pageWrite (ok : s.memoryOk) {by' page k} (hk : ∀ b i, (k b i).memoryOk) : (s.pageWrite by' page k).memoryOk := by
  unfold pageWrite
  split
  · exact memoryOk_respond ok
  · exact memoryOk_ite (memoryOk_respond ok) (memoryOk_ite (memoryOk_respond ok) (memoryOk_respond (hk _ _)))

end Sys2Proof.Machine.State
end

section
/-! PROOF. HBM stays canonical: extents as firmware makes and ends them (the operations of `Machine/ExtOps`). -/

namespace Sys2Proof.Machine.State

variable {s : State}

theorem memoryOk_addParcels (ok : s.memoryOk) {x key base mask start lo hi} : (s.addParcels x key base mask start lo hi).memoryOk :=
  memoryOk_foldl ok fun _ _ ht => memoryOk_setPmap (memoryOk_setPkt (memoryOk_takeParcel ht))

theorem memoryOk_zeroParcels (ok : s.memoryOk) {base fmt assured lo hi} : (s.zeroParcels base fmt assured lo hi).memoryOk :=
  memoryOk_foldl ok fun _ _ ht => memoryOk_pinZero ht

theorem memoryOk_dirFrameOn (ok : s.memoryOk) {st assured} : (s.dirFrameOn st assured).2.memoryOk := by
  have take : ∀ (t : State) (st : Nat), t.memoryOk → (t.takeFrame st).2.memoryOk := fun _ _ ht => memoryOk_takeFrame ht
  rw [dirFrameOn]
  generalize State.takeFrame = tf at take
  have first := take s st ok
  split
  · next heq => exact memoryOk_of_snd first heq
  · next f t heq =>
    have zeroed := memoryOk_zeroFrame (memoryOk_setFht (memoryOk_of_snd first heq) (f := f)
      (v := { st := .pinned, assured := assured, dirFrame := true })) f 0 false none
    extract_lets base u
    split
    · have second := take u (mirrorStack st) zeroed
      split
      · next heq => exact memoryOk_of_snd second heq
      · next heq => exact memoryOk_zeroFrame (memoryOk_setFht (memoryOk_setFht (memoryOk_of_snd second heq))) _ _ _ _
    · exact zeroed

theorem memoryOk_addDirs (ok : s.memoryOk) {mask start dirBase lo hi assured} : (s.addDirs mask start dirBase lo hi assured).memoryOk :=
  memoryOk_foldl ok fun _ _ ht => memoryOk_foldl_snd ht fun _ _ _ hu => memoryOk_writeRegion (memoryOk_snd_ite (memoryOk_dirFrameOn hu) hu) _ _ _

theorem memoryOk_growMap (ok : s.memoryOk) {old n k} : (s.growMap old n k).2.memoryOk :=
  memoryOk_update (memoryOk_writeRegion (memoryOk_placeBlock ok) _ _ _)

theorem memoryOk_refuseOpen (ok : s.memoryOk) {op e} : (s.refuseOpen op e).memoryOk := memoryOk_refuse (memoryOk_update ok)

theorem memoryOk_extCommand (ok : s.memoryOk) {op e wf feature tenant k} (hk : ∀ d t, t.memoryOk → (k d t).memoryOk) :
    (s.extCommand op e wf feature tenant k).memoryOk :=
  memoryOk_command ok fun _ ht => memoryOk_ite (memoryOk_endNow ht) (memoryOk_ite (memoryOk_endNow ht) (hk _ _ ht))

theorem memoryOk_beginZero (ok : s.memoryOk) {e x base d} : (s.beginZero e x base d).memoryOk :=
  memoryOk_journal (memoryOk_update (memoryOk_foldl ok fun _ _ ht => memoryOk_getD ht fun _ e => memoryOk_giveFrame ht e))

theorem memoryOk_extCreate (ok : s.memoryOk) {e} : (s.extCreate e).memoryOk := by
  refine memoryOk_command ok fun t ht => ?_
  extract_lets x p d b d' u c v w
  have started : p.2.memoryOk := by
    dsimp only [p]
    split
    · exact ht
    · exact memoryOk_startStack ht
  have listed : u.memoryOk := memoryOk_addParcels (memoryOk_putBoth (memoryOk_placeBlock started))
  have withDirs : w.memoryOk := memoryOk_putBoth (memoryOk_addDirs (memoryOk_placeBlock listed))
  exact memoryOk_ite (memoryOk_endNow ht) (memoryOk_ite (memoryOk_refuse ht) (memoryOk_ite (memoryOk_refuse ht) (memoryOk_ite
    (memoryOk_beginZero listed)
    (memoryOk_ite (memoryOk_beginPin (memoryOk_journal withDirs)) (memoryOk_endNow (memoryOk_putBoth listed))))))

theorem memoryOk_extGrow (ok : s.memoryOk) {e x d n} : (s.extGrow e x d n).memoryOk := by
  unfold extGrow
  extract_lets old zero key m s1 s2 dirBase c s3 d'
  split
  · exact memoryOk_refuse ok
  · have mapped : s1.memoryOk := memoryOk_addParcels (memoryOk_snd_ite ok (memoryOk_growMap ok))
    have zeroed : s2.memoryOk := memoryOk_ite (memoryOk_zeroParcels mapped) mapped
    have moved : c.2.memoryOk := memoryOk_snd_ite zeroed (memoryOk_growMap zeroed)
    have placed : s3.memoryOk := memoryOk_ite (memoryOk_addDirs moved) moved
    exact memoryOk_journalTick (memoryOk_changeExtt placed)

theorem memoryOk_extShrink (ok : s.memoryOk) {e x d n} : (s.extShrink e x d n).memoryOk :=
  memoryOk_journalTick (memoryOk_update (memoryOk_changeExtt ok))

theorem memoryOk_extResize (ok : s.memoryOk) {e} : (s.extResize e).memoryOk :=
  memoryOk_extCommand ok fun _ _ ht => memoryOk_ite (memoryOk_refuseOpen ht) (memoryOk_ite (memoryOk_extGrow ht)
    (memoryOk_ite (memoryOk_refuse ht) (memoryOk_extShrink ht)))

theorem memoryOk_extPin (ok : s.memoryOk) {e} : (s.extPin e).memoryOk :=
  memoryOk_extCommand ok fun _ _ ht => memoryOk_ite (memoryOk_journal ht) (memoryOk_ite (memoryOk_refuse ht)
    (memoryOk_beginPin (memoryOk_journal (memoryOk_update ht))))

theorem memoryOk_extUnpin (ok : s.memoryOk) {e} : (s.extUnpin e).memoryOk :=
  memoryOk_extCommand ok fun _ _ ht => memoryOk_ite (memoryOk_refuse ht) (memoryOk_ite (memoryOk_refuseOpen ht) (memoryOk_ite (memoryOk_refuse ht)
    (memoryOk_journalTick (memoryOk_update (memoryOk_changeExtt ht)))))

theorem memoryOk_extRevoke (ok : s.memoryOk) {e} : (s.extRevoke e).memoryOk :=
  memoryOk_extCommand ok fun _ _ ht => memoryOk_ite (memoryOk_refuse ht) (memoryOk_journalTick (memoryOk_update (memoryOk_changeExtt ht)))

theorem memoryOk_freeExtent (ok : s.memoryOk) {x} : (s.freeExtent x).memoryOk := memoryOk_update (memoryOk_freeTail (memoryOk_freeDirs ok))

theorem memoryOk_extDestroy (ok : s.memoryOk) {e} : (s.extDestroy e).memoryOk := by
  refine memoryOk_command ok fun t ht => memoryOk_ite (memoryOk_endNow ht) (memoryOk_ite (memoryOk_refuse ht) (memoryOk_ite
    (memoryOk_journalTick (memoryOk_changeExtt (memoryOk_freeExtent ht))) ?_))
  split
  · split
    · exact memoryOk_refuse ht
    · exact memoryOk_refuseOpen ht
  · exact memoryOk_refuse ht

theorem memoryOk_extUpdateSet (ok : s.memoryOk) {e} : (s.extUpdateSet e).memoryOk :=
  memoryOk_extCommand ok fun _ _ ht => memoryOk_ite (memoryOk_endNow ht)
    (memoryOk_journalTick (memoryOk_ite (memoryOk_changeExtt (memoryOk_changeExtt ht)) (memoryOk_changeExtt ht)))

end Sys2Proof.Machine.State
end

section
/-! PROOF. HBM stays canonical: compute resets and tile faults (the operations of `Machine/Resets`). -/

namespace Sys2Proof.Machine.State

variable {s : State}

theorem memoryOk_seedCores (ok : s.memoryOk) {drawn} : (s.seedCores drawn).memoryOk := ok

theorem memoryOk_applyVariant (ok : s.memoryOk) : s.applyVariant.memoryOk :=
  memoryOk_ite ok (memoryOk_foldl (memoryOk_setReg ok _ _) fun _ _ ht => memoryOk_ite (memoryOk_setFld (memoryOk_enterDisabled ht)) (memoryOk_ite
    (memoryOk_enterTrain (memoryOk_leaveDisabled (memoryOk_setFld ht))) ht))

theorem memoryOk_startReset (ok : s.memoryOk) {c tile third} : (s.startReset c tile third).memoryOk := by
  unfold startReset
  split
  · exact memoryOk_ite ok (memoryOk_update ok)
  · exact memoryOk_update ok

theorem memoryOk_resetStop (ok : s.memoryOk) : s.resetStop.memoryOk := by
  unfold resetStop
  split
  · exact ok
  · exact memoryOk_ite ok (memoryOk_raise (memoryOk_bump (memoryOk_setReg (memoryOk_allDomainsDown (memoryOk_discardAll
    (memoryOk_update ok))) _ _) _ _ _))

theorem memoryOk_zeroUnits (ok : s.memoryOk) {a n} : (s.zeroUnits a n).memoryOk := by
  refine memoryOk_foldl ok fun t i ht => ?_
  split
  · exact memoryOk_filter ht _ _ rfl rfl
  · exact ht

theorem memoryOk_clearFaultQueues (ok : s.memoryOk) : s.clearFaultQueues.memoryOk :=
  memoryOk_foldl ok fun _ _ ht => memoryOk_setReg (memoryOk_setReg (memoryOk_zeroUnits ht) _ _) _ _

theorem memoryOk_resetAssert (ok : s.memoryOk) : s.resetAssert.memoryOk := by
  unfold resetAssert
  split
  · exact ok
  · exact memoryOk_ite ok (memoryOk_clearFaultQueues (memoryOk_update (memoryOk_refuseWaiting (memoryOk_update ok))))

theorem memoryOk_firmwareRestart (ok : s.memoryOk) {drawn} : (s.firmwareRestart drawn).memoryOk := by
  unfold firmwareRestart
  split
  · exact ok
  · exact memoryOk_ite ok (memoryOk_applyVariant (memoryOk_seedCores (memoryOk_update ok)))

theorem memoryOk_finishReset (ok : s.memoryOk) {status} : (s.finishReset status).memoryOk := memoryOk_foldl ok fun _ _ ht => memoryOk_finish ht

theorem memoryOk_resetFails (ok : s.memoryOk) : s.resetFails.memoryOk :=
  memoryOk_endReset (memoryOk_finishReset (memoryOk_stopAdmission (memoryOk_update ok)))

theorem memoryOk_coldRestart (ok : s.memoryOk) {quiet} : (s.coldRestart quiet).memoryOk :=
  memoryOk_ite ok (memoryOk_ite (memoryOk_beginDrain ok) (memoryOk_mainReset ok))

theorem memoryOk_engineCheck (ok : s.memoryOk) {failed} : (s.engineCheck failed).memoryOk := by
  unfold engineCheck
  split
  · exact ok
  · exact memoryOk_ite ok (memoryOk_ite (memoryOk_resetFails (memoryOk_setFld (memoryOk_setFld ok))) (memoryOk_ite (memoryOk_coldRestart
    (memoryOk_resetFails (memoryOk_foldl (memoryOk_error ok) fun _ _ ht => memoryOk_postEvent (memoryOk_raise ht)))) (memoryOk_finishReset
    (memoryOk_ite (memoryOk_openDevice (memoryOk_raise (memoryOk_setFld (memoryOk_update ok)))) (memoryOk_raise (memoryOk_setFld
    (memoryOk_update ok)))))))

theorem memoryOk_unreadStack (ok : s.memoryOk) {d st} : (s.unreadStack d st).memoryOk :=
  memoryOk_update (memoryOk_foldl_snd ok fun _ _ _ ht => memoryOk_drawBool ht)

theorem memoryOk_tileFault (ok : s.memoryOk) {block tile inst cycle} : (s.tileFault block tile inst cycle).memoryOk := by
  unfold tileFault
  split
  · exact ok
  · refine memoryOk_ite ok ?_
    dsimp only
    split
    · exact memoryOk_ite (memoryOk_unreadStack (memoryOk_setReg (memoryOk_error (memoryOk_update (memoryOk_capture ok _ _ _))) _ _)) (memoryOk_setReg
      (memoryOk_error (memoryOk_update (memoryOk_capture ok _ _ _))) _ _)
    · exact memoryOk_startReset (memoryOk_setReg (memoryOk_error (memoryOk_update (memoryOk_capture ok _ _ _))) _ _)

theorem memoryOk_storeTemps (ok : s.memoryOk) {x} : (s.storeTemps x).memoryOk :=
  memoryOk_foldl (memoryOk_setReg (memoryOk_foldl (memoryOk_foldl (memoryOk_setReg ok _ _) fun _ _ ht => memoryOk_setReg ht _ _) fun _ _ ht =>
    memoryOk_setReg ht _ _) _ _) fun _ _ ht => memoryOk_setFld ht

theorem memoryOk_noteLevel (ok : s.memoryOk) : s.noteLevel.memoryOk := ok

theorem memoryOk_thmCount (ok : s.memoryOk) {c k n} : (s.thmCount c k n).memoryOk := memoryOk_ite ok (memoryOk_raise (memoryOk_bumpN ok))

theorem memoryOk_thermalSample (ok : s.memoryOk) {x} : (s.thermalSample x).memoryOk :=
  memoryOk_ite ok (memoryOk_ite (memoryOk_thmCount (memoryOk_thmCount (memoryOk_thmCount (memoryOk_noteLevel (memoryOk_setReg
    (memoryOk_storeTemps ok) _ _))))) (memoryOk_raise (memoryOk_thmCount (memoryOk_thmCount (memoryOk_thmCount (memoryOk_noteLevel (memoryOk_setReg
    (memoryOk_storeTemps ok) _ _)))))))

theorem memoryOk_thermalTrip (ok : s.memoryOk) : s.thermalTrip.memoryOk := memoryOk_ite (memoryOk_ite ok (memoryOk_powerStop ok)) ok

end Sys2Proof.Machine.State
end

section
/-! PROOF. HBM stays canonical: start-up and restoring the pool (the operations of `Machine/Startup`). -/

namespace Sys2Proof.Machine.State

variable {s : State}

theorem memoryOk_bootRom (ok : s.memoryOk) : (s.bootRom).2.memoryOk := by
  unfold bootRom
  split
  · exact ok
  · split
    · exact ok
    · exact memoryOk_setReg (memoryOk_setReg ok _ _) _ _

theorem memoryOk_bootSlot (ok : s.memoryOk) : (s.bootSlot).2.memoryOk := by
  unfold bootSlot
  split
  · exact ok
  · dsimp only
    split
    · exact memoryOk_ite ok (memoryOk_ite (memoryOk_writeDir ok) (memoryOk_writeDir ok))
    · split
      · exact memoryOk_ite ok (memoryOk_ite (memoryOk_writeDir ok) (memoryOk_writeDir ok))
      · exact memoryOk_setReg (memoryOk_update (memoryOk_ite ok (memoryOk_ite (memoryOk_writeDir ok) (memoryOk_writeDir ok)))) _ _

theorem memoryOk_bindCores (ok : s.memoryOk) {r} : (s.bindCores r).memoryOk :=
  memoryOk_foldl ok fun _ _ ht => memoryOk_foldl ht fun _ _ ht => memoryOk_setReg ht _ _

theorem memoryOk_takeImage (ok : s.memoryOk) {o mask img} : (s.takeImage o mask img).memoryOk := memoryOk_setReg ok _ _

theorem memoryOk_takeConfig (ok : s.memoryOk) : s.takeConfig.memoryOk := by
  unfold takeConfig
  dsimp only
  split
  · exact memoryOk_setReg (memoryOk_update ok) _ _
  · exact memoryOk_takeImage (memoryOk_takeImage (memoryOk_takeImage (memoryOk_takeImage (memoryOk_foldl (memoryOk_setReg (memoryOk_update ok) _ _)
    fun _ _ ht => memoryOk_setFld ht))))

theorem memoryOk_enableEvents (ok : s.memoryOk) : s.enableEvents.memoryOk := by
  unfold enableEvents
  refine memoryOk_foldl ok fun t x ht => ?_
  split
  · exact memoryOk_ite ht (memoryOk_setReg ht _ _)
  · exact ht

theorem memoryOk_takeDrainEnergy (ok : s.memoryOk) : s.takeDrainEnergy.memoryOk := memoryOk_ite ok ok

theorem memoryOk_bootReservoir (ok : s.memoryOk) {rated} : (s.bootReservoir rated).memoryOk :=
  memoryOk_setFld (memoryOk_setReg (memoryOk_setFld (memoryOk_setFld (memoryOk_update (memoryOk_takeDrainEnergy ok)))) _ _)

theorem memoryOk_bootConfigure (ok : s.memoryOk) {env} : (s.bootConfigure env).2.memoryOk := by
  unfold bootConfigure
  split
  · exact ok
  · extract_lets s1 s2 retired bridge
    have licensed : s1.memoryOk := memoryOk_showLicence (memoryOk_takeConfig (memoryOk_bindCores ok))
    have seeded : s2.memoryOk := memoryOk_seedCores (memoryOk_enableEvents (memoryOk_bootReservoir licensed))
    clear_value s2
    exact memoryOk_update (memoryOk_update seeded)

theorem memoryOk_bootBist (ok : s.memoryOk) {env} : (s.bootBist env).2.memoryOk := by
  unfold bootBist
  split
  · exact ok
  · refine memoryOk_snd_ite ok ?_
    exact memoryOk_setReg (memoryOk_foldl ok fun _ _ ht => memoryOk_error ht) _ _

theorem memoryOk_putTraining (ok : s.memoryOk) {r} : (s.putTraining r).memoryOk := ok

theorem memoryOk_useTraining (ok : s.memoryOk) {st source lanes repairs trained now} :
    (s.useTraining st source lanes repairs trained now).memoryOk := memoryOk_setReg (memoryOk_update ok) _ _

theorem memoryOk_trainStack (ok : s.memoryOk) {env warm st} : (s.trainStack env warm st).2.memoryOk := by
  unfold trainStack
  extract_lets temp used keep
  have kept (t : State) (u : List (Nat × Nat)) (ht : t.memoryOk) : (keep t u).memoryOk := memoryOk_update ht
  clear_value keep
  split
  · exact kept _ _ (memoryOk_useTraining ok)
  · have trained {source lanes repairs now then' u} := kept _ u (memoryOk_useTraining ok (st := st) (source := source) (lanes := lanes)
      (repairs := repairs) (trained := now) (now := then'))
    exact memoryOk_snd_ite (memoryOk_capture ok _ _ _) (memoryOk_putTraining (memoryOk_ite trained (memoryOk_raise trained)))

theorem memoryOk_applyRowRepairs (ok : s.memoryOk) : s.applyRowRepairs.memoryOk := ok

theorem memoryOk_bootTrain (ok : s.memoryOk) {env warm} : (s.bootTrain env warm).2.memoryOk :=
  memoryOk_foldl_snd (memoryOk_applyRowRepairs ok) fun _ _ _ ht => memoryOk_trainStack ht

theorem memoryOk_bootMemTest (ok : s.memoryOk) {env} : (s.bootMemTest env).2.memoryOk :=
  memoryOk_foldl_snd ok fun _ _ _ ht => memoryOk_snd_ite (memoryOk_update ht) ht

theorem memoryOk_placeBases (ok : s.memoryOk) {os n align} : (s.placeBases os n align).memoryOk :=
  memoryOk_foldl (memoryOk_placeBlock ok) fun _ _ ht => memoryOk_setReg ht _ _

theorem memoryOk_bootLayout (ok : s.memoryOk) : (s.bootLayout).2.memoryOk := by
  unfold bootLayout
  extract_lets s1 tiles s2 s3 s4 s5 s6 j src fw s7 frames all s8 s9
  have tables : s1.memoryOk := memoryOk_foldl ok fun _ _ ht => memoryOk_placeBases (memoryOk_placeBases ht)
  have bases : s5.memoryOk := memoryOk_placeBases (memoryOk_placeBases (memoryOk_placeBases (memoryOk_placeBases tables)))
  have caches : s6.memoryOk := memoryOk_foldl bases fun _ _ ht => memoryOk_placeBases ht
  have journal : s7.memoryOk := memoryOk_update (memoryOk_placeBlock caches)
  have counted : s9.memoryOk := memoryOk_setFld (memoryOk_showParcels (memoryOk_setReg journal _ _))
  exact memoryOk_foldl counted fun _ _ ht => memoryOk_setReg ht _ _

theorem memoryOk_mountFlash (ok : s.memoryOk) : s.mountFlash.memoryOk :=
  memoryOk_foldl (memoryOk_update ok) fun _ _ ht =>
    memoryOk_setReg (memoryOk_drawNat (memoryOk_drawNat (memoryOk_setReg (memoryOk_showSpares (memoryOk_setReg ht _ _)) _ _))) _ _

theorem memoryOk_emptyPool (ok : s.memoryOk) : s.emptyPool.memoryOk := memoryOk_foldl ok fun _ _ ht => memoryOk_raise ht

theorem memoryOk_restoreExtent (ok : s.memoryOk) {c} : (s.restoreExtent c).memoryOk := by
  unfold restoreExtent
  extract_lets x e b s1 e' d r s2 tier
  have parcels : s1.memoryOk := memoryOk_foldl (memoryOk_placeBlock ok) fun _ _ ht => memoryOk_update (memoryOk_putBoth (memoryOk_setPmap ht))
  have dirs : r.2.memoryOk := memoryOk_snd_ite (memoryOk_addDirs (memoryOk_placeBlock parcels)) parcels
  have restored : s2.memoryOk := memoryOk_putBoth dirs
  exact memoryOk_ite (memoryOk_update restored) restored

theorem memoryOk_restorePool (ok : s.memoryOk) {c} : (s.restorePool c).memoryOk :=
  memoryOk_update (memoryOk_foldl (memoryOk_foldl (memoryOk_foldl ok fun _ _ ht => memoryOk_putBoth ht) fun _ _ ht => memoryOk_restoreExtent ht)
    fun _ _ ht => memoryOk_raise (memoryOk_setFgroup ht))

theorem memoryOk_bootPool (ok : s.memoryOk) : s.bootPool.memoryOk := by
  unfold bootPool
  split
  · exact memoryOk_ite (memoryOk_restorePool ok) (memoryOk_emptyPool ok)
  · exact memoryOk_emptyPool ok

theorem memoryOk_zeroizeKey (ok : s.memoryOk) : s.zeroizeKey.memoryOk := memoryOk_showRecord (memoryOk_putTenant (memoryOk_update ok))

theorem memoryOk_bootTenant (ok : s.memoryOk) {env} : (s.bootTenant env).2.memoryOk := by
  unfold bootTenant
  dsimp only
  split
  · exact memoryOk_showRecord (memoryOk_putTenant (memoryOk_update ok))
  · refine memoryOk_snd_ite (memoryOk_showRecord ok) ?_
    exact memoryOk_snd_ite (memoryOk_showRecord (memoryOk_update ok)) (memoryOk_capture (memoryOk_update ok) _ _ _)
  · exact memoryOk_zeroizeKey (memoryOk_showRecord (memoryOk_update ok))
  · exact memoryOk_showRecord ok

theorem memoryOk_bootMount (ok : s.memoryOk) {env} : (s.bootMount env).2.memoryOk :=
  memoryOk_snd_ite (memoryOk_bootTenant ok) (memoryOk_bootPool (memoryOk_mountFlash (memoryOk_bootTenant ok)))

theorem memoryOk_bootModules (ok : s.memoryOk) {env} : (s.bootModules env).2.memoryOk := by
  refine memoryOk_foldl_snd ok fun b t m ht => ?_
  have raised := memoryOk_ite (c := env.ucieFail.any (fun f => decide (f.1.val = m ∧ f.2.2 ≠ 0)) = true) (memoryOk_raise ht (b := .uci) (i := 0)
    (k := 2)) ht
  exact memoryOk_snd_ite raised (memoryOk_setReg raised _ _)

theorem memoryOk_bootPorts (ok : s.memoryOk) : s.bootPorts.memoryOk :=
  memoryOk_foldl ok fun _ _ ht => memoryOk_ite (memoryOk_setFld ht) (memoryOk_ite (memoryOk_setFld ht) (memoryOk_enterTrain (memoryOk_leaveDisabled
    (memoryOk_setFld ht))))

theorem memoryOk_bootLinks (ok : s.memoryOk) {env} : (s.bootLinks env).2.memoryOk :=
  memoryOk_snd_ite (memoryOk_bootModules ok) (memoryOk_bootPorts (memoryOk_bootModules ok))

theorem memoryOk_bootHost (ok : s.memoryOk) {env} : (s.bootHost env).2.memoryOk := by
  unfold bootHost
  refine memoryOk_snd_ite ok ?_
  exact memoryOk_snd_ite (memoryOk_releaseHost ok) ok

theorem memoryOk_bootStep {n f a} (ok : a.2.memoryOk) (hf : ∀ t, t.memoryOk → (f t).2.memoryOk) : (bootStep n f a).2.memoryOk := by
  unfold bootStep
  split
  · exact ok
  · extract_lets r
    have run : r.2.memoryOk := hf _ ok
    split
    · exact run
    · exact memoryOk_setFld run

theorem memoryOk_startStops (ok : s.memoryOk) {code} : (s.startStops code).memoryOk :=
  memoryOk_endReset (memoryOk_foldl (memoryOk_ite (memoryOk_update (memoryOk_holdHost (memoryOk_setFld ok))) (memoryOk_holdHost (memoryOk_setFld ok)))
    fun _ _ ht => memoryOk_ite (memoryOk_setFld ht) (memoryOk_enterDisabled (memoryOk_setFld ht)))

theorem memoryOk_runStart (ok : s.memoryOk) {env warm} : (s.runStart env warm).memoryOk := by
  unfold runStart
  extract_lets s0 skip a1 a2 a3 a4 a5 a6 a7 a8 a9 a10
  have skipOk : ∀ t : State, t.memoryOk → (skip t).2.memoryOk := fun _ ht => ht
  have pick : ∀ {f : State → Nat × State}, (∀ t, t.memoryOk → (f t).2.memoryOk) → ∀ t, t.memoryOk → ((if warm then skip else f) t).2.memoryOk := by
    intro f hf
    split
    · exact skipOk
    · exact hf
  have h1 : a1.2.memoryOk := memoryOk_bootStep (memoryOk_setReg ok _ _) fun _ ht => memoryOk_bootRom ht
  have h2 : a2.2.memoryOk := memoryOk_bootStep h1 fun _ ht => memoryOk_bootSlot ht
  have h3 : a3.2.memoryOk := memoryOk_bootStep h2 fun _ ht => memoryOk_bootConfigure ht
  have h4 : a4.2.memoryOk := memoryOk_bootStep h3 (pick fun _ ht => memoryOk_bootBist ht)
  have h5 : a5.2.memoryOk := memoryOk_bootStep h4 fun _ ht => memoryOk_bootTrain ht
  have h6 : a6.2.memoryOk := memoryOk_bootStep h5 (pick fun _ ht => memoryOk_bootMemTest ht)
  have h7 : a7.2.memoryOk := memoryOk_bootStep h6 fun _ ht => memoryOk_bootLayout ht
  have h8 : a8.2.memoryOk := memoryOk_bootStep h7 fun _ ht => memoryOk_bootMount ht
  have h9 : a9.2.memoryOk := memoryOk_bootStep h8 fun _ ht => memoryOk_bootLinks ht
  have h10 : a10.2.memoryOk := memoryOk_bootStep h9 fun _ ht => memoryOk_bootHost ht
  exact memoryOk_ite (memoryOk_startStops h10) (memoryOk_update h10)

theorem memoryOk_coldStart (ok : s.memoryOk) {env} : (s.coldStart env).memoryOk := memoryOk_ite (memoryOk_runStart ok) ok

theorem memoryOk_warmStart (ok : s.memoryOk) {env} : (s.warmStart env).memoryOk := memoryOk_runStart (memoryOk_mainReset (memoryOk_update ok))

theorem memoryOk_checkpointWrite (ok : s.memoryOk) {measured} : (s.checkpointWrite measured).memoryOk := by
  unfold checkpointWrite
  split
  · exact ok
  · next d _ =>
    split
    · exact ok
    · have closed := memoryOk_closeDrain ok (d := d) (measured := measured)
      dsimp only
      split
      · exact memoryOk_endPowerDrain closed
      · exact memoryOk_finishAll (memoryOk_setFld (memoryOk_update closed))
      · split
        · exact memoryOk_warmStart closed
        · exact memoryOk_mainReset closed
      · exact memoryOk_mainReset closed

theorem memoryOk_endTimeWait (ok : s.memoryOk) {waitedMs} : (s.endTimeWait waitedMs).memoryOk := by
  unfold endTimeWait
  extract_lets was s1 s2 s3 tim s4 s5
  have late : s1.memoryOk := memoryOk_setFld ok
  have waited : s2.memoryOk := memoryOk_ite ok (memoryOk_updateStratum (memoryOk_ite late (memoryOk_raise late)))
  have stepped : s4.memoryOk := memoryOk_update (memoryOk_setFld waited)
  have saved : s5.memoryOk := memoryOk_ite (memoryOk_putCheckpoint stepped) stepped
  exact memoryOk_ite (memoryOk_openDevice saved) ok

end Sys2Proof.Machine.State
end

section
/-! PROOF. HBM stays canonical: the management port (the operations of `Machine/Mgmt`). -/

namespace Sys2Proof.Machine.State

variable {s : State}

theorem memoryOk_mgtOp (ok : s.memoryOk) {op id changes bare k} (hk : ∀ t, t.memoryOk → (k t).memoryOk) : (s.mgtOp op id changes bare k).memoryOk :=
  memoryOk_ite ok (memoryOk_ite (memoryOk_mgtAnswer ok) (memoryOk_ite (memoryOk_mgtAnswer ok) (hk _ ok)))

theorem memoryOk_getState (ok : s.memoryOk) {id} : (s.getState id).memoryOk := memoryOk_mgtOp ok fun _ ht => memoryOk_mgtAnswer ht

theorem memoryOk_assignTenant (ok : s.memoryOk) {id body} : (s.assignTenant id body).memoryOk :=
  memoryOk_mgtOp ok fun _ ht => memoryOk_ite (memoryOk_mgtAnswer ht) (memoryOk_ite (memoryOk_mgtAnswer ht) (memoryOk_ite (memoryOk_mgtAnswer ht)
    (memoryOk_ite (memoryOk_mgtAnswer ht) (memoryOk_ite (memoryOk_mgtAnswer ht) (memoryOk_noteTransition (memoryOk_update (memoryOk_showRecord
      (memoryOk_putTenant ht))))))))

theorem memoryOk_assignDone (ok : s.memoryOk) : s.assignDone.memoryOk := by
  unfold assignDone
  split
  · exact ok
  · exact memoryOk_ite ok (memoryOk_endBusy (memoryOk_bump (memoryOk_noteTransition (memoryOk_showRecord (memoryOk_putTenant
      (memoryOk_update ok)))) _ _ _))

theorem memoryOk_releaseTenant (ok : s.memoryOk) {id} : (s.releaseTenant id).memoryOk :=
  memoryOk_mgtOp ok fun _ ht => memoryOk_ite (memoryOk_mgtAnswer ht) (memoryOk_ite (memoryOk_mgtAnswer ht) (memoryOk_ite (memoryOk_mgtAnswer ht)
    (memoryOk_noteTransition (memoryOk_update (memoryOk_setReg (memoryOk_showRecord (memoryOk_putTenant ht)) _ _)))))

theorem memoryOk_releaseStop (ok : s.memoryOk) : s.releaseStop.memoryOk := by
  unfold releaseStop
  split
  · exact ok
  · exact memoryOk_ite ok (memoryOk_showRecord (memoryOk_putTenant (memoryOk_ite ok (memoryOk_discardAll ok))))

theorem memoryOk_purge (ok : s.memoryOk) : s.purge.memoryOk := memoryOk_filter ok _ _ rfl rfl

theorem memoryOk_purgeBegin (ok : s.memoryOk) : s.purgeBegin.memoryOk := by
  unfold purgeBegin
  split
  · exact ok
  · exact memoryOk_ite ok (memoryOk_refuseWaiting (memoryOk_update (memoryOk_setFld (memoryOk_clearFaultQueues (memoryOk_purge (memoryOk_holdHost
      (memoryOk_zeroizeKey ok)))))))

theorem memoryOk_purgeDone (ok : s.memoryOk) : s.purgeDone.memoryOk := by
  unfold purgeDone
  split
  · exact ok
  · exact memoryOk_ite ok (memoryOk_ite (memoryOk_openDevice (memoryOk_endBusy (memoryOk_bump (memoryOk_raise (memoryOk_noteTransition
    (memoryOk_setFld (memoryOk_showRecord (memoryOk_putTenant (memoryOk_update (memoryOk_setFld ok))))))) _ _ _))) (memoryOk_endBusy (memoryOk_bump
    (memoryOk_raise (memoryOk_noteTransition (memoryOk_setFld (memoryOk_showRecord (memoryOk_putTenant (memoryOk_update
    (memoryOk_setFld ok))))))) _ _ _)))

theorem memoryOk_clearTenant (ok : s.memoryOk) {id} : (s.clearTenant id).memoryOk :=
  memoryOk_mgtOp ok fun _ ht => memoryOk_ite (memoryOk_mgtAnswer ht) (memoryOk_ite (memoryOk_mgtAnswer ht) (memoryOk_update ht))

theorem memoryOk_showPending (ok : s.memoryOk) : s.showPending.memoryOk :=
  memoryOk_ite (memoryOk_setFld (memoryOk_setFld (memoryOk_setFld ok))) (memoryOk_ite (memoryOk_setFld (memoryOk_setFld (memoryOk_setFld ok)))
    (memoryOk_raise (memoryOk_setFld (memoryOk_setFld (memoryOk_setFld ok)))))

theorem memoryOk_licRefused (ok : s.memoryOk) {id r} : (s.licRefused id r).memoryOk := memoryOk_mgtAnswer (memoryOk_raise (memoryOk_bump ok _ _ _))

theorem memoryOk_licInstall (ok : s.memoryOk) {id l} : (s.licInstall id l).memoryOk := by
  have stored : ∀ (t : State) {a}, t.memoryOk → ((({ t with boot := a }.showPending.bump .lic 0 0x100).raise .lic 0 0).mgtAnswer 0x10 id mOk []).memoryOk :=
    fun _ _ ht => memoryOk_mgtAnswer (memoryOk_raise (memoryOk_bump (memoryOk_showPending (memoryOk_update ht)) _ _ _))
  refine memoryOk_mgtOp ok fun t ht => memoryOk_ite (memoryOk_licRefused ht) (memoryOk_ite (memoryOk_licRefused ht) (memoryOk_ite
    (memoryOk_mgtAnswer ht) ?_))
  extract_lets ls
  split
  · exact stored _ ht
  · exact memoryOk_ite (memoryOk_licRefused ht) (stored _ ht)

theorem memoryOk_licRemove (ok : s.memoryOk) {id seq} : (s.licRemove id seq).memoryOk := by
  refine memoryOk_mgtOp ok fun t ht => ?_
  extract_lets ls hit
  split
  · exact memoryOk_mgtAnswer ht
  · exact memoryOk_ite (memoryOk_mgtAnswer ht) (memoryOk_mgtAnswer (memoryOk_raise (memoryOk_bump (memoryOk_showPending (memoryOk_update ht)) _ _ _)))

theorem memoryOk_stageImage (ok : s.memoryOk) {id img} : (s.stageImage id img).memoryOk :=
  memoryOk_mgtOp ok fun _ ht => memoryOk_ite (memoryOk_mgtAnswer ht) (memoryOk_mgtAnswer (memoryOk_writeDir (memoryOk_update ht)))

theorem memoryOk_trialImage (ok : s.memoryOk) {id left} : (s.trialImage id left).memoryOk :=
  memoryOk_mgtOp ok fun _ ht => memoryOk_ite (memoryOk_mgtAnswer ht) (memoryOk_ite (memoryOk_mgtAnswer ht) (memoryOk_mgtAnswer
    (memoryOk_writeDir ht)))

theorem memoryOk_installRecord (ok : s.memoryOk) {id r} : (s.installRecord id r).memoryOk := by
  refine memoryOk_mgtOp ok fun t ht => memoryOk_ite (memoryOk_mgtAnswer ht) (memoryOk_ite (memoryOk_mgtAnswer ht) ?_)
  split
  · exact memoryOk_ite (memoryOk_mgtAnswer (memoryOk_update ht)) (memoryOk_mgtAnswer ht)
  · exact memoryOk_mgtAnswer (memoryOk_update ht)

theorem memoryOk_writeConfig (ok : s.memoryOk) {id c} : (s.writeConfig id c).memoryOk :=
  memoryOk_mgtOp ok fun _ ht => memoryOk_ite (memoryOk_mgtAnswer ht) (memoryOk_mgtAnswer (memoryOk_update ht))

theorem memoryOk_resetOp (ok : s.memoryOk) {id k} (hk : ∀ t, t.memoryOk → (k t).memoryOk) : (s.resetOp id k).memoryOk :=
  memoryOk_mgtOp ok fun _ ht => memoryOk_ite (memoryOk_mgtAnswer ht) (memoryOk_ite (memoryOk_mgtAnswer ht) (memoryOk_ite (memoryOk_mgtAnswer ht)
    (hk _ (memoryOk_update ht))))

theorem memoryOk_resetCompute (ok : s.memoryOk) {id} : (s.resetCompute id).memoryOk :=
  memoryOk_resetOp ok fun _ ht => memoryOk_ite (memoryOk_endReset ht) (memoryOk_startReset ht)

theorem memoryOk_resetWarm (ok : s.memoryOk) {id env} : (s.resetWarm id env).memoryOk :=
  memoryOk_resetOp ok fun _ ht => memoryOk_ite (memoryOk_endReset ht) (memoryOk_ite (memoryOk_beginDrain (memoryOk_update ht))
    (memoryOk_warmStart ht))

theorem memoryOk_resetCold (ok : s.memoryOk) {id} : (s.resetCold id).memoryOk :=
  memoryOk_resetOp ok fun _ ht => memoryOk_ite (memoryOk_endReset ht) (memoryOk_coldRestart ht)

theorem memoryOk_showPort (ok : s.memoryOk) : s.showPort.memoryOk := memoryOk_setFld (memoryOk_setFld ok)

theorem memoryOk_addAnchor (ok : s.memoryOk) {id cert} : (s.addAnchor id cert).memoryOk :=
  memoryOk_mgtOp ok fun _ ht => memoryOk_ite (memoryOk_mgtAnswer ht) (memoryOk_ite (memoryOk_mgtAnswer ht)
    (memoryOk_mgtAnswer (memoryOk_showPort (memoryOk_update ht))))

theorem memoryOk_removeAnchor (ok : s.memoryOk) {id digest} : (s.removeAnchor id digest).memoryOk :=
  memoryOk_mgtOp ok fun _ ht => memoryOk_ite (memoryOk_mgtAnswer ht) (memoryOk_ite (memoryOk_mgtAnswer ht)
    (memoryOk_mgtAnswer (memoryOk_showPort (memoryOk_update ht))))

theorem memoryOk_readTelemetry (ok : s.memoryOk) {id block inst} : (s.readTelemetry id block inst).memoryOk := by
  refine memoryOk_mgtOp ok fun t ht => memoryOk_ite (memoryOk_mgtAnswer ht) ?_
  split
  · exact memoryOk_mgtAnswer ht
  · exact memoryOk_mgtAnswer ht

theorem memoryOk_handshake (ok : s.memoryOk) {anchor notAfterNs suiteOk} : (s.handshake anchor notAfterNs suiteOk).memoryOk :=
  memoryOk_ite ok (memoryOk_ite (memoryOk_emit (memoryOk_bump (memoryOk_showPort (memoryOk_update ok)) _ _ _)) (memoryOk_emit (memoryOk_raise
    (memoryOk_bump ok _ _ _))))

theorem memoryOk_portLink (ok : s.memoryOk) {up tenG} : (s.portLink up tenG).memoryOk :=
  memoryOk_ite ok (memoryOk_ite (memoryOk_setFld ok) (memoryOk_raise (memoryOk_setFld ok)))

theorem memoryOk_spdm (ok : s.memoryOk) {id code p1 p2 payload} : (s.spdm id code p1 p2 payload).memoryOk :=
  memoryOk_ite ok (memoryOk_mgtAnswer (memoryOk_bump ok _ _ _))

theorem memoryOk_spdmUnsupported (ok : s.memoryOk) {id code} : (s.spdmUnsupported id code).memoryOk := memoryOk_spdm ok

theorem memoryOk_spdmMeasure (ok : s.memoryOk) {id index nonce} : (s.spdmMeasure id index nonce).memoryOk :=
  memoryOk_ite (memoryOk_spdm ok) (memoryOk_spdm ok)

end Sys2Proof.Machine.State
end

section
/-! PROOF. HBM stays canonical: the ring commands (the operations of `Machine/RingCmds`). -/

namespace Sys2Proof.Machine.State

variable {s : State}

theorem memoryOk_journalSwitch (ok : s.memoryOk) {op e obj w r1} : (s.journalSwitch op e obj w r1).memoryOk :=
  memoryOk_journal (memoryOk_tableChange ok)

theorem memoryOk_ctxBind (ok : s.memoryOk) {e} : (s.ctxBind e).memoryOk := by
  refine memoryOk_command ok fun t ht => memoryOk_ite (memoryOk_endNow ht) (memoryOk_ite (memoryOk_endNow ht) (memoryOk_journalSwitch ?_))
  split
  · exact ht
  · exact memoryOk_writeRegion (memoryOk_placeBlock ht) _ _ _

theorem memoryOk_ctxUnbind (ok : s.memoryOk) {e} : (s.ctxUnbind e).memoryOk := memoryOk_command ok fun _ ht => memoryOk_journalSwitch ht

theorem memoryOk_domSwitch (ok : s.memoryOk) {op e d ws old st r1} : (s.domSwitch op e d ws old st r1).memoryOk :=
  memoryOk_journalSwitch (memoryOk_setDom ok)

theorem memoryOk_domCreate (ok : s.memoryOk) {e} : (s.domCreate e).memoryOk :=
  memoryOk_command ok fun _ ht => memoryOk_ite (memoryOk_refuse ht) (memoryOk_domSwitch ht)

theorem memoryOk_domForm (ok : s.memoryOk) {e} : (s.domForm e).memoryOk :=
  memoryOk_command ok fun _ ht => memoryOk_ite (memoryOk_endNow ht) (memoryOk_ite (memoryOk_refuse ht)
    (memoryOk_domSwitch (memoryOk_writeRegion (memoryOk_placeBlock ht) _ _ _)))

theorem memoryOk_domStop (ok : s.memoryOk) {e} : (s.domStop e).memoryOk :=
  memoryOk_command ok fun _ ht => memoryOk_ite (memoryOk_refuse ht) (memoryOk_journalTick (memoryOk_noteDown ht))

theorem memoryOk_domDestroy (ok : s.memoryOk) {e} : (s.domDestroy e).memoryOk :=
  memoryOk_command ok fun _ ht => memoryOk_ite (memoryOk_refuse ht) (memoryOk_domSwitch ht)

theorem memoryOk_tableInvalidate (ok : s.memoryOk) {e} : (s.tableInvalidate e).memoryOk := by
  refine memoryOk_command ok fun t ht => ?_
  split
  · exact memoryOk_journalTick (memoryOk_invalidate ht)
  · exact ht

theorem memoryOk_prgCheck (ok : s.memoryOk) {e} : (s.prgCheck e).memoryOk := memoryOk_command ok fun _ ht => memoryOk_endCmd ht

theorem memoryOk_tickSet (ok : s.memoryOk) {e} : (s.tickSet e).memoryOk :=
  memoryOk_command ok fun _ ht => memoryOk_ite (memoryOk_refuse ht) (memoryOk_ite (memoryOk_journal (memoryOk_update ht)) (memoryOk_journal
    (memoryOk_update ht)))

theorem memoryOk_policySet (ok : s.memoryOk) {e} : (s.policySet e).memoryOk := by
  refine memoryOk_command ok fun t ht => ?_
  split
  · exact memoryOk_endNow ht
  · exact memoryOk_ite (memoryOk_endNow ht) (memoryOk_journalTick (memoryOk_update ht))

theorem memoryOk_lnkCmd (ok : s.memoryOk) {act e} : (s.lnkCmd act e).memoryOk :=
  memoryOk_command ok fun _ ht => memoryOk_ite (memoryOk_endNow ht)
    (memoryOk_ite (memoryOk_finishPort (memoryOk_lnkCtrlWrite (memoryOk_journal ht))) (memoryOk_lnkCtrlWrite (memoryOk_journal ht)))

theorem memoryOk_hostBulk (ok : s.memoryOk) {e} : (s.hostBulk e).memoryOk := memoryOk_command ok fun _ ht => memoryOk_takeHostBulk
    (memoryOk_journal ht)

theorem memoryOk_tierFlush (ok : s.memoryOk) {e} : (s.tierFlush e).memoryOk :=
  memoryOk_command ok fun _ ht => memoryOk_ite (memoryOk_refuse ht) (memoryOk_beginDrain (memoryOk_journal ht))

theorem memoryOk_admitResume (ok : s.memoryOk) {e} : (s.admitResume e).memoryOk := by
  refine memoryOk_command ok fun t ht => ?_
  split
  · exact memoryOk_refuse ht
  · exact memoryOk_ite (memoryOk_refuse ht) (memoryOk_journalTick (memoryOk_putCheckpoint ht))

theorem memoryOk_computeReset (ok : s.memoryOk) {e} : (s.computeReset e).memoryOk :=
  memoryOk_command ok fun _ ht => memoryOk_ite (memoryOk_refuse ht) (memoryOk_ite (memoryOk_journal ht) (memoryOk_startReset (memoryOk_journal ht)))

theorem memoryOk_query (ok : s.memoryOk) {op e wf buf result} : (s.query op e wf buf result).memoryOk :=
  memoryOk_command ok fun _ ht => memoryOk_endNow (memoryOk_writeWords ht _ _)

theorem memoryOk_devQuery (ok : s.memoryOk) {e} : (s.devQuery e).memoryOk := memoryOk_query ok

theorem memoryOk_extQuery (ok : s.memoryOk) {e} : (s.extQuery e).memoryOk := memoryOk_query ok

theorem memoryOk_parcelQuery (ok : s.memoryOk) {e} : (s.parcelQuery e).memoryOk := memoryOk_query ok

end Sys2Proof.Machine.State
end

section
/-! PROOF. HBM stays canonical: the taking of commands (the operations of `Machine/RingEngine`). -/

namespace Sys2Proof.Machine.State

variable {s : State}

theorem memoryOk_runCommand (ok : s.memoryOk) {op e} : (State.runCommand op e s).memoryOk := by
  unfold runCommand
  split
  · exact memoryOk_command ok fun _ ht => memoryOk_endNow ht
  · exact memoryOk_ctxBind ok
  · exact memoryOk_ctxUnbind ok
  · exact memoryOk_extCreate ok
  · exact memoryOk_extResize ok
  · exact memoryOk_extPin ok
  · exact memoryOk_extUnpin ok
  · exact memoryOk_extRevoke ok
  · exact memoryOk_extDestroy ok
  · exact memoryOk_extUpdateSet ok
  · exact memoryOk_domCreate ok
  · exact memoryOk_domForm ok
  · exact memoryOk_domStop ok
  · exact memoryOk_domDestroy ok
  · exact memoryOk_tableInvalidate ok
  · exact memoryOk_prgCheck ok
  · exact memoryOk_tickSet ok
  · exact memoryOk_policySet ok
  · exact memoryOk_ite (memoryOk_lnkCmd ok) (memoryOk_command ok fun _ ht => ht)
  · exact memoryOk_invCommand ok
  · exact memoryOk_resumeCommand ok
  · exact memoryOk_hostBulk ok
  · exact memoryOk_tierFlush ok
  · exact memoryOk_admitResume ok
  · exact memoryOk_computeReset ok
  · exact memoryOk_devQuery ok
  · exact memoryOk_extQuery ok
  · exact memoryOk_parcelQuery ok
  · exact memoryOk_command ok fun _ ht => ht

theorem memoryOk_takeOne (ok : s.memoryOk) {i} : (s.takeOne i).memoryOk :=
  memoryOk_runCommand (memoryOk_update (memoryOk_shadow (memoryOk_setReg (memoryOk_useFwSlots ok) _ _)))

theorem memoryOk_takeRings {n} : ∀ {i} {s : State}, s.memoryOk → (State.takeRings n i s).memoryOk := by
  induction n with
  | zero => exact fun ok => ok
  | succ n ih =>
    intro i s ok
    rw [takeRings]
    split
    · exact ok
    · exact ih (memoryOk_takeOne ok)

theorem memoryOk_takeWaiting (ok : s.memoryOk) : s.takeWaiting.memoryOk := memoryOk_foldl ok fun _ _ ht => memoryOk_runCommand ht

end Sys2Proof.Machine.State
end

section
/-! PROOF. HBM stays canonical: one lemma per instruction, then the step. -/

namespace Sys2Proof.Machine

/-- A state that a step answers with, if it answers with one, holds HBM in its canonical form. -/
def KeepsMemory (o : Host.Outcome State Fault Refusal) : Prop := ∀ t, o = .next t → t.memoryOk

theorem KeepsMemory.next {s : State} (ok : s.memoryOk) : KeepsMemory (.next s) := by
  rintro t ⟨⟩
  exact ok

theorem KeepsMemory.fault {r : Fault} : KeepsMemory (.fault r) := by
  rintro t ⟨⟩

open State

variable {s : State}

theorem keepsMemory_execNop (ok : s.memoryOk) (e : Entry) : KeepsMemory (execNop e s) := .next (memoryOk_command ok fun _ ht => memoryOk_endNow ht)

theorem keepsMemory_execCtxBind (ok : s.memoryOk) (e : Entry) : KeepsMemory (execCtxBind e s) := .next (memoryOk_ctxBind ok)

theorem keepsMemory_execCtxUnbind (ok : s.memoryOk) (e : Entry) : KeepsMemory (execCtxUnbind e s) := .next (memoryOk_ctxUnbind ok)

theorem keepsMemory_execExtCreate (ok : s.memoryOk) (e : Entry) : KeepsMemory (execExtCreate e s) := .next (memoryOk_extCreate ok)

theorem keepsMemory_execExtResize (ok : s.memoryOk) (e : Entry) : KeepsMemory (execExtResize e s) := .next (memoryOk_extResize ok)

theorem keepsMemory_execExtPin (ok : s.memoryOk) (e : Entry) : KeepsMemory (execExtPin e s) := .next (memoryOk_extPin ok)

theorem keepsMemory_execExtUnpin (ok : s.memoryOk) (e : Entry) : KeepsMemory (execExtUnpin e s) := .next (memoryOk_extUnpin ok)

theorem keepsMemory_execExtRevoke (ok : s.memoryOk) (e : Entry) : KeepsMemory (execExtRevoke e s) := .next (memoryOk_extRevoke ok)

theorem keepsMemory_execExtDestroy (ok : s.memoryOk) (e : Entry) : KeepsMemory (execExtDestroy e s) := .next (memoryOk_extDestroy ok)

theorem keepsMemory_execExtUpdateSet (ok : s.memoryOk) (e : Entry) : KeepsMemory (execExtUpdateSet e s) := .next (memoryOk_extUpdateSet ok)

theorem keepsMemory_execDomCreate (ok : s.memoryOk) (e : Entry) : KeepsMemory (execDomCreate e s) := .next (memoryOk_domCreate ok)

theorem keepsMemory_execDomForm (ok : s.memoryOk) (e : Entry) : KeepsMemory (execDomForm e s) := .next (memoryOk_domForm ok)

theorem keepsMemory_execDomStop (ok : s.memoryOk) (e : Entry) : KeepsMemory (execDomStop e s) := .next (memoryOk_domStop ok)

theorem keepsMemory_execDomDestroy (ok : s.memoryOk) (e : Entry) : KeepsMemory (execDomDestroy e s) := .next (memoryOk_domDestroy ok)

theorem keepsMemory_execTableInvalidate (ok : s.memoryOk) (e : Entry) : KeepsMemory (execTableInvalidate e s) := .next (memoryOk_tableInvalidate ok)

theorem keepsMemory_execPrgCheck (ok : s.memoryOk) (e : Entry) : KeepsMemory (execPrgCheck e s) := .next (memoryOk_prgCheck ok)

theorem keepsMemory_execTickSet (ok : s.memoryOk) (e : Entry) : KeepsMemory (execTickSet e s) := .next (memoryOk_tickSet ok)

theorem keepsMemory_execPolicySet (ok : s.memoryOk) (e : Entry) : KeepsMemory (execPolicySet e s) := .next (memoryOk_policySet ok)

theorem keepsMemory_execLnkCmdTrain (ok : s.memoryOk) (e : Entry) : KeepsMemory (execLnkCmdTrain e s) := .next (memoryOk_lnkCmd ok)

theorem keepsMemory_execLnkCmdRetrain (ok : s.memoryOk) (e : Entry) : KeepsMemory (execLnkCmdRetrain e s) := .next (memoryOk_lnkCmd ok)

theorem keepsMemory_execLnkCmdReset (ok : s.memoryOk) (e : Entry) : KeepsMemory (execLnkCmdReset e s) := .next (memoryOk_lnkCmd ok)

theorem keepsMemory_execLnkCmdDisable (ok : s.memoryOk) (e : Entry) : KeepsMemory (execLnkCmdDisable e s) := .next (memoryOk_lnkCmd ok)

theorem keepsMemory_execLnkCmdEnable (ok : s.memoryOk) (e : Entry) : KeepsMemory (execLnkCmdEnable e s) := .next (memoryOk_lnkCmd ok)

theorem keepsMemory_execXltInvalidate (ok : s.memoryOk) (q : XltReq) : KeepsMemory (execXltInvalidate q s) := by
  cases q with
  | ring e => exact .next (memoryOk_invCommand ok)
  | reg t v => exact .next (memoryOk_ite (memoryOk_respond ok) (memoryOk_respond (memoryOk_invCtrlWrite ok)))

theorem keepsMemory_execXltResume (ok : s.memoryOk) (q : XltReq) : KeepsMemory (execXltResume q s) := by
  cases q with
  | ring e => exact .next (memoryOk_resumeCommand ok)
  | reg t v => exact .next (memoryOk_ite (memoryOk_respond ok) (memoryOk_respond (memoryOk_resumeWrite ok)))

theorem keepsMemory_execXltAbort (ok : s.memoryOk) (q : XltReq) : KeepsMemory (execXltAbort q s) := by
  cases q with
  | ring e => exact .next (memoryOk_resumeCommand ok)
  | reg t v => exact .next (memoryOk_ite (memoryOk_respond ok) (memoryOk_respond (memoryOk_resumeWrite ok)))

theorem keepsMemory_execHostBulk (ok : s.memoryOk) (e : Entry) : KeepsMemory (execHostBulk e s) := .next (memoryOk_hostBulk ok)

theorem keepsMemory_execTierFlush (ok : s.memoryOk) (e : Entry) : KeepsMemory (execTierFlush e s) := .next (memoryOk_tierFlush ok)

theorem keepsMemory_execAdmitResume (ok : s.memoryOk) (e : Entry) : KeepsMemory (execAdmitResume e s) := .next (memoryOk_admitResume ok)

theorem keepsMemory_execComputeReset (ok : s.memoryOk) (e : Entry) : KeepsMemory (execComputeReset e s) := .next (memoryOk_computeReset ok)

theorem keepsMemory_execDevQuery (ok : s.memoryOk) (e : Entry) : KeepsMemory (execDevQuery e s) := .next (memoryOk_devQuery ok)

theorem keepsMemory_execExtQuery (ok : s.memoryOk) (e : Entry) : KeepsMemory (execExtQuery e s) := .next (memoryOk_extQuery ok)

theorem keepsMemory_execParcelQuery (ok : s.memoryOk) (e : Entry) : KeepsMemory (execParcelQuery e s) := .next (memoryOk_parcelQuery ok)

theorem keepsMemory_execCommandTake (ok : s.memoryOk) : KeepsMemory (execCommandTake s) := .next (memoryOk_takeRings (memoryOk_takeWaiting ok))

theorem keepsMemory_execHeldCompletionPost (ok : s.memoryOk) (ring : Fin 4) : KeepsMemory (execHeldCompletionPost ring s) :=
  .next (memoryOk_postHeld ok)

theorem keepsMemory_execEventPost (ok : s.memoryOk) (ev : EventRec) : KeepsMemory (execEventPost ev s) := .next (memoryOk_postEvent ok)

theorem keepsMemory_execHeldEventPost (ok : s.memoryOk) : KeepsMemory (execHeldEventPost s) := .next (memoryOk_postHeldEvents ok)

theorem keepsMemory_execLogRecord (ok : s.memoryOk) (r : LogRec) : KeepsMemory (execLogRecord r s) := .next (memoryOk_logWrite ok)

theorem keepsMemory_execTraceRecord (ok : s.memoryOk) (tp : BitVec 10) (core : Fin 8) (arg0 : BitVec 48) (arg1 arg2 : Word)
    : KeepsMemory (execTraceRecord tp core arg0 arg1 arg2 s) :=
  .next (memoryOk_traceWrite ok)

theorem keepsMemory_execRingVectorSignal (ok : s.memoryOk) (ring : RingId) : KeepsMemory (execRingVectorSignal ring s) :=
  .next (memoryOk_signalDue ok)

theorem keepsMemory_execCmdHeadWrite (ok : s.memoryOk) (ring : Fin 4) (value : Word) : KeepsMemory (execCmdHeadWrite ring value s) :=
  .next (memoryOk_respond (memoryOk_headWrite ok))

theorem keepsMemory_execRingTailWrite (ok : s.memoryOk) (ring : RingId) (value : Word) : KeepsMemory (execRingTailWrite ring value s) :=
  .next (memoryOk_respond (memoryOk_tailWrite ok))

theorem keepsMemory_execRingEnable (ok : s.memoryOk) (ring : CfgId) (value : Word) : KeepsMemory (execRingEnable ring value s) :=
  .next (memoryOk_respond (memoryOk_cfgWrite ok))

theorem keepsMemory_execRingBaseWrite (ok : s.memoryOk) (ring : BaseId) (value : Word) : KeepsMemory (execRingBaseWrite ring value s) :=
  .next (memoryOk_respond (memoryOk_ringBase ok))

theorem keepsMemory_execEpochPolicy (ok : s.memoryOk) : KeepsMemory (execEpochPolicy s) := .next (memoryOk_epoch ok)

theorem keepsMemory_execWatchdogReset (ok : s.memoryOk) (core : Fin 8) : KeepsMemory (execWatchdogReset core s) := .next (memoryOk_watchdog ok)

theorem keepsMemory_execTaskReassign (ok : s.memoryOk) : KeepsMemory (execTaskReassign s) := .next (memoryOk_reassign ok)

theorem keepsMemory_execTableSwitchReq (ok : s.memoryOk) (by' : Agent) (t : Table) (value : Word) (cycle : BitVec 14)
    : KeepsMemory (execTableSwitchReq by' t value cycle s) :=
  .next (memoryOk_ite (memoryOk_respond (memoryOk_ctrlWrite ok)) (memoryOk_respond ok))

theorem keepsMemory_execTableBaseWrite (ok : s.memoryOk) (by' : Agent) (t : Table) (bank : Bool) (value : Word) (cycle : BitVec 14)
    : KeepsMemory (execTableBaseWrite by' t bank value cycle s) :=
  .next (memoryOk_ite (memoryOk_baseWrite ok) (memoryOk_respond ok))

theorem keepsMemory_execTableSwitch (ok : s.memoryOk) (t : Table) : KeepsMemory (execTableSwitch t s) := .next (memoryOk_switchTable ok)

theorem keepsMemory_execOldFreeSet (ok : s.memoryOk) (t : Table) : KeepsMemory (execOldFreeSet t s) := .next (memoryOk_setOldFree ok)

theorem keepsMemory_execSluicePortSwitch (ok : s.memoryOk) (port : Fin 32) : KeepsMemory (execSluicePortSwitch port s) :=
  .next (memoryOk_switchPort ok)

theorem keepsMemory_execInvalidateEffect (ok : s.memoryOk) : KeepsMemory (execInvalidateEffect s) := .next (memoryOk_invalidateEffect ok)

theorem keepsMemory_execXltInvEffect (ok : s.memoryOk) : KeepsMemory (execXltInvEffect s) := .next (memoryOk_invEffect ok)

theorem keepsMemory_execPolicySetEffect (ok : s.memoryOk) : KeepsMemory (execPolicySetEffect s) := .next (memoryOk_policyEffect ok)

theorem keepsMemory_execExtentDrained (ok : s.memoryOk) (ext : BitVec 18) : KeepsMemory (execExtentDrained ext s) := .next (memoryOk_extentDrained ok)

theorem keepsMemory_execPinDone (ok : s.memoryOk) (ext : BitVec 18) : KeepsMemory (execPinDone ext s) := .next (memoryOk_pinDone ok)

theorem keepsMemory_execRepin (ok : s.memoryOk) : KeepsMemory (execRepin s) := .next (memoryOk_repin ok)

theorem keepsMemory_execTickPeriodApply (ok : s.memoryOk) : KeepsMemory (execTickPeriodApply s) := .next (memoryOk_applyPeriod ok)

theorem keepsMemory_execTickBoundary (ok : s.memoryOk) (env : TickEnv) : KeepsMemory (execTickBoundary env s) := .next (memoryOk_boundary ok)

theorem keepsMemory_execDemandReport (ok : s.memoryOk) : KeepsMemory (execDemandReport s) := .next (memoryOk_sendDemand ok)

theorem keepsMemory_execShareMessage (ok : s.memoryOk) (lost : List (Fin 4 × Fin 4)) : KeepsMemory (execShareMessage lost s) :=
  .next (memoryOk_sendShares ok)

theorem keepsMemory_execEbbBook (ok : s.memoryOk) (tile : Fin 4) : KeepsMemory (execEbbBook tile s) := .next (memoryOk_bookEbb ok)

theorem keepsMemory_execPacketArrival (ok : s.memoryOk) (port : Fin 32) (linkVc : Fin 8) (pkt : Packet)
    : KeepsMemory (execPacketArrival port linkVc pkt s) :=
  .next (memoryOk_arrive (memoryOk_update ok))

theorem keepsMemory_execTransitForward (ok : s.memoryOk) (port : Fin 32) (linkVc : Fin 8) : KeepsMemory (execTransitForward port linkVc s) :=
  .next (memoryOk_forwardTransit ok)

theorem keepsMemory_execFilterHeldRetry (ok : s.memoryOk) (port : Fin 32) (linkVc : Fin 8) : KeepsMemory (execFilterHeldRetry port linkVc s) :=
  .next (memoryOk_retryHeld ok)

theorem keepsMemory_execRouteMissFill (ok : s.memoryOk) (port : Fin 32) (linkVc : Fin 8) : KeepsMemory (execRouteMissFill port linkVc s) :=
  .next (memoryOk_fillRoute ok)

theorem keepsMemory_execEcho (ok : s.memoryOk) (port : Fin 32) (pkt : Packet) : KeepsMemory (execEcho port pkt s) := .next (memoryOk_arriveAs ok)

theorem keepsMemory_execTimeBeacon (ok : s.memoryOk) (port : Fin 32) (pkt : Packet) (localNs : Nat)
    : KeepsMemory (execTimeBeacon port pkt localNs s) :=
  .next (memoryOk_arriveAs ok)

theorem keepsMemory_execBeaconSend (ok : s.memoryOk) : KeepsMemory (execBeaconSend s) := .next (memoryOk_sendBeacons ok)

theorem keepsMemory_execPpsEdge (ok : s.memoryOk) (localNs : Nat) : KeepsMemory (execPpsEdge localNs s) := .next (memoryOk_takePps ok)

theorem keepsMemory_execHoldover (ok : s.memoryOk) : KeepsMemory (execHoldover s) := .next (memoryOk_enterHoldover ok)

theorem keepsMemory_execTimeLockWaitEnd (ok : s.memoryOk) (waitedMs : Nat) : KeepsMemory (execTimeLockWaitEnd waitedMs s) :=
  .next (memoryOk_endTimeWait ok)

theorem keepsMemory_execBatch (ok : s.memoryOk) (port : Fin 32) (pkt : Packet) : KeepsMemory (execBatch port pkt s) := .next (memoryOk_arriveAs ok)

theorem keepsMemory_execAssemblyTimeout (ok : s.memoryOk) (port : Fin 32) : KeepsMemory (execAssemblyTimeout port s) :=
  .next (memoryOk_foldl (memoryOk_update ok) fun _ _ ht => memoryOk_refusePkt (memoryOk_bump ht _ _ _))

theorem keepsMemory_execLookupBatch (ok : s.memoryOk) (port : Fin 32) : KeepsMemory (execLookupBatch port s) :=
  .next (memoryOk_takeHead ok fun _ _ ht => Decided.memoryOk_settle (memoryOk_decideBatch ht))

theorem keepsMemory_execRead (ok : s.memoryOk) (port : Fin 32) : KeepsMemory (execRead port s) :=
  .next (memoryOk_takeHead ok fun _ _ ht => Decided.memoryOk_settle (memoryOk_decideRead ht))

theorem keepsMemory_execWrite (ok : s.memoryOk) (port : Fin 32) : KeepsMemory (execWrite port s) :=
  .next (memoryOk_takeHead ok fun _ _ ht => Decided.memoryOk_settle (memoryOk_decideWrite ht))

theorem keepsMemory_execPush (ok : s.memoryOk) (port : Fin 32) : KeepsMemory (execPush port s) :=
  .next (memoryOk_takeHead ok fun _ _ ht => Decided.memoryOk_settle (memoryOk_decidePush ht))

theorem keepsMemory_execAtomic (ok : s.memoryOk) (port : Fin 32) : KeepsMemory (execAtomic port s) :=
  .next (memoryOk_ite (memoryOk_takeHead ok fun _ _ ht => Decided.memoryOk_settle (memoryOk_decideAtomic ht)) (memoryOk_takeHome ok
    fun _ _ ht => Decided.memoryOk_settle (memoryOk_decideHomeAtomic ht)))

theorem keepsMemory_execBulkRead (ok : s.memoryOk) (port : Fin 32) : KeepsMemory (execBulkRead port s) :=
  .next (memoryOk_takeHead ok fun _ _ ht => Decided.memoryOk_settle (memoryOk_decideBulk ht))

theorem keepsMemory_execBulkCopy (ok : s.memoryOk) (port : Fin 32) : KeepsMemory (execBulkCopy port s) :=
  .next (memoryOk_takeHead ok fun _ _ ht => Decided.memoryOk_settle (memoryOk_decideBulk ht))

theorem keepsMemory_execRdS (ok : s.memoryOk) (tile : Fin 4) : KeepsMemory (execRdS tile s) := .next (memoryOk_takeCoh ok)

theorem keepsMemory_execRdX (ok : s.memoryOk) (tile : Fin 4) : KeepsMemory (execRdX tile s) := .next (memoryOk_takeCoh ok)

theorem keepsMemory_execUpg (ok : s.memoryOk) (tile : Fin 4) : KeepsMemory (execUpg tile s) := .next (memoryOk_takeCoh ok)

theorem keepsMemory_execWb (ok : s.memoryOk) (tile : Fin 4) : KeepsMemory (execWb tile s) := .next (memoryOk_takeCoh ok)

theorem keepsMemory_execWbs (ok : s.memoryOk) (tile : Fin 4) : KeepsMemory (execWbs tile s) := .next (memoryOk_takeCoh ok)

theorem keepsMemory_execEvs (ok : s.memoryOk) (tile : Fin 4) : KeepsMemory (execEvs tile s) := .next (memoryOk_takeCoh ok)

theorem keepsMemory_execRspAck (ok : s.memoryOk) (port : Fin 32) (pkt : Packet) : KeepsMemory (execRspAck port pkt s) :=
  .next (memoryOk_ite (memoryOk_arriveAs ok) ok)

theorem keepsMemory_execRspData (ok : s.memoryOk) (port : Fin 32) (pkt : Packet) : KeepsMemory (execRspData port pkt s) :=
  .next (memoryOk_ite (memoryOk_arriveAs ok) ok)

theorem keepsMemory_execRecallExpire (ok : s.memoryOk) (tile : Fin 4) : KeepsMemory (execRecallExpire tile s) := .next (memoryOk_expireRecalls ok)

theorem keepsMemory_execSnoopSend (ok : s.memoryOk) (tile : Fin 4) : KeepsMemory (execSnoopSend tile s) := .next (memoryOk_sendSnoops ok)

theorem keepsMemory_execSnoopTimeout (ok : s.memoryOk) (tile : Fin 4) : KeepsMemory (execSnoopTimeout tile s) := .next (memoryOk_timeoutSnoops ok)

theorem keepsMemory_execDomainDown (ok : s.memoryOk) (domain : BitVec 12) : KeepsMemory (execDomainDown domain s) := .next (memoryOk_runDown ok)

theorem keepsMemory_execDomainSweep (ok : s.memoryOk) (tile : Fin 4) (lines : Nat) : KeepsMemory (execDomainSweep tile lines s) :=
  .next (memoryOk_sweepTile ok)

theorem keepsMemory_execRowPhase (ok : s.memoryOk) (rid : Nat) : KeepsMemory (execRowPhase rid s) := by
  refine .next ?_
  split
  · refine memoryOk_ite ?_ ok
    extract_lets own t
    have landed : t.memoryOk := memoryOk_ite (memoryOk_landing ok) ok
    clear_value t
    split
    · exact memoryOk_rowPhase landed
    · exact landed
  · exact ok

theorem keepsMemory_execFlashSense (ok : s.memoryOk) (rid : Nat) : KeepsMemory (execFlashSense rid s) :=
  .next (memoryOk_withReq ok fun _ => memoryOk_flashSense ok)

theorem keepsMemory_execSectorTransfer (ok : s.memoryOk) (rid : Nat) : KeepsMemory (execSectorTransfer rid s) :=
  .next (memoryOk_withReq ok fun _ => memoryOk_sectorTransfer ok)

theorem keepsMemory_execFillWrite (ok : s.memoryOk) (rid : Nat) : KeepsMemory (execFillWrite rid s) :=
  .next (memoryOk_withReq ok fun _ => memoryOk_fillWrite ok)

theorem keepsMemory_execConfluence (ok : s.memoryOk) (rid : Nat) : KeepsMemory (execConfluence rid s) :=
  .next (memoryOk_withReq ok fun _ => memoryOk_ite (memoryOk_confluence ok) ok)

theorem keepsMemory_execResultSend (ok : s.memoryOk) (rid : Nat) : KeepsMemory (execResultSend rid s) :=
  .next (memoryOk_withReq ok fun _ => memoryOk_ite (memoryOk_resultSend ok) ok)

theorem keepsMemory_execLanding (ok : s.memoryOk) : KeepsMemory (execLanding s) := .next (memoryOk_landing ok)

theorem keepsMemory_execPushCompletion (ok : s.memoryOk) (rid : Nat) : KeepsMemory (execPushCompletion rid s) := by
  refine .next ?_
  split
  · exact memoryOk_pushCompletion ok
  · exact ok

theorem keepsMemory_execAtomicResult (ok : s.memoryOk) (rid : Nat) : KeepsMemory (execAtomicResult rid s) := by
  refine .next ?_
  split
  · exact memoryOk_atomicResult ok
  · exact ok

theorem keepsMemory_execWriteAck (ok : s.memoryOk) (rid : Nat) : KeepsMemory (execWriteAck rid s) := by
  refine .next ?_
  split
  · exact memoryOk_writeAck ok
  · exact ok

theorem keepsMemory_execGrantSend (ok : s.memoryOk) (rid : Nat) : KeepsMemory (execGrantSend rid s) := by
  refine .next ?_
  split
  · exact memoryOk_grantSend ok
  · exact ok

theorem keepsMemory_execBulkWalk (ok : s.memoryOk) (rid : Nat) : KeepsMemory (execBulkWalk rid s) :=
  .next (memoryOk_withReq ok fun _ => memoryOk_bulkWalk ok)

theorem keepsMemory_execFaultRecordWrite (ok : s.memoryOk) (tile : Fin 4) : KeepsMemory (execFaultRecordWrite tile s) :=
  .next (memoryOk_writeFaults ok)

theorem keepsMemory_execGroupClose (ok : s.memoryOk) (tile : Fin 4) : KeepsMemory (execGroupClose tile s) := .next (memoryOk_closeGroups ok)

theorem keepsMemory_execBulkReadmit (ok : s.memoryOk) (rid : Nat) : KeepsMemory (execBulkReadmit rid s) := .next (memoryOk_readmit ok)

theorem keepsMemory_execBulkChunk (ok : s.memoryOk) (rid : Nat) : KeepsMemory (execBulkChunk rid s) :=
  .next (memoryOk_withReq ok fun _ => memoryOk_bulkChunk ok)

theorem keepsMemory_execBulkCompletion (ok : s.memoryOk) (rid : Nat) : KeepsMemory (execBulkCompletion rid s) :=
  .next (memoryOk_withReq ok fun _ => memoryOk_bulkCompletion ok)

theorem keepsMemory_execLateResultDrop (ok : s.memoryOk) (port : Fin 32) : KeepsMemory (execLateResultDrop port s) := .next (memoryOk_dropLate ok)

theorem keepsMemory_execPacketSendSelect (ok : s.memoryOk) (port : Fin 32) (ns : Nat) : KeepsMemory (execPacketSendSelect port ns s) :=
  .next (memoryOk_sendSelect ok)

theorem keepsMemory_execBackgroundFetchFill (ok : s.memoryOk) (parcel : Nat) (group : Fin 512)
    : KeepsMemory (execBackgroundFetchFill parcel group s) :=
  .next (memoryOk_backgroundFill ok)

theorem keepsMemory_execEbbClean (ok : s.memoryOk) (tile : Fin 4) : KeepsMemory (execEbbClean tile s) := .next (memoryOk_ebbClean ok)

theorem keepsMemory_execProgramConfirm (ok : s.memoryOk) (tile : Fin 4) : KeepsMemory (execProgramConfirm tile s) :=
  .next (memoryOk_programConfirm ok)

theorem keepsMemory_execProgramFail (ok : s.memoryOk) (die : Fin 512) (erase : Bool) : KeepsMemory (execProgramFail die erase s) :=
  .next (memoryOk_programFail ok)

theorem keepsMemory_execSectorRebuild (ok : s.memoryOk) (parcel : Nat) (group : Fin 512) (secondFails : Bool)
    : KeepsMemory (execSectorRebuild parcel group secondFails s) :=
  .next (memoryOk_sectorRebuild ok)

theorem keepsMemory_execRelocate (ok : s.memoryOk) (parcel : Nat) (group : Fin 512) : KeepsMemory (execRelocate parcel group s) :=
  .next (memoryOk_relocate ok)

theorem keepsMemory_execRepairRewrite (ok : s.memoryOk) (stack : Fin 24) (pc : Fin 64) : KeepsMemory (execRepairRewrite stack pc s) :=
  .next (memoryOk_repairRewrite ok)

theorem keepsMemory_execDredgeRead (ok : s.memoryOk) (stack : Fin 24) (pc : Fin 64) : KeepsMemory (execDredgeRead stack pc s) :=
  .next (memoryOk_dredgeRead ok)

theorem keepsMemory_execPatrolRead (ok : s.memoryOk) (tile fmc channel : Fin 4) (bad : List (Fin 4))
    : KeepsMemory (execPatrolRead tile fmc channel bad s) :=
  .next (memoryOk_patrolRead ok)

theorem keepsMemory_execLapSlow (ok : s.memoryOk) (tile : Fin 4) : KeepsMemory (execLapSlow tile s) := .next (memoryOk_lapSlow ok)

theorem keepsMemory_execCalProbe (ok : s.memoryOk) (stack : Fin 24) (pc : Fin 64) (minusOk plusOk : Bool)
    : KeepsMemory (execCalProbe stack pc minusOk plusOk s) :=
  .next (memoryOk_calProbe ok)

theorem keepsMemory_execRefresh (ok : s.memoryOk) (_stack : Fin 24) : KeepsMemory (execRefresh _stack s) := .next ok

theorem keepsMemory_execPmbusPoll (ok : s.memoryOk) (p : PmbusSample) : KeepsMemory (execPmbusPoll p s) := .next (memoryOk_pmbusPoll ok)

theorem keepsMemory_execPmbAlert (ok : s.memoryOk) (status : BitVec 16) : KeepsMemory (execPmbAlert status s) :=
  .next (memoryOk_ite (memoryOk_emit ok) ok)

theorem keepsMemory_execCapTestStart (ok : s.memoryOk) : KeepsMemory (execCapTestStart s) := .next (memoryOk_capTestStart ok)

theorem keepsMemory_execCapTestDone (ok : s.memoryOk) (chargeMilliCoulomb : Nat) : KeepsMemory (execCapTestDone chargeMilliCoulomb s) :=
  .next (memoryOk_capTestDone ok)

theorem keepsMemory_execPwrFail (ok : s.memoryOk) : KeepsMemory (execPwrFail s) := .next (memoryOk_powerFail ok)

theorem keepsMemory_execDiscardNoticeSend (ok : s.memoryOk) : KeepsMemory (execDiscardNoticeSend s) := .next (memoryOk_sendNotices ok)

theorem keepsMemory_execDrainBegin (ok : s.memoryOk) : KeepsMemory (execDrainBegin s) := .next (memoryOk_drainBegin ok)

theorem keepsMemory_execDrainEnergyStop (ok : s.memoryOk) : KeepsMemory (execDrainEnergyStop s) := .next (memoryOk_energyStop ok)

theorem keepsMemory_execCheckpointWrite (ok : s.memoryOk) (measuredCj : BitVec 16) : KeepsMemory (execCheckpointWrite measuredCj s) :=
  .next (memoryOk_checkpointWrite ok)

theorem keepsMemory_execPwrFailDeassert (ok : s.memoryOk) : KeepsMemory (execPwrFailDeassert s) := .next (memoryOk_powerDeassert ok)

theorem keepsMemory_execMainPgFall (ok : s.memoryOk) : KeepsMemory (execMainPgFall s) := .next (memoryOk_mainPgFall ok)

theorem keepsMemory_execColdRstN (ok : s.memoryOk) (level : Bool) : KeepsMemory (execColdRstN level s) := .next (memoryOk_coldRst ok)

theorem keepsMemory_execAuxRstN (ok : s.memoryOk) (level strapTest strapAuxclk : Bool) : KeepsMemory (execAuxRstN level strapTest strapAuxclk s) :=
  .next (memoryOk_auxRst ok)

theorem keepsMemory_execColdStart (ok : s.memoryOk) (env : StartEnv) : KeepsMemory (execColdStart env s) := .next (memoryOk_coldStart ok)

theorem keepsMemory_execHostAlive (ok : s.memoryOk) (value : Word) : KeepsMemory (execHostAlive value s) :=
  .next (memoryOk_ite ok (memoryOk_respond (memoryOk_aliveWrite ok)))

theorem keepsMemory_execHostBootTimeout (ok : s.memoryOk) (waitedMs : Nat) : KeepsMemory (execHostBootTimeout waitedMs s) :=
  .next (memoryOk_bootTimeout ok)

theorem keepsMemory_execHostResetReq (ok : s.memoryOk) : KeepsMemory (execHostResetReq s) := .next (memoryOk_hostResetReq ok)

theorem keepsMemory_execModuleRetrain (ok : s.memoryOk) (m : Fin 4) (lanes : Nat) : KeepsMemory (execModuleRetrain m lanes s) :=
  .next (memoryOk_moduleRetrain ok)

theorem keepsMemory_execModuleDown (ok : s.memoryOk) (m : Fin 4) : KeepsMemory (execModuleDown m s) := .next (memoryOk_moduleDown ok)

theorem keepsMemory_execHostRead (ok : s.memoryOk) (addr : BitVec 52) (size : Nat) : KeepsMemory (execHostRead addr size s) :=
  .next (memoryOk_hostAccess ok)

theorem keepsMemory_execWrite256 (ok : s.memoryOk) (addr : BitVec 52) (data : List Byte) (poison : Bool) :
    KeepsMemory (execWrite256 addr data poison s) := by
  unfold execWrite256
  split
  · exact .next (memoryOk_hostAccess ok)
  · exact .fault

theorem keepsMemory_execWrite64 (ok : s.memoryOk) (addr : BitVec 52) (data : List Byte) (poison : Bool) :
    KeepsMemory (execWrite64 addr data poison s) := by
  unfold execWrite64
  split
  · exact .next (memoryOk_hostAccess ok)
  · exact .fault

theorem keepsMemory_execHostAccessDeferred (ok : s.memoryOk) (m : Fin 4) : KeepsMemory (execHostAccessDeferred m s) :=
  .next (memoryOk_hostDeferred ok)

theorem keepsMemory_execVecUnmask (ok : s.memoryOk) (v : Fin 512) : KeepsMemory (execVecUnmask v s) :=
  .next (memoryOk_ite ok (memoryOk_respond (memoryOk_unmask ok)))

theorem keepsMemory_execRegisterWrite (ok : s.memoryOk) (by' : Agent) (addr : BitVec 24) (size : Nat) (value : Word)
    : KeepsMemory (execRegisterWrite by' addr size value s) :=
  .next (memoryOk_respond (memoryOk_regWrite ok))

theorem keepsMemory_execEvtForce (ok : s.memoryOk) (by' : Agent) (page : BitVec 12) (value : Word) : KeepsMemory (execEvtForce by' page value s) :=
  .next (memoryOk_pageWrite ok fun _ _ => memoryOk_evtForce ok)

theorem keepsMemory_execEvtStatusClear (ok : s.memoryOk) (by' : Agent) (page : BitVec 12) (value : Word)
    : KeepsMemory (execEvtStatusClear by' page value s) :=
  .next (memoryOk_pageWrite ok fun _ _ => memoryOk_evtClear ok)

theorem keepsMemory_execErrLogClear (ok : s.memoryOk) (by' : Agent) (page : BitVec 12) (value : Word)
    : KeepsMemory (execErrLogClear by' page value s) :=
  .next (memoryOk_pageWrite ok fun _ _ => memoryOk_errClear ok)

theorem keepsMemory_execComputeResetStop (ok : s.memoryOk) : KeepsMemory (execComputeResetStop s) := .next (memoryOk_resetStop ok)

theorem keepsMemory_execComputeResetAssert (ok : s.memoryOk) : KeepsMemory (execComputeResetAssert s) := .next (memoryOk_resetAssert ok)

theorem keepsMemory_execFirmwareRestart (ok : s.memoryOk) (entropy : List Word) : KeepsMemory (execFirmwareRestart entropy s) :=
  .next (memoryOk_firmwareRestart ok)

theorem keepsMemory_execEngineCheck (ok : s.memoryOk) (failed : List (Fin 4 × Fin 32)) : KeepsMemory (execEngineCheck failed s) :=
  .next (memoryOk_engineCheck ok)

theorem keepsMemory_execTileFault (ok : s.memoryOk) (block : Byte) (tile : Fin 4) (inst : Byte) (cycle : Nat)
    : KeepsMemory (execTileFault block tile inst cycle s) :=
  .next (memoryOk_tileFault ok)

theorem keepsMemory_execThermalSample (ok : s.memoryOk) (t : Sensors) : KeepsMemory (execThermalSample t s) := .next (memoryOk_thermalSample ok)

theorem keepsMemory_execThermalTrip (ok : s.memoryOk) : KeepsMemory (execThermalTrip s) := .next (memoryOk_thermalTrip ok)

theorem keepsMemory_execDataBlock (ok : s.memoryOk) (port : Fin 32) (b : Block) (ns : Nat) : KeepsMemory (execDataBlock port b ns s) :=
  .next (memoryOk_ite (memoryOk_takeBlock ok fun _ ht => memoryOk_dataBlock ht) ok)

theorem keepsMemory_execIdleBlock (ok : s.memoryOk) (port : Fin 32) (b : Block) (ns : Nat) : KeepsMemory (execIdleBlock port b ns s) :=
  .next (memoryOk_ite (memoryOk_takeBlock ok fun _ ht => memoryOk_takeHeader ht) ok)

theorem keepsMemory_execNak (ok : s.memoryOk) (port : Fin 32) (b : Block) (ns : Nat) : KeepsMemory (execNak port b ns s) :=
  .next (memoryOk_ite (memoryOk_takeBlock ok fun _ ht => memoryOk_nakBlock ht) ok)

theorem keepsMemory_execBlockCrcFail (ok : s.memoryOk) (port : Fin 32) (b : Block) (uncorrectable : Bool)
    : KeepsMemory (execBlockCrcFail port b uncorrectable s) :=
  .next (memoryOk_ite (memoryOk_bump (memoryOk_ite (memoryOk_bump ok _ _ _) ok) _ _ _) ok)

theorem keepsMemory_execNakRetry (ok : s.memoryOk) (port : Fin 32) (ns : Nat) : KeepsMemory (execNakRetry port ns s) :=
  .next (memoryOk_ite (memoryOk_sendNak ok) ok)

theorem keepsMemory_execReplayTimeout (ok : s.memoryOk) (port : Fin 32) (ns : Nat) : KeepsMemory (execReplayTimeout port ns s) :=
  .next (memoryOk_replayTimeout ok)

theorem keepsMemory_execLinkId (ok : s.memoryOk) (port : Fin 32) (b : Block) : KeepsMemory (execLinkId port b s) :=
  .next (memoryOk_takeCtl (memoryOk_update ok) fun _ ht => memoryOk_linkId ht)

theorem keepsMemory_execRttProbe (ok : s.memoryOk) (port : Fin 32) (b : Block) : KeepsMemory (execRttProbe port b s) :=
  .next (memoryOk_takeCtl (memoryOk_update ok) fun _ ht => memoryOk_rttProbe ht)

theorem keepsMemory_execRttReply (ok : s.memoryOk) (port : Fin 32) (b : Block) (ns : Nat) : KeepsMemory (execRttReply port b ns s) :=
  .next (memoryOk_takeCtl ok fun _ ht => memoryOk_rttReply ht)

theorem keepsMemory_execInitDone (ok : s.memoryOk) (port : Fin 32) (b : Block) : KeepsMemory (execInitDone port b s) :=
  .next (memoryOk_takeCtl (memoryOk_update ok) fun _ ht => memoryOk_initDone ht)

theorem keepsMemory_execRetrainReq (ok : s.memoryOk) (port : Fin 32) (b : Block) : KeepsMemory (execRetrainReq port b s) :=
  .next (memoryOk_takeCtl (memoryOk_update ok) fun _ ht => memoryOk_retrainReq ht)

theorem keepsMemory_execFollow (ok : s.memoryOk) (port : Fin 32) (b : Block) : KeepsMemory (execFollow port b s) :=
  .next (memoryOk_takeCtl (memoryOk_update ok) fun _ ht => memoryOk_followed ht)

theorem keepsMemory_execTrainDone (ok : s.memoryOk) (port : Fin 32) (mine peer : BitVec 8) : KeepsMemory (execTrainDone port mine peer s) :=
  .next (memoryOk_trainDone ok)

theorem keepsMemory_execTrainTimeout (ok : s.memoryOk) (port : Fin 32) (elapsedUs : Nat) : KeepsMemory (execTrainTimeout port elapsedUs s) :=
  .next (memoryOk_trainTimeout ok)

theorem keepsMemory_execLaneErr (ok : s.memoryOk) (port : Fin 32) (lane : Fin 8) : KeepsMemory (execLaneErr port lane s) :=
  .next (memoryOk_laneErr ok)

theorem keepsMemory_execLockLost (ok : s.memoryOk) (port : Fin 32) : KeepsMemory (execLockLost port s) := .next (memoryOk_lockLost ok)

theorem keepsMemory_execProbationEnd (ok : s.memoryOk) (port : Fin 32) : KeepsMemory (execProbationEnd port s) := .next (memoryOk_probationEnd ok)

theorem keepsMemory_execTrainRetry (ok : s.memoryOk) (port : Fin 32) : KeepsMemory (execTrainRetry port s) := .next (memoryOk_trainRetry ok)

theorem keepsMemory_execGetState (ok : s.memoryOk) (reqId : BitVec 16) : KeepsMemory (execGetState reqId s) := .next (memoryOk_getState ok)

theorem keepsMemory_execAssign (ok : s.memoryOk) (reqId : BitVec 16) (body : List Byte) : KeepsMemory (execAssign reqId body s) :=
  .next (memoryOk_assignTenant ok)

theorem keepsMemory_execAssignDone (ok : s.memoryOk) : KeepsMemory (execAssignDone s) := .next (memoryOk_assignDone ok)

theorem keepsMemory_execRelease (ok : s.memoryOk) (reqId : BitVec 16) : KeepsMemory (execRelease reqId s) := .next (memoryOk_releaseTenant ok)

theorem keepsMemory_execReleaseStop (ok : s.memoryOk) : KeepsMemory (execReleaseStop s) := .next (memoryOk_releaseStop ok)

theorem keepsMemory_execPurgeBegin (ok : s.memoryOk) : KeepsMemory (execPurgeBegin s) := .next (memoryOk_purgeBegin ok)

theorem keepsMemory_execPurgeDone (ok : s.memoryOk) : KeepsMemory (execPurgeDone s) := .next (memoryOk_purgeDone ok)

theorem keepsMemory_execClear (ok : s.memoryOk) (reqId : BitVec 16) : KeepsMemory (execClear reqId s) := .next (memoryOk_clearTenant ok)

theorem keepsMemory_execLicenceInstall (ok : s.memoryOk) (reqId : BitVec 16) (l : Licence) : KeepsMemory (execLicenceInstall reqId l s) :=
  .next (memoryOk_licInstall ok)

theorem keepsMemory_execLicenceRemove (ok : s.memoryOk) (reqId : BitVec 16) (seq : BitVec 32) : KeepsMemory (execLicenceRemove reqId seq s) :=
  .next (memoryOk_licRemove ok)

theorem keepsMemory_execImageStage (ok : s.memoryOk) (reqId : BitVec 16) (img : SlotImage) : KeepsMemory (execImageStage reqId img s) :=
  .next (memoryOk_stageImage ok)

theorem keepsMemory_execImageTrial (ok : s.memoryOk) (reqId : BitVec 16) (left : BitVec 8) : KeepsMemory (execImageTrial reqId left s) :=
  .next (memoryOk_trialImage ok)

theorem keepsMemory_execRecordInstall (ok : s.memoryOk) (reqId : BitVec 16) (r : DeviceRecord) : KeepsMemory (execRecordInstall reqId r s) :=
  .next (memoryOk_installRecord ok)

theorem keepsMemory_execConfigWrite (ok : s.memoryOk) (reqId : BitVec 16) (c : BootConfig) : KeepsMemory (execConfigWrite reqId c s) :=
  .next (memoryOk_writeConfig ok)

theorem keepsMemory_execMgtResetCompute (ok : s.memoryOk) (reqId : BitVec 16) : KeepsMemory (execMgtResetCompute reqId s) :=
  .next (memoryOk_resetCompute ok)

theorem keepsMemory_execWarmStart (ok : s.memoryOk) (reqId : BitVec 16) (env : StartEnv) : KeepsMemory (execWarmStart reqId env s) :=
  .next (memoryOk_resetWarm ok)

theorem keepsMemory_execColdRestart (ok : s.memoryOk) (reqId : BitVec 16) : KeepsMemory (execColdRestart reqId s) := .next (memoryOk_resetCold ok)

theorem keepsMemory_execAnchorAdd (ok : s.memoryOk) (reqId : BitVec 16) (cert : BitVec 384) : KeepsMemory (execAnchorAdd reqId cert s) :=
  .next (memoryOk_addAnchor ok)

theorem keepsMemory_execAnchorRemove (ok : s.memoryOk) (reqId : BitVec 16) (digest : BitVec 384) : KeepsMemory (execAnchorRemove reqId digest s) :=
  .next (memoryOk_removeAnchor ok)

theorem keepsMemory_execTelemetryRead (ok : s.memoryOk) (reqId : BitVec 16) (block inst : Byte)
    : KeepsMemory (execTelemetryRead reqId block inst s) :=
  .next (memoryOk_readTelemetry ok)

theorem keepsMemory_execTlsHandshake (ok : s.memoryOk) (anchor : BitVec 384) (notAfterNs : Nat) (suiteOk : Bool)
    : KeepsMemory (execTlsHandshake anchor notAfterNs suiteOk s) :=
  .next (memoryOk_handshake ok)

theorem keepsMemory_execGetVersion (ok : s.memoryOk) (reqId : BitVec 16) : KeepsMemory (execGetVersion reqId s) := .next (memoryOk_spdm ok)

theorem keepsMemory_execGetCapabilities (ok : s.memoryOk) (reqId : BitVec 16) : KeepsMemory (execGetCapabilities reqId s) := .next (memoryOk_spdm ok)

theorem keepsMemory_execNegotiateAlgorithms (ok : s.memoryOk) (reqId : BitVec 16) : KeepsMemory (execNegotiateAlgorithms reqId s) :=
  .next (memoryOk_spdm ok)

theorem keepsMemory_execGetDigests (ok : s.memoryOk) (reqId : BitVec 16) : KeepsMemory (execGetDigests reqId s) := .next (memoryOk_spdm ok)

theorem keepsMemory_execGetCertificate (ok : s.memoryOk) (reqId : BitVec 16) (slot : Fin 8) : KeepsMemory (execGetCertificate reqId slot s) :=
  .next (memoryOk_ite (memoryOk_spdm ok) (memoryOk_spdmUnsupported ok))

theorem keepsMemory_execChallenge (ok : s.memoryOk) (reqId : BitVec 16) (slot : Fin 8) (nonce : BitVec 256)
    : KeepsMemory (execChallenge reqId slot nonce s) :=
  .next (memoryOk_ite (memoryOk_spdm ok) (memoryOk_spdmUnsupported ok))

theorem keepsMemory_execGetMeasurements (ok : s.memoryOk) (reqId : BitVec 16) (index : Byte) (nonce : BitVec 256)
    : KeepsMemory (execGetMeasurements reqId index nonce s) :=
  .next (memoryOk_spdmMeasure ok)

theorem keepsMemory_execSpdmUnsupported (ok : s.memoryOk) (reqId : BitVec 16) (code : Byte) : KeepsMemory (execSpdmUnsupported reqId code s) :=
  .next (memoryOk_spdmUnsupported ok)

theorem keepsMemory_execModuleRetrainDone (ok : s.memoryOk) (m : Fin 4) : KeepsMemory (execModuleRetrainDone m s) := .next (memoryOk_moduleBack ok)

theorem keepsMemory_execMgtPortLink (ok : s.memoryOk) (up : Bool) (tenG : Bool) : KeepsMemory (execMgtPortLink up tenG s) :=
  .next (memoryOk_portLink ok)

theorem keepsMemory_execUndefinedBlock (ok : s.memoryOk) (port : Fin 32) (b : Block) : KeepsMemory (execUndefinedBlock port b s) :=
  .next (memoryOk_ite (memoryOk_takeBlock ok fun _ ht => memoryOk_bump ht _ _ _) ok)

theorem keepsMemory_exec (ok : s.memoryOk) (i : Instr) : KeepsMemory (exec i s) := by
  cases i with
  | nop e => exact keepsMemory_execNop ok e
  | ctxBind e => exact keepsMemory_execCtxBind ok e
  | ctxUnbind e => exact keepsMemory_execCtxUnbind ok e
  | extCreate e => exact keepsMemory_execExtCreate ok e
  | extResize e => exact keepsMemory_execExtResize ok e
  | extPin e => exact keepsMemory_execExtPin ok e
  | extUnpin e => exact keepsMemory_execExtUnpin ok e
  | extRevoke e => exact keepsMemory_execExtRevoke ok e
  | extDestroy e => exact keepsMemory_execExtDestroy ok e
  | extUpdateSet e => exact keepsMemory_execExtUpdateSet ok e
  | domCreate e => exact keepsMemory_execDomCreate ok e
  | domForm e => exact keepsMemory_execDomForm ok e
  | domStop e => exact keepsMemory_execDomStop ok e
  | domDestroy e => exact keepsMemory_execDomDestroy ok e
  | tableInvalidate e => exact keepsMemory_execTableInvalidate ok e
  | prgCheck e => exact keepsMemory_execPrgCheck ok e
  | tickSet e => exact keepsMemory_execTickSet ok e
  | policySet e => exact keepsMemory_execPolicySet ok e
  | lnkCmdTrain e => exact keepsMemory_execLnkCmdTrain ok e
  | lnkCmdRetrain e => exact keepsMemory_execLnkCmdRetrain ok e
  | lnkCmdReset e => exact keepsMemory_execLnkCmdReset ok e
  | lnkCmdDisable e => exact keepsMemory_execLnkCmdDisable ok e
  | lnkCmdEnable e => exact keepsMemory_execLnkCmdEnable ok e
  | xltInvalidate q => exact keepsMemory_execXltInvalidate ok q
  | xltResume q => exact keepsMemory_execXltResume ok q
  | xltAbort q => exact keepsMemory_execXltAbort ok q
  | hostBulk e => exact keepsMemory_execHostBulk ok e
  | tierFlush e => exact keepsMemory_execTierFlush ok e
  | admitResume e => exact keepsMemory_execAdmitResume ok e
  | computeReset e => exact keepsMemory_execComputeReset ok e
  | devQuery e => exact keepsMemory_execDevQuery ok e
  | extQuery e => exact keepsMemory_execExtQuery ok e
  | parcelQuery e => exact keepsMemory_execParcelQuery ok e
  | commandTake => exact keepsMemory_execCommandTake ok
  | heldCompletionPost ring => exact keepsMemory_execHeldCompletionPost ok ring
  | eventPost ev => exact keepsMemory_execEventPost ok ev
  | heldEventPost => exact keepsMemory_execHeldEventPost ok
  | logRecord r => exact keepsMemory_execLogRecord ok r
  | traceRecord tp core arg0 arg1 arg2 => exact keepsMemory_execTraceRecord ok tp core arg0 arg1 arg2
  | ringVectorSignal ring => exact keepsMemory_execRingVectorSignal ok ring
  | cmdHeadWrite ring value => exact keepsMemory_execCmdHeadWrite ok ring value
  | ringTailWrite ring value => exact keepsMemory_execRingTailWrite ok ring value
  | ringEnable ring value => exact keepsMemory_execRingEnable ok ring value
  | ringBaseWrite ring value => exact keepsMemory_execRingBaseWrite ok ring value
  | epochPolicy => exact keepsMemory_execEpochPolicy ok
  | watchdogReset core => exact keepsMemory_execWatchdogReset ok core
  | taskReassign => exact keepsMemory_execTaskReassign ok
  | tableSwitchReq by' t value cycle => exact keepsMemory_execTableSwitchReq ok by' t value cycle
  | tableBaseWrite by' t bank value cycle => exact keepsMemory_execTableBaseWrite ok by' t bank value cycle
  | tableSwitch t => exact keepsMemory_execTableSwitch ok t
  | oldFreeSet t => exact keepsMemory_execOldFreeSet ok t
  | sluicePortSwitch port => exact keepsMemory_execSluicePortSwitch ok port
  | invalidateEffect => exact keepsMemory_execInvalidateEffect ok
  | xltInvEffect => exact keepsMemory_execXltInvEffect ok
  | policySetEffect => exact keepsMemory_execPolicySetEffect ok
  | extentDrained ext => exact keepsMemory_execExtentDrained ok ext
  | pinDone ext => exact keepsMemory_execPinDone ok ext
  | repin => exact keepsMemory_execRepin ok
  | tickPeriodApply => exact keepsMemory_execTickPeriodApply ok
  | tickBoundary env => exact keepsMemory_execTickBoundary ok env
  | demandReport => exact keepsMemory_execDemandReport ok
  | shareMessage lost => exact keepsMemory_execShareMessage ok lost
  | ebbBook tile => exact keepsMemory_execEbbBook ok tile
  | packetArrival port linkVc pkt => exact keepsMemory_execPacketArrival ok port linkVc pkt
  | transitForward port linkVc => exact keepsMemory_execTransitForward ok port linkVc
  | filterHeldRetry port linkVc => exact keepsMemory_execFilterHeldRetry ok port linkVc
  | routeMissFill port linkVc => exact keepsMemory_execRouteMissFill ok port linkVc
  | echo port pkt => exact keepsMemory_execEcho ok port pkt
  | timeBeacon port pkt localNs => exact keepsMemory_execTimeBeacon ok port pkt localNs
  | beaconSend => exact keepsMemory_execBeaconSend ok
  | ppsEdge localNs => exact keepsMemory_execPpsEdge ok localNs
  | holdover => exact keepsMemory_execHoldover ok
  | timeLockWaitEnd waitedMs => exact keepsMemory_execTimeLockWaitEnd ok waitedMs
  | batch port pkt => exact keepsMemory_execBatch ok port pkt
  | assemblyTimeout port => exact keepsMemory_execAssemblyTimeout ok port
  | lookupBatch port => exact keepsMemory_execLookupBatch ok port
  | read port => exact keepsMemory_execRead ok port
  | write port => exact keepsMemory_execWrite ok port
  | push port => exact keepsMemory_execPush ok port
  | atomic port => exact keepsMemory_execAtomic ok port
  | bulkRead port => exact keepsMemory_execBulkRead ok port
  | bulkCopy port => exact keepsMemory_execBulkCopy ok port
  | rdS tile => exact keepsMemory_execRdS ok tile
  | rdX tile => exact keepsMemory_execRdX ok tile
  | upg tile => exact keepsMemory_execUpg ok tile
  | wb tile => exact keepsMemory_execWb ok tile
  | wbs tile => exact keepsMemory_execWbs ok tile
  | evs tile => exact keepsMemory_execEvs ok tile
  | rspAck port pkt => exact keepsMemory_execRspAck ok port pkt
  | rspData port pkt => exact keepsMemory_execRspData ok port pkt
  | recallExpire tile => exact keepsMemory_execRecallExpire ok tile
  | snoopSend tile => exact keepsMemory_execSnoopSend ok tile
  | snoopTimeout tile => exact keepsMemory_execSnoopTimeout ok tile
  | domainDown domain => exact keepsMemory_execDomainDown ok domain
  | domainSweep tile lines => exact keepsMemory_execDomainSweep ok tile lines
  | rowPhase rid => exact keepsMemory_execRowPhase ok rid
  | flashSense rid => exact keepsMemory_execFlashSense ok rid
  | sectorTransfer rid => exact keepsMemory_execSectorTransfer ok rid
  | fillWrite rid => exact keepsMemory_execFillWrite ok rid
  | confluence rid => exact keepsMemory_execConfluence ok rid
  | resultSend rid => exact keepsMemory_execResultSend ok rid
  | landing => exact keepsMemory_execLanding ok
  | pushCompletion rid => exact keepsMemory_execPushCompletion ok rid
  | atomicResult rid => exact keepsMemory_execAtomicResult ok rid
  | writeAck rid => exact keepsMemory_execWriteAck ok rid
  | grantSend rid => exact keepsMemory_execGrantSend ok rid
  | bulkWalk rid => exact keepsMemory_execBulkWalk ok rid
  | faultRecordWrite tile => exact keepsMemory_execFaultRecordWrite ok tile
  | groupClose tile => exact keepsMemory_execGroupClose ok tile
  | bulkReadmit rid => exact keepsMemory_execBulkReadmit ok rid
  | bulkChunk rid => exact keepsMemory_execBulkChunk ok rid
  | bulkCompletion rid => exact keepsMemory_execBulkCompletion ok rid
  | lateResultDrop port => exact keepsMemory_execLateResultDrop ok port
  | packetSendSelect port ns => exact keepsMemory_execPacketSendSelect ok port ns
  | backgroundFetchFill parcel group => exact keepsMemory_execBackgroundFetchFill ok parcel group
  | ebbClean tile => exact keepsMemory_execEbbClean ok tile
  | programConfirm tile => exact keepsMemory_execProgramConfirm ok tile
  | programFail die erase => exact keepsMemory_execProgramFail ok die erase
  | sectorRebuild parcel group secondFails => exact keepsMemory_execSectorRebuild ok parcel group secondFails
  | relocate parcel group => exact keepsMemory_execRelocate ok parcel group
  | repairRewrite stack pc => exact keepsMemory_execRepairRewrite ok stack pc
  | dredgeRead stack pc => exact keepsMemory_execDredgeRead ok stack pc
  | patrolRead tile fmc channel bad => exact keepsMemory_execPatrolRead ok tile fmc channel bad
  | lapSlow tile => exact keepsMemory_execLapSlow ok tile
  | calProbe stack pc minusOk plusOk => exact keepsMemory_execCalProbe ok stack pc minusOk plusOk
  | refresh stack => exact keepsMemory_execRefresh ok stack
  | pmbusPoll p => exact keepsMemory_execPmbusPoll ok p
  | pmbAlert status => exact keepsMemory_execPmbAlert ok status
  | capTestStart => exact keepsMemory_execCapTestStart ok
  | capTestDone chargeMilliCoulomb => exact keepsMemory_execCapTestDone ok chargeMilliCoulomb
  | pwrFail => exact keepsMemory_execPwrFail ok
  | discardNoticeSend => exact keepsMemory_execDiscardNoticeSend ok
  | drainBegin => exact keepsMemory_execDrainBegin ok
  | drainEnergyStop => exact keepsMemory_execDrainEnergyStop ok
  | checkpointWrite measuredCj => exact keepsMemory_execCheckpointWrite ok measuredCj
  | pwrFailDeassert => exact keepsMemory_execPwrFailDeassert ok
  | mainPgFall => exact keepsMemory_execMainPgFall ok
  | coldRstN level => exact keepsMemory_execColdRstN ok level
  | auxRstN level strapTest strapAuxclk => exact keepsMemory_execAuxRstN ok level strapTest strapAuxclk
  | coldStart env => exact keepsMemory_execColdStart ok env
  | hostAlive value => exact keepsMemory_execHostAlive ok value
  | hostBootTimeout waitedMs => exact keepsMemory_execHostBootTimeout ok waitedMs
  | hostResetReq => exact keepsMemory_execHostResetReq ok
  | moduleRetrain m lanes => exact keepsMemory_execModuleRetrain ok m lanes
  | moduleDown m => exact keepsMemory_execModuleDown ok m
  | hostRead addr size => exact keepsMemory_execHostRead ok addr size
  | write256 addr data poison => exact keepsMemory_execWrite256 ok addr data poison
  | write64 addr data poison => exact keepsMemory_execWrite64 ok addr data poison
  | hostAccessDeferred m => exact keepsMemory_execHostAccessDeferred ok m
  | vecUnmask v => exact keepsMemory_execVecUnmask ok v
  | registerWrite by' addr size value => exact keepsMemory_execRegisterWrite ok by' addr size value
  | evtForce by' page value => exact keepsMemory_execEvtForce ok by' page value
  | evtStatusClear by' page value => exact keepsMemory_execEvtStatusClear ok by' page value
  | errLogClear by' page value => exact keepsMemory_execErrLogClear ok by' page value
  | computeResetStop => exact keepsMemory_execComputeResetStop ok
  | computeResetAssert => exact keepsMemory_execComputeResetAssert ok
  | firmwareRestart entropy => exact keepsMemory_execFirmwareRestart ok entropy
  | engineCheck failed => exact keepsMemory_execEngineCheck ok failed
  | tileFault block tile inst cycle => exact keepsMemory_execTileFault ok block tile inst cycle
  | thermalSample t => exact keepsMemory_execThermalSample ok t
  | thermalTrip => exact keepsMemory_execThermalTrip ok
  | dataBlock port b ns => exact keepsMemory_execDataBlock ok port b ns
  | idleBlock port b ns => exact keepsMemory_execIdleBlock ok port b ns
  | nak port b ns => exact keepsMemory_execNak ok port b ns
  | blockCrcFail port b uncorrectable => exact keepsMemory_execBlockCrcFail ok port b uncorrectable
  | nakRetry port ns => exact keepsMemory_execNakRetry ok port ns
  | replayTimeout port ns => exact keepsMemory_execReplayTimeout ok port ns
  | linkId port b => exact keepsMemory_execLinkId ok port b
  | rttProbe port b => exact keepsMemory_execRttProbe ok port b
  | rttReply port b ns => exact keepsMemory_execRttReply ok port b ns
  | initDone port b => exact keepsMemory_execInitDone ok port b
  | retrainReq port b => exact keepsMemory_execRetrainReq ok port b
  | follow port b => exact keepsMemory_execFollow ok port b
  | trainDone port mine peer => exact keepsMemory_execTrainDone ok port mine peer
  | trainTimeout port elapsedUs => exact keepsMemory_execTrainTimeout ok port elapsedUs
  | laneErr port lane => exact keepsMemory_execLaneErr ok port lane
  | lockLost port => exact keepsMemory_execLockLost ok port
  | probationEnd port => exact keepsMemory_execProbationEnd ok port
  | trainRetry port => exact keepsMemory_execTrainRetry ok port
  | getState reqId => exact keepsMemory_execGetState ok reqId
  | assign reqId body => exact keepsMemory_execAssign ok reqId body
  | assignDone => exact keepsMemory_execAssignDone ok
  | release reqId => exact keepsMemory_execRelease ok reqId
  | releaseStop => exact keepsMemory_execReleaseStop ok
  | purgeBegin => exact keepsMemory_execPurgeBegin ok
  | purgeDone => exact keepsMemory_execPurgeDone ok
  | clear reqId => exact keepsMemory_execClear ok reqId
  | licenceInstall reqId l => exact keepsMemory_execLicenceInstall ok reqId l
  | licenceRemove reqId seq => exact keepsMemory_execLicenceRemove ok reqId seq
  | imageStage reqId img => exact keepsMemory_execImageStage ok reqId img
  | imageTrial reqId left => exact keepsMemory_execImageTrial ok reqId left
  | recordInstall reqId r => exact keepsMemory_execRecordInstall ok reqId r
  | configWrite reqId c => exact keepsMemory_execConfigWrite ok reqId c
  | mgtResetCompute reqId => exact keepsMemory_execMgtResetCompute ok reqId
  | warmStart reqId env => exact keepsMemory_execWarmStart ok reqId env
  | coldRestart reqId => exact keepsMemory_execColdRestart ok reqId
  | anchorAdd reqId cert => exact keepsMemory_execAnchorAdd ok reqId cert
  | anchorRemove reqId digest => exact keepsMemory_execAnchorRemove ok reqId digest
  | telemetryRead reqId block inst => exact keepsMemory_execTelemetryRead ok reqId block inst
  | tlsHandshake anchor notAfterNs suiteOk => exact keepsMemory_execTlsHandshake ok anchor notAfterNs suiteOk
  | getVersion reqId => exact keepsMemory_execGetVersion ok reqId
  | getCapabilities reqId => exact keepsMemory_execGetCapabilities ok reqId
  | negotiateAlgorithms reqId => exact keepsMemory_execNegotiateAlgorithms ok reqId
  | getDigests reqId => exact keepsMemory_execGetDigests ok reqId
  | getCertificate reqId slot => exact keepsMemory_execGetCertificate ok reqId slot
  | challenge reqId slot nonce => exact keepsMemory_execChallenge ok reqId slot nonce
  | getMeasurements reqId index nonce => exact keepsMemory_execGetMeasurements ok reqId index nonce
  | spdmUnsupported reqId code => exact keepsMemory_execSpdmUnsupported ok reqId code
  | moduleRetrainDone m => exact keepsMemory_execModuleRetrainDone ok m
  | mgtPortLink up tenG => exact keepsMemory_execMgtPortLink ok up tenG
  | undefinedBlock port b => exact keepsMemory_execUndefinedBlock ok port b

theorem keepsMemory_step (ok : s.memoryOk) : KeepsMemory (step s) := by
  unfold step
  split
  · exact .next ok
  · exact keepsMemory_exec (memoryOk_update ok) _

end Sys2Proof.Machine
end

section
/-! PROOF. Obligation O59. -/

namespace Sys2Proof.Machine

/-- Settles O59: every operation of the state keeps the canonical form, so every instruction does, and with it the step. -/
theorem memoryStaysCanonical : Obligations.MemoryStaysCanonical := fun _ _ ok e => keepsMemory_step ok _ e

end Sys2Proof.Machine
end

section
/-! PROOF. Bytes and words: a word string read back from its bytes. -/

namespace Sys2Proof.Machine

theorem leBytes_succ (n v : Nat) : leBytes (n + 1) v = BitVec.ofNat 8 v :: leBytes n (v / 256) := by
  simp [leBytes, List.range_succ_eq_map, Function.comp_def, Nat.pow_succ', Nat.div_div_eq_div_mul]

@[simp] theorem length_leBytes (n v : Nat) : (leBytes n v).length = n := by simp [leBytes]

theorem leNat_leBytes (n : Nat) : ∀ v, leNat (leBytes n v) = v % 256 ^ n := by
  induction n with
  | zero => intro v; simp [leBytes, leNat, Nat.mod_one]
  | succ n ih => intro v; rw [leBytes_succ, leNat, ih, Nat.pow_succ', Nat.mod_mul, BitVec.toNat_ofNat]

theorem wordsBytes_cons (w : Word) (ws : List Word) : wordsBytes (w :: ws) = leBytes 8 w.toNat ++ wordsBytes ws := by simp [wordsBytes]

@[simp] theorem length_wordsBytes (ws : List Word) : (wordsBytes ws).length = 8 * ws.length := by
  induction ws with
  | nil => rfl
  | cons w ws ih => rw [wordsBytes_cons, List.length_append, length_leBytes, ih, List.length_cons]; omega

theorem bytesWords_succ (n : Nat) (bs : List Byte) : bytesWords (n + 1) bs = BitVec.ofNat 64 (leNat (bs.take 8)) :: bytesWords n (bs.drop 8) := by
  simp [bytesWords, List.range_succ_eq_map, Function.comp_def, Nat.mul_add, Nat.add_comm]

theorem bytesWords_wordsBytes (ws : List Word) : bytesWords ws.length (wordsBytes ws) = ws := by
  induction ws with
  | nil => rfl
  | cons w ws ih =>
    have hw : BitVec.ofNat 64 (w.toNat % 256 ^ 8) = w := by
      rw [Nat.mod_eq_of_lt (by have := w.isLt; omega), BitVec.ofNat_toNat, BitVec.setWidth_eq]
    rw [wordsBytes_cons, List.length_cons, bytesWords_succ, List.take_left' (length_leBytes 8 _), List.drop_left' (length_leBytes 8 _),
      leNat_leBytes, ih, hw]

end Sys2Proof.Machine
end

section
/-! PROOF. What a write to a region leaves alone beside memory: it counts and captures on the pages of the HMC blocks, which lie above those of the
device, and firmware's record of its signals is no part of it. -/

namespace Sys2Proof.Machine

/-- The registers of the pages below the tiles' and the ticks at which the rings last signalled are as before. -/
def State.keepsRings (s t : State) : Prop := t.fw.sigLast = s.fw.sigLast ∧ ∀ o < 0x400000, t.reg o = s.reg o

namespace State

variable {s t : State}

theorem keepsRings_refl (s : State) : s.keepsRings s := ⟨rfl, fun _ _ => rfl⟩

/-- An update of other parts. -/
theorem keepsRings_update {u : State} (h : s.keepsRings t) (hr : u.regs = t.regs) (hf : u.fw.sigLast = t.fw.sigLast) : s.keepsRings u :=
  ⟨hf.trans h.1, fun o ho => (congrArg (fun m => sget resetReg m o) hr).trans (h.2 o ho)⟩

theorem keepsRings_ite {u : State} {c : Prop} [Decidable c] (h : s.keepsRings t) (k : s.keepsRings u) : s.keepsRings (if c then t else u) := by
  split_ifs <;> assumption

theorem keepsRings_foldl {β : Type} {f : State → β → State} (h : s.keepsRings t) (step : ∀ u b, s.keepsRings u → s.keepsRings (f u b)) (l : List β) :
    s.keepsRings (l.foldl f t) := by
  induction l generalizing t with
  | nil => exact h
  | cons b l ih => exact ih (step t b h)

theorem keepsRings_setReg (h : s.keepsRings t) {o : Nat} (ho : 0x400000 ≤ o) (w : Word) : s.keepsRings (t.setReg o w) :=
  ⟨h.1, fun x hx => (t.reg_setReg_ne (by omega) w).trans (h.2 x hx)⟩

/-- The HMC pages are pages of the tiles. -/
theorem le_rOff_hmc (i o : Nat) : 0x400000 ≤ rOff .hmc i o := by simp only [rOff, Blk.base]; omega

theorem keepsRings_bump (h : s.keepsRings t) (i c : Nat) : s.keepsRings (t.bump .hmc i c) :=
  keepsRings_ite h (keepsRings_setReg h (le_rOff_hmc i c) _)

theorem keepsRings_capture (h : s.keepsRings t) (i : Nat) (e : ErrInfo) : s.keepsRings (t.capture .hmc i e) := by
  have ho : 0x400000 ≤ rOff .hmc i 0x40 := le_rOff_hmc i 0x40
  unfold capture
  simp only
  split
  · exact keepsRings_setReg h ho _
  · iterate 8 refine keepsRings_setReg ?_ (by omega) _
    split
    · exact h
    · exact keepsRings_update h rfl rfl

theorem keepsRings_withHmc (h : s.keepsRings t) (x : Hmc) : s.keepsRings { t with hmc := x } := keepsRings_update h rfl rfl

theorem keepsRings_oweSignal (h : s.keepsRings t) (st k : Nat) : s.keepsRings (t.oweSignal st k) := by
  unfold oweSignal
  exact keepsRings_setReg (keepsRings_ite (keepsRings_withHmc h _) h) (le_rOff_hmc st 0x20) _

theorem keepsRings_queueRepair (h : s.keepsRings t) (ln : Nat) (d : Option (List Byte × Bool)) : s.keepsRings (t.queueRepair ln d) :=
  keepsRings_ite h (keepsRings_ite (keepsRings_bump h _ _) (keepsRings_withHmc h _))

theorem keepsRings_mergeRead (h : s.keepsRings t) (ln : Nat) (bad : Bool) : s.keepsRings (t.mergeRead ln bad) := by
  have counted := keepsRings_bump h (stackOf ln) 0x100
  have captured := fun e => keepsRings_capture (keepsRings_bump counted (stackOf ln) 0x118) (stackOf ln) e
  have poisoned : ∀ (u : State) (c : Bool), s.keepsRings u →
      s.keepsRings (if c then (u.bump .hmc (stackOf ln) 0x140).oweSignal (stackOf ln) 1 else u) :=
    fun u c hu => keepsRings_ite (keepsRings_oweSignal (keepsRings_bump hu _ _) _ _) hu
  exact poisoned _ _ (keepsRings_ite (keepsRings_queueRepair (keepsRings_oweSignal (keepsRings_ite (captured _)
    (keepsRings_bump (captured _) _ _)) _ _) _ _) counted)

theorem keepsRings_dropRewrite (h : s.keepsRings t) (ln : Nat) : s.keepsRings (t.dropRewrite ln) :=
  keepsRings_ite (keepsRings_bump (keepsRings_withHmc h _) _ _) h

theorem keepsRings_wrBs (h : s.keepsRings t) (p : Nat) (bs : List Byte) : s.keepsRings (t.wrBs p bs) :=
  keepsRings_update h (wrBs_changes bs t p .regs (by simp)) (congrArg Fw.sigLast (wrBs_changes bs t p .fw (by simp)))

theorem keepsRings_writeLine (h : s.keepsRings t) (p : Nat) (bs : List Byte) (poison bad : Bool) (fmt : BitVec 4) (mirror : Bool) (tag : Option Nat) :
    s.keepsRings (t.writeLine p bs poison bad fmt mirror tag) := by
  have copied : ∀ (u : State) (c : Bool) (m : List (Nat × List Byte)), s.keepsRings u →
      s.keepsRings (if c then u else { u with fw := { u.fw with masters := m } }) := fun u c m hu => keepsRings_ite hu (keepsRings_update hu rfl rfl)
  have labelled : ∀ (u : State) (m : LineMeta), s.keepsRings u → s.keepsRings (u.setMeta (p / 256) m) := fun u m hu => keepsRings_update hu rfl rfl
  have counted : ∀ (u : State) (c : Bool) (k : Nat), s.keepsRings u → s.keepsRings (if c then u.bump .hmc (stackOf (p / 256)) k else u) :=
    fun u c k hu => keepsRings_ite (keepsRings_bump hu _ _) hu
  have narrow : ∀ (u : State) (c : Bool) (k : Nat), s.keepsRings u → s.keepsRings (if c then u else u.bump .hmc (stackOf (p / 256)) k) :=
    fun u c k hu => keepsRings_ite hu (keepsRings_bump hu _ _)
  unfold writeLine
  simp only
  exact keepsRings_dropRewrite (narrow _ _ _ (counted _ _ _ (keepsRings_bump (labelled _ _ (copied _ _ _ (keepsRings_wrBs
    (keepsRings_ite h (keepsRings_mergeRead h _ _)) p bs))) _ _))) _

theorem keepsRings_writeRegion (h : s.keepsRings t) (a : Nat) (bs : List Byte) (poison : Bool) : s.keepsRings (t.writeRegion a bs poison) :=
  keepsRings_foldl h (fun u pb hu => by
    split
    · exact keepsRings_writeLine hu _ _ _ _ _ _ _
    · exact hu) _

theorem keepsRings_writeWords (h : s.keepsRings t) (a : Nat) (ws : List Word) : s.keepsRings (t.writeWords a ws) := keepsRings_writeRegion h _ _ _

theorem keepsRings_shadow (h : s.keepsRings t) (o v : Nat) : s.keepsRings (t.shadow o v) := keepsRings_writeWords h _ _

theorem keepsRings_useFwSlots (h : s.keepsRings t) (a n : Nat) : s.keepsRings (t.useFwSlots a n) :=
  keepsRings_foldl h (fun u i hu => by
    split
    · exact keepsRings_update hu rfl rfl
    · exact hu) _

end State

end Sys2Proof.Machine
end

section
/-! PROOF. Writes to the host and control regions within one line: where the bytes go, and what the region reads as afterwards. -/

namespace Sys2Proof.Machine.State

variable {s t : State}

/-! ### Places -/

/-- Where a region lies is a matter of EXT_MAP alone. -/
theorem regionPhys_congr (h : t.reg (rOff .ext 0 0x300) = s.reg (rOff .ext 0 0x300)) (a : Nat) : t.regionPhys a = s.regionPhys a := by
  have hf : ∀ hi lo, t.fld (rOff .ext 0 0x300) hi lo = s.fld (rOff .ext 0 0x300) hi lo := fun hi lo => congrArg (bits · hi lo) h
  simp only [regionPhys, win, ctlPhys, hostUnits, hf]

/-- A line of a region lies in one piece: every window begins and ends at a line's boundary, and the interleave keeps pages whole. -/
theorem regionPhys_line {a i : Nat} (hi : a % 256 + i < 256) : s.regionPhys (a + i) = (s.regionPhys a).map (· + i) := by
  have host : ∀ o, o % 256 = a % 256 → hostPhys (o + i) = hostPhys o + i := fun o ho => by
    simp only [hostPhys, show (o + i) / 4096 = o / 4096 by omega]; omega
  have ctl : ∀ o, o % 256 = a % 256 → s.ctlPhys (o + i) = s.ctlPhys o + i := fun o ho => by
    simp only [ctlPhys, show (o + i) / 4096 = o / 4096 by omega]; omega
  unfold regionPhys win
  generalize s.fld (rOff .ext 0 0x300) 15 0 = low
  generalize s.fld (rOff .ext 0 0x300) 31 16 = high
  have hlow : 0x80000000 ≤ a + i ∧ a + i < 0x80000000 + low * 2 ^ 30 ↔ 0x80000000 ≤ a ∧ a < 0x80000000 + low * 2 ^ 30 := by omega
  have hreg : 0x1000000000 ≤ a + i ∧ a + i < 0x1001000000 ↔ 0x1000000000 ≤ a ∧ a < 0x1001000000 := by omega
  have hhigh : 0x1100000000 ≤ a + i ∧ a + i < 0x1100000000 + high * 2 ^ 30 ↔ 0x1100000000 ≤ a ∧ a < 0x1100000000 + high * 2 ^ 30 := by omega
  have hctl : 0x10000000000 ≤ a + i ∧ a + i < 0x10200000000 ↔ 0x10000000000 ≤ a ∧ a < 0x10200000000 := by omega
  have hpool : 0x400000000000 ≤ a + i ∧ a + i < 0x800000000000 ↔ 0x400000000000 ≤ a ∧ a < 0x800000000000 := by omega
  simp only [hlow, hreg, hhigh, hctl, hpool]
  split_ifs with h1 h2 h3 h4 h5
  · rw [Nat.sub_add_comm h1.1]; exact congrArg some (host _ (by omega))
  · rfl
  · rw [Nat.sub_add_comm h3.1, ← Nat.add_assoc]; exact congrArg some (host _ (by omega))
  · rw [Nat.sub_add_comm h4.1]; exact congrArg some (ctl _ (by omega))
  · rfl
  · rfl

/-! ### A line write -/

@[simp] theorem bump_hbm (s : State) (b : Blk) (i c : Nat) : (s.bump b i c).hbm = s.hbm := s.bump_changes b i c .hbm (by simp)

@[simp] theorem mergeRead_hbm (s : State) (ln : Nat) (bad : Bool) : (s.mergeRead ln bad).hbm = s.hbm := s.mergeRead_changes ln bad .hbm (by simp)

@[simp] theorem dropRewrite_hbm (s : State) (ln : Nat) : (s.dropRewrite ln).hbm = s.hbm := s.dropRewrite_changes ln .hbm (by simp)

theorem rdB_congr (h : t.hbm = s.hbm) (x : Nat) : t.rdB x = s.rdB x := congrArg (fun m => sget cellDefault m x) h

/-- A line write stores its bytes; all else that it does is to counters, captures, repairs and metadata. -/
theorem writeLine_hbm (s : State) (p : Nat) (bs : List Byte) (poison bad : Bool) (fmt : BitVec 4) (mirror : Bool) (tag : Option Nat) :
    ∃ u : State, u.hbm = s.hbm ∧ (s.writeLine p bs poison bad fmt mirror tag).hbm = (u.wrBs p bs).hbm := by
  refine ⟨if decide (bs.length = 256) then s else s.mergeRead (p / 256) bad, ?_, ?_⟩
  · simp only [apply_ite State.hbm, mergeRead_hbm, ite_self]
  · simp only [writeLine, dropRewrite_hbm, apply_ite State.hbm, bump_hbm, setMeta_hbm, ite_self]

section
variable {p : Nat} {bs : List Byte} {poison bad : Bool} {fmt : BitVec 4} {mirror : Bool} {tag : Option Nat}

theorem rdB_writeLine_of_not_mem {x : Nat} (hx : x < p ∨ p + bs.length ≤ x) : (s.writeLine p bs poison bad fmt mirror tag).rdB x = s.rdB x := by
  obtain ⟨u, hu, hw⟩ := s.writeLine_hbm p bs poison bad fmt mirror tag
  rw [rdB_congr hw, rdB_wrBs_of_not_mem bs u p x hx, rdB_congr hu]

theorem rdB_writeLine_of_mem {i : Nat} (hi : i < bs.length) : (s.writeLine p bs poison bad fmt mirror tag).rdB (p + i) = bs[i] := by
  obtain ⟨u, -, hw⟩ := s.writeLine_hbm p bs poison bad fmt mirror tag
  rw [rdB_congr hw, rdB_wrBs_of_mem bs u p i hi]

end

/-! ### A region write within one line -/

variable {a n b : Nat} {bs : List Byte}

theorem pieces_line (hb : bs ≠ []) (hl : a % 256 + bs.length ≤ 256) : pieces (bs.length + 1) a bs = [(a, bs)] := by
  obtain ⟨c, cs, rfl⟩ := List.exists_cons_of_ne_nil hb
  have hlen : (c :: cs).length ≤ 256 - a % 256 := by omega
  rw [pieces, List.take_of_length_le hlen, List.drop_of_length_le hlen]
  · rfl
  · simp

/-- A write within one line is one line write, where the line is in a region. -/
theorem writeRegion_line (hb : bs ≠ []) (hl : a % 256 + bs.length ≤ 256) (s : State) (poison : Bool) : s.writeRegion a bs poison =
    (s.regionPhys a).elim s fun p => s.writeLine p bs poison (s.regionLineBad (p / 256)) 0 false none := by
  rw [writeRegion, pieces_line hb hl, List.foldl_cons, List.foldl_nil]
  cases s.regionPhys a <;> rfl

theorem regionPhys_writeRegion (s : State) (a : Nat) (bs : List Byte) (poison : Bool) (x : Nat) :
    (s.writeRegion a bs poison).regionPhys x = s.regionPhys x :=
  regionPhys_congr ((keepsRings_writeRegion (keepsRings_refl s) a bs poison).2 _ (by decide)) x

theorem readRegion_congr (h : ∀ i < n, t.regionPhys (a + i) = s.regionPhys (a + i) ∧ ∀ p, s.regionPhys (a + i) = some p → t.rdB p = s.rdB p) :
    t.readRegion a n = s.readRegion a n := by
  refine List.map_congr_left fun i hi => ?_
  obtain ⟨hp, hr⟩ := h i (List.mem_range.mp hi)
  rw [hp]
  cases e : s.regionPhys (a + i) with
  | none => rfl
  | some p => exact hr p e

/-- What was written within one line of a region is read back. -/
theorem readRegion_writeRegion_line (hl : a % 256 + bs.length ≤ 256) (h : s.placed a bs.length) (poison : Bool) :
    (s.writeRegion a bs poison).readRegion a bs.length = bs := by
  rcases eq_or_ne bs [] with rfl | hb
  · rfl
  refine List.ext_getElem (by simp [readRegion]) fun i _ hi => ?_
  obtain ⟨p, hp⟩ := Option.ne_none_iff_exists'.mp (h 0 (List.length_pos_iff.mpr hb))
  rw [Nat.add_zero] at hp
  have hpi : s.regionPhys (a + i) = some (p + i) := by rw [regionPhys_line (by omega), hp]; rfl
  simp only [readRegion, List.getElem_map, List.getElem_range, regionPhys_writeRegion, hpi]
  rw [writeRegion_line hb hl, hp]
  exact rdB_writeLine_of_mem hi

/-- A write within one line leaves every range apart from it. -/
theorem readRegion_writeRegion_apart (hb : bs ≠ []) (hl : b % 256 + bs.length ≤ 256) (h : s.apart a n b bs.length) (poison : Bool) :
    (s.writeRegion b bs poison).readRegion a n = s.readRegion a n := by
  refine readRegion_congr fun i hi => ⟨regionPhys_writeRegion s b bs poison _, fun p hp => ?_⟩
  rw [writeRegion_line hb hl]
  cases hq : s.regionPhys b with
  | none => rfl
  | some q =>
    refine rdB_writeLine_of_not_mem ?_
    by_contra hin
    have hj : p - q < bs.length := by omega
    refine h i hi (p - q) hj ?_
    rw [hp, regionPhys_line (by omega), hq, Option.map_some, Nat.add_sub_cancel' (by omega)]

/-! ### Words -/

variable {ws : List Word}

theorem readWords_writeWords_line (hl : a % 256 + 8 * ws.length ≤ 256) (h : s.placed a (8 * ws.length)) :
    (s.writeWords a ws).readWords a ws.length = ws := by
  rw [← length_wordsBytes] at hl h
  rw [readWords, writeWords, ← length_wordsBytes, readRegion_writeRegion_line hl h, bytesWords_wordsBytes]

theorem readWords_writeWords_apart (hw : ws ≠ []) (hl : b % 256 + 8 * ws.length ≤ 256) (h : s.apart a (8 * n) b (8 * ws.length)) :
    (s.writeWords b ws).readWords a n = s.readWords a n := by
  rw [← length_wordsBytes] at hl h
  have hb : wordsBytes ws ≠ [] := fun e => hw (List.eq_nil_of_length_eq_zero (by have := length_wordsBytes ws; rw [e] at this; simpa using this.symm))
  rw [readWords, writeWords, readRegion_writeRegion_apart hb hl h, readWords]

end Sys2Proof.Machine.State
end

section
/-! PROOF. Vectors and the moderation of the rings' signals (R381, R470). -/

namespace Sys2Proof.Machine.State

variable {s t u : State} {r : RingId} {v : Nat}

/-- Vector `v` is given toward the host die: a message, or its pending bit where it is masked (R470). -/
def gives (s : State) (v : Nat) (t : State) : Prop :=
  (bit (s.reg (rOff .uci 0 (0x240 + v / 64 * 8))) (v % 64) = false → t.out = s.out ++ [.msi v]) ∧
  (bit (s.reg (rOff .uci 0 (0x240 + v / 64 * 8))) (v % 64) = true →
    t.out = s.out ∧ bit (t.reg (rOff .uci 0 (0x280 + v / 64 * 8))) (v % 64) = true)

theorem vecSignal_of_masked (h : bit (s.reg (rOff .uci 0 (0x240 + v / 64 * 8))) (v % 64) = true) :
    s.vecSignal v = s.setReg (rOff .uci 0 (0x280 + v / 64 * 8)) (s.reg (rOff .uci 0 (0x280 + v / 64 * 8)) ||| place (v % 64) (v % 64) 1) := if_pos h

theorem vecSignal_of_unmasked (h : bit (s.reg (rOff .uci 0 (0x240 + v / 64 * 8))) (v % 64) = false) :
    s.vecSignal v = (s.emit (.msi v)).bump .uci 0 0x150 := if_neg (ne_true_of_eq_false h)

theorem vecSignal_gives (s : State) (v : Nat) : s.gives v (s.vecSignal v) := by
  refine ⟨fun h => ?_, fun h => ?_⟩
  · rw [vecSignal_of_unmasked h]
    exact bump_changes _ _ _ _ .out (by simp)
  · rw [vecSignal_of_masked h, reg_setReg_self]
    refine ⟨rfl, ?_⟩
    have hp : bit (place (v % 64) (v % 64) 1) (v % 64) = true := by
      rw [bit_place le_rfl, Nat.sub_self, decide_eq_true ⟨le_rfl, le_rfl, by omega⟩]; rfl
    rw [bit, BitVec.getLsbD_or]
    exact (congrArg _ hp).trans (Bool.or_true _)

theorem gives_congr (ho : u.out = s.out) (hr : u.reg (rOff .uci 0 (0x240 + v / 64 * 8)) = s.reg (rOff .uci 0 (0x240 + v / 64 * 8)))
    (h : u.gives v t) : s.gives v t := by
  rwa [gives, ho, hr] at h

/-- A vector's signal writes the UCI page alone. -/
theorem reg_vecSignal_ne (hv : v < 512) {x : Nat} (hx : 0x7000 ≤ x) : (s.vecSignal v).reg x = s.reg x := by
  cases h : bit (s.reg (rOff .uci 0 (0x240 + v / 64 * 8))) (v % 64) with
  | true => rw [vecSignal_of_masked h, reg_setReg_ne _ (by simp only [rOff, Blk.base]; omega)]
  | false => rw [vecSignal_of_unmasked h, reg_bump_ne _ (by simp only [rOff, Blk.base]; omega)]; rfl

/-! ### The moderation -/

/-- The ring's vector, VECTOR of its CFG. -/
theorem vector_lt (s : State) (r : RingId) : s.fld r.cfg 40 32 < 512 := Nat.mod_lt _ (by decide)

/-- The ring has signalled in this tick, and no signal of it is due. -/
def signalsNow (s : State) (r : RingId) : State :=
  { s with fw := { s.fw with sigLast := sset (fun _ => 0) s.fw.sigLast r.num (s.tick + 1), sigDue := sset (fun _ => 0) s.fw.sigDue r.num 0 } }

/-- No window of the ring is open: it has not signalled yet, or more than MOD_TICKS ticks have passed since (R381). -/
def windowOver (s : State) (r : RingId) : Prop :=
  sget (fun _ => 0) s.fw.sigLast r.num = 0 ∨ later s.tick (tadd (sget (fun _ => 0) s.fw.sigLast r.num - 1) (s.fld r.cfg 63 56)) = true

theorem ringSignal_of_over (h : s.windowOver r) : s.ringSignal r = (s.signalsNow r).vecSignal (s.fld r.cfg 40 32) := if_pos h

/-- A signal of the ring is due at the end of its window. -/
def signalsLater (s : State) (r : RingId) : State :=
  let ends := tadd (sget (fun _ => 0) s.fw.sigLast r.num - 1) (s.fld r.cfg 63 56 + 1)
  { s with fw := { s.fw with sigDue := sset (fun _ => 0) s.fw.sigDue r.num (ends + 1) } }

theorem signalsLater_due (s : State) (r : RingId) : sget (fun _ => 0) (s.signalsLater r).fw.sigDue r.num =
    tadd (sget (fun _ => 0) s.fw.sigLast r.num - 1) (s.fld r.cfg 63 56 + 1) + 1 := by
  simp only [signalsLater, sget_sset_self]

theorem ringSignal_of_open (h : ¬ s.windowOver r) : s.ringSignal r = s.signalsLater r := if_neg h

theorem signalDue_of_due (hd : sget (fun _ => 0) s.fw.sigDue r.num ≠ 0) (ht : tle (sget (fun _ => 0) s.fw.sigDue r.num - 1) s.tick = true) :
    s.signalDue r = (s.signalsNow r).vecSignal (s.fld r.cfg 40 32) := if_pos ⟨hd, ht⟩

theorem signalDue_of_not_due (h : sget (fun _ => 0) s.fw.sigDue r.num = 0 ∨ later (sget (fun _ => 0) s.fw.sigDue r.num - 1) s.tick = true) :
    s.signalDue r = s := if_neg fun hdue => by
  obtain ⟨hd, ht⟩ := hdue
  rcases h with h | h
  · exact hd h
  · simp [tle, h] at ht

/-- What a signal given now leaves: the ring's record, its vector given, nothing else. -/
theorem signalsNow_vecSignal (s : State) (r : RingId) (v : Nat) :
    sget (fun _ => 0) ((s.signalsNow r).vecSignal v).fw.sigDue r.num = 0 ∧
      sget (fun _ => 0) ((s.signalsNow r).vecSignal v).fw.sigLast r.num = s.tick + 1 ∧
      s.gives v ((s.signalsNow r).vecSignal v) ∧ s.changes [.regs, .fw, .out] ((s.signalsNow r).vecSignal v) := by
  have hfw : ((s.signalsNow r).vecSignal v).fw = (s.signalsNow r).fw := vecSignal_changes _ v .fw (by simp)
  rw [hfw]
  exact ⟨sget_sset_self (fun _ => 0) s.fw.sigDue r.num 0, sget_sset_self (fun _ => 0) s.fw.sigLast r.num (s.tick + 1), vecSignal_gives (s.signalsNow r) v,
    changes_trans (changes_mono (s.withFw_changes _) (by simp)) (changes_mono (vecSignal_changes _ v) (by simp))⟩

/-- A ring's signal writes the UCI page alone. -/
theorem reg_ringSignal_ne (s : State) (r : RingId) {x : Nat} (hx : 0x7000 ≤ x) : (s.ringSignal r).reg x = s.reg x := by
  by_cases h : s.windowOver r
  · rw [ringSignal_of_over h, reg_vecSignal_ne (s.vector_lt r) hx]; rfl
  · rw [ringSignal_of_open h]; rfl

end Sys2Proof.Machine.State
end

section
/-! PROOF. An entry put into a ring: where it stands, HEAD, and what it leaves for the signal (R377 to R379). -/

namespace Sys2Proof

theorem RingId.words_cases (r : RingId) : r.words = 4 ∨ r.words = 8 := by cases r <;> simp [RingId.words]

/-- Every HEAD stands on an FWC page. -/
theorem RingId.head_range (r : RingId) : 0x9000 ≤ r.head ∧ r.head < 0xB000 := by
  cases r with
  | cpl i => simp only [RingId.head]; omega
  | evt | log | trc => decide

theorem RingId.head_lt (r : RingId) : r.head < 0x400000 := by have := r.head_range; omega

/-- EXT_MAP is no HEAD. -/
theorem RingId.extMap_ne_head (r : RingId) : Machine.rOff .ext 0 0x300 ≠ r.head := by
  have := r.head_range
  simp only [Machine.rOff, Machine.Blk.base]; omega

theorem RingId.cfg_lt (r : RingId) : r.cfg < 0x400000 := by
  cases r with
  | cpl i => simp only [RingId.cfg]; omega
  | evt | log | trc => decide

theorem RingId.cfg_ne_head (r : RingId) : r.cfg ≠ r.head := by
  cases r with
  | cpl i => simp only [RingId.cfg, RingId.head]; omega
  | evt | log | trc => decide

/-- The HEAD copies lie in the first line of the ring area. -/
theorem RingId.shadow_le (r : RingId) : r.shadow + 8 ≤ 256 := by
  cases r with
  | cpl i => simp only [RingId.shadow]; omega
  | evt | log | trc => decide

end Sys2Proof

namespace Sys2Proof.Machine.State

variable {s t u : State} {r : RingId} {ws : List Word}

/-- HEAD once it has moved on by one entry. -/
def headNext (s : State) (r : RingId) : Nat := (s.fld r.head 16 0 + 1) % (2 * s.ringN r)

/-- The words of an entry with their PHASE (R378). -/
def slotWords (s : State) (r : RingId) (ws : List Word) : List Word := setBits (ws.headD 0) 0 0 (s.phase r).toNat :: ws.drop 1

/-- The entry stored in its slot and HEAD moved on. -/
def entryPut (s : State) (r : RingId) (ws : List Word) : State :=
  ((s.useFwSlots (s.slot r) (8 * r.words)).writeWords (s.slot r) (s.slotWords r ws)).setFld r.head 16 0 (s.headNext r)

/-- The state in which a ring that has taken an entry signals: the shadow block shows HEAD. -/
def beforeSignal (s : State) (r : RingId) (ws : List Word) : State := (s.entryPut r ws).shadow r.shadow (s.headNext r)

theorem phase_toNat (s : State) (r : RingId) : (s.phase r).toNat = if s.fld r.head 16 0 < s.ringN r then 1 else 0 := by
  unfold phase
  by_cases h : s.fld r.head 16 0 < s.ringN r <;> simp [h, b2n, place]

theorem bits_phase (s : State) (r : RingId) : bits (s.phase r) 0 0 = b2n (decide (s.fld r.head 16 0 < s.ringN r)) := by
  rw [phase, bits_place_self le_rfl (by omega)]
  cases decide (s.fld r.head 16 0 < s.ringN r) <;> rfl

theorem ringPut_eq (s : State) (r : RingId) (ws : List Word) : s.ringPut r ws = (s.beforeSignal r ws).ringSignal r := by
  rw [beforeSignal, entryPut, slotWords, phase_toNat]; rfl

/-! ### HEAD and the other registers -/

theorem ringN_pos (s : State) (r : RingId) : 0 < s.ringN r := Nat.two_pow_pos _

theorem ringN_le (s : State) (r : RingId) : s.ringN r ≤ 2 ^ 16 := by
  refine Nat.pow_le_pow_right (by omega) ((min_le_left _ _).trans ?_)
  cases r <;> simp

/-- HEAD's advance stays within its field. -/
theorem headNext_lt (s : State) (r : RingId) : s.headNext r < 2 ^ 17 := by
  have hpos := s.ringN_pos r
  have hle := s.ringN_le r
  exact (Nat.mod_lt _ (by omega)).trans_le (by omega)

theorem keepsRings_setFld (h : s.keepsRings t) {o : Nat} (ho : o < 0x400000) (hi lo v : Nat) :
    (s.setFld o hi lo v).keepsRings (t.setFld o hi lo v) := by
  obtain ⟨hlast, hreg⟩ := h
  exact ⟨hlast, fun x hx => by simp only [setFld, reg_setReg, hreg o ho, hreg x hx]⟩

/-- Below the tiles' pages only HEAD is written, and the rings' last signals stand. -/
theorem entryPut_keepsRings (s : State) (r : RingId) (ws : List Word) : (s.setFld r.head 16 0 (s.headNext r)).keepsRings (s.entryPut r ws) :=
  keepsRings_setFld (keepsRings_writeWords (keepsRings_useFwSlots (keepsRings_refl s) _ _) _ _) r.head_lt _ _ _

theorem reg_entryPut_ne (s : State) (ws : List Word) {o : Nat} (ho : o < 0x400000) (hne : o ≠ r.head) : (s.entryPut r ws).reg o = s.reg o :=
  ((s.entryPut_keepsRings r ws).2 o ho).trans (s.reg_setFld_ne hne _ _ _)

theorem beforeSignal_keepsRings (s : State) (r : RingId) (ws : List Word) :
    (s.setFld r.head 16 0 (s.headNext r)).keepsRings (s.beforeSignal r ws) := keepsRings_shadow (s.entryPut_keepsRings r ws) _ _

theorem reg_beforeSignal_ne (s : State) (ws : List Word) {o : Nat} (ho : o < 0x400000) (hne : o ≠ r.head) : (s.beforeSignal r ws).reg o = s.reg o :=
  ((s.beforeSignal_keepsRings r ws).2 o ho).trans (s.reg_setFld_ne hne _ _ _)

theorem head_beforeSignal (s : State) (r : RingId) (ws : List Word) : (s.beforeSignal r ws).fld r.head 16 0 = s.headNext r := by
  rw [fld, (s.beforeSignal_keepsRings r ws).2 _ r.head_lt, reg_setFld_self, bits_setBits_self _ (by omega) (by omega)]
  exact Nat.mod_eq_of_lt (s.headNext_lt r)

theorem beforeSignal_changes (s : State) (r : RingId) (ws : List Word) : s.changes lineParts (s.beforeSignal r ws) :=
  changes_trans (changes_trans (changes_trans (changes_mono (useFwSlots_changes _ _ _) (by simp [lineParts])) (writeWords_changes _ _ _))
    (changes_mono (setFld_changes _ _ _ _ _) (by simp [lineParts]))) (shadow_changes _ _ _)

/-! ### The slot -/

/-- A slot lies within one line. -/
theorem slot_line (s : State) (r : RingId) : s.slot r % 256 + 8 * r.words ≤ 256 := by
  unfold slot
  rcases r.words_cases with h | h <;> rw [h] <;> omega

theorem length_slotWords (s : State) (hw : ws.length = r.words) : (s.slotWords r ws).length = r.words := by
  have := r.words_cases
  rw [slotWords, List.length_cons, List.length_drop]; omega

theorem readWords_congr (hr : t.reg (rOff .ext 0 0x300) = s.reg (rOff .ext 0 0x300)) (hm : t.hbm = s.hbm) (a n : Nat) :
    t.readWords a n = s.readWords a n :=
  congrArg (bytesWords n) (readRegion_congr fun _ _ => ⟨regionPhys_congr hr _, fun p _ => rdB_congr hm p⟩)

/-- The entry stands in its slot. -/
theorem readWords_entryPut (hs : s.placed (s.slot r) (8 * r.words)) (hw : ws.length = r.words) :
    (s.entryPut r ws).readWords (s.slot r) r.words = s.slotWords r ws := by
  have hlen := s.length_slotWords hw
  have used := keepsRings_useFwSlots (keepsRings_refl s) (s.slot r) (8 * r.words)
  have placed : (s.useFwSlots (s.slot r) (8 * r.words)).placed (s.slot r) (8 * r.words) := fun i hi => by
    rw [regionPhys_congr (used.2 _ (by decide))]; exact hs i hi
  rw [← hlen] at placed
  rw [entryPut, readWords_congr (reg_setFld_ne _ r.extMap_ne_head _ _ _) (setFld_hbm _ _ _ _ _)]
  exact hlen ▸ readWords_writeWords_line (by rw [hlen]; exact s.slot_line r) placed

/-- HEAD's copy goes into one line of the shadow block: a range apart from that block reads as before. -/
theorem readWords_shadow_apart {a n : Nat} (h : s.apart a (8 * n) (s.fld 0x8220 51 12 * 4096) 4096) (r : RingId) (v : Nat) :
    (s.shadow r.shadow v).readWords a n = s.readWords a n := by
  have hend := r.shadow_le
  refine readWords_writeWords_apart (by simp) (by simp only [List.length_singleton]; omega) fun i hi j hj => ?_
  rw [Nat.add_assoc]
  exact h i hi _ (by simp only [List.length_singleton] at hj; omega)

theorem readWords_beforeSignal (hs : s.slotPlaced r) (hw : ws.length = r.words) :
    (s.beforeSignal r ws).readWords (s.slot r) r.words = s.slotWords r ws := by
  obtain ⟨hplaced, hapart⟩ := hs
  have harea : (s.entryPut r ws).reg 0x8220 = s.reg 0x8220 := s.reg_entryPut_ne ws (by omega) (by have := r.head_range; omega)
  rw [beforeSignal, readWords_shadow_apart, readWords_entryPut hplaced hw]
  intro i hi j hj
  rw [fld, harea, regionPhys_congr (s.reg_entryPut_ne ws (by decide) r.extMap_ne_head), regionPhys_congr (s.reg_entryPut_ne ws (by decide) r.extMap_ne_head)]
  exact hapart i hi j hj

end Sys2Proof.Machine.State
end

section
/-! PROOF. Obligation O26: an entry put into a ring, with its signal (R378, R381). -/

namespace Sys2Proof.Machine

namespace State

variable {s : State} {r : RingId} {ws : List Word}

/-- The entry stands in its slot and HEAD has moved on, whatever the signal does. -/
theorem ringPut_wrote (hs : s.slotPlaced r) (hw : ws.length = r.words) : s.wrote r (s.slotWords r ws) (s.ringPut r ws) := by
  rw [ringPut_eq]
  refine ⟨?_, ?_⟩
  · rw [readWords_congr (reg_ringSignal_ne _ r (by decide)) (ringSignal_changes _ r .hbm (by simp)), readWords_beforeSignal hs hw]
  · rw [fld, reg_ringSignal_ne _ r (by have := r.head_range; omega)]
    exact s.head_beforeSignal r ws

/-- The moderation finds the tick, the ring's last signal and its CFG as they were before the entry. -/
theorem beforeSignal_moderation (s : State) (r : RingId) (ws : List Word) :
    (s.beforeSignal r ws).tick = s.tick ∧ (s.beforeSignal r ws).fw.sigLast = s.fw.sigLast ∧
      ∀ hi lo, (s.beforeSignal r ws).fld r.cfg hi lo = s.fld r.cfg hi lo :=
  ⟨congrArg Tim.tick (s.beforeSignal_changes r ws .tim (by simp [lineParts])), (s.beforeSignal_keepsRings r ws).1,
    fun hi lo => congrArg (bits · hi lo) (s.reg_beforeSignal_ne ws r.cfg_lt r.cfg_ne_head)⟩

theorem windowOver_beforeSignal (s : State) (r : RingId) (ws : List Word) : (s.beforeSignal r ws).windowOver r ↔ s.windowOver r := by
  obtain ⟨htick, hlast, hcfg⟩ := s.beforeSignal_moderation r ws
  rw [windowOver, htick, hlast, hcfg, windowOver]

theorem beforeSignal_out (s : State) (r : RingId) (ws : List Word) : (s.beforeSignal r ws).out = s.out :=
  s.beforeSignal_changes r ws .out (by simp [lineParts])

/-- With no window open, HEAD's advance signals at once. -/
theorem ringPut_of_over (h : s.windowOver r) (ws : List Word) :
    sget (fun _ => 0) (s.ringPut r ws).fw.sigLast r.num = s.tick + 1 ∧ s.gives (s.fld r.cfg 40 32) (s.ringPut r ws) := by
  obtain ⟨htick, -, hcfg⟩ := s.beforeSignal_moderation r ws
  obtain ⟨-, hlast, hgives, -⟩ := signalsNow_vecSignal (s.beforeSignal r ws) r (s.fld r.cfg 40 32)
  rw [ringPut_eq, ringSignal_of_over ((windowOver_beforeSignal s r ws).mpr h), hcfg]
  have hvector := s.vector_lt r
  have hmask : rOff .uci 0 (0x240 + s.fld r.cfg 40 32 / 64 * 8) < 0x7000 := by simp only [rOff, Blk.base]; omega
  have hhead := r.head_range
  exact ⟨hlast.trans (by rw [htick]), gives_congr (s.beforeSignal_out r ws) (s.reg_beforeSignal_ne ws (by omega) (by omega)) hgives⟩

/-- Within an open window, HEAD's advance makes a signal due at its end. -/
theorem ringPut_of_open (h : ¬ s.windowOver r) (ws : List Word) :
    (s.ringPut r ws).out = s.out ∧ (s.ringPut r ws).fw.sigLast = s.fw.sigLast ∧
      sget (fun _ => 0) (s.ringPut r ws).fw.sigDue r.num = tadd (sget (fun _ => 0) s.fw.sigLast r.num - 1) (s.fld r.cfg 63 56 + 1) + 1 := by
  obtain ⟨-, hlast, hcfg⟩ := s.beforeSignal_moderation r ws
  rw [ringPut_eq, ringSignal_of_open (mt (windowOver_beforeSignal s r ws).mp h)]
  exact ⟨s.beforeSignal_out r ws, hlast, by rw [signalsLater_due, hlast, hcfg]⟩

end State

theorem exec_ringVectorSignal (r : RingId) (s : State) : exec (.ringVectorSignal r) s = .next (s.signalDue r) := rfl

/-- Settles O26: the entry's write reaches no register below the tiles' pages but HEAD, so the moderation decides as it would have before the entry;
each of its branches, and the signal at a window's end, is read off `ringSignal` and `signalDue`. -/
theorem vectorsAreModerated : Obligations.VectorsAreModerated := by
  refine ⟨fun r ws s hs hw => ⟨State.ringPut_wrote hs hw, s.bits_phase r, fun hover => ?_, fun hopen => ?_⟩,
    fun r s => ⟨fun hnot => ?_, fun hdue ht => ?_⟩⟩
  · obtain ⟨hlast, hmessage, hpending⟩ := State.ringPut_of_over hover ws
    exact ⟨hlast, hmessage, hpending⟩
  · obtain ⟨hout, hlast, hdue⟩ := State.ringPut_of_open hopen ws
    exact ⟨hout, congrArg (sget (fun _ => 0) · r.num) hlast, hdue⟩
  · rw [exec_ringVectorSignal, State.signalDue_of_not_due hnot]
  · obtain ⟨hnone, hlast, ⟨hmessage, hpending⟩, hparts⟩ := s.signalsNow_vecSignal r (s.fld r.cfg 40 32)
    have hrun : exec (.ringVectorSignal r) s = .next ((s.signalsNow r).vecSignal (s.fld r.cfg 40 32)) := by
      rw [exec_ringVectorSignal, State.signalDue_of_due hdue ht]
    exact ⟨_, hrun, hnone, hlast, fun hmask => (hpending hmask).symm, hmessage, hparts⟩

end Sys2Proof.Machine
end

section
/-! PROOF. What a page's signal leaves alone among the registers (R392, R393, R440): it counts and marks on the UCI page and writes firmware's and the
HMC pages, so no register below the vectors' pending bits but the count of messages. -/

namespace Sys2Proof.Machine

/-- A register that stands below the vectors' pending bits and is not the count of messages: no signal writes it. -/
abbrev unsignalled (x : Nat) : Prop := x < 0x6280 ∧ x ≠ 0x6150

theorem ne_fwc_of_unsignalled {x : Nat} (hx : unsignalled x) (o : Nat) : x ≠ rOff .fwc 0 o := by
  have hlow := hx.1
  simp only [rOff, Blk.base]; omega

theorem bit_or_place_self (w : Word) {k : Nat} (hk : k < 64) : bit (w ||| place k k 1) k = true := by
  have hp : bit (place k k 1) k = true := by
    rw [bit_place le_rfl, Nat.sub_self, decide_eq_true ⟨le_rfl, le_rfl, hk⟩]; rfl
  rw [bit, BitVec.getLsbD_or]
  exact (congrArg _ hp).trans (Bool.or_true _)

namespace State

variable {x : Nat}

theorem reg_vecSignal_unsignalled (s : State) (hx : unsignalled x) (v : Nat) : (s.vecSignal v).reg x = s.reg x := by
  obtain ⟨hlow, hcount⟩ := hx
  cases h : bit (s.reg (rOff .uci 0 (0x240 + v / 64 * 8))) (v % 64) with
  | true => rw [vecSignal_of_masked h, reg_setReg_ne _ (by simp only [rOff, Blk.base]; omega)]
  | false => rw [vecSignal_of_unmasked h, reg_bump_ne _ (by simpa [rOff, Blk.base] using hcount)]; rfl

theorem reg_ringPut_unsignalled (s : State) (hx : unsignalled x) (r : RingId) (ws : List Word) : (s.ringPut r ws).reg x = s.reg x := by
  have hlow := hx.1
  have hhead := r.head_range
  have hbefore : (s.beforeSignal r ws).reg x = s.reg x := s.reg_beforeSignal_ne ws (by omega) (by omega)
  rw [ringPut_eq]
  by_cases h : (s.beforeSignal r ws).windowOver r
  · rw [ringSignal_of_over h, reg_vecSignal_unsignalled _ hx]; exact hbefore
  · rw [ringSignal_of_open h]; exact hbefore

/-- A dropped event is counted and marked on firmware's page, which signals its own target. -/
theorem reg_dropEvent_unsignalled (s : State) (hx : unsignalled x) : s.dropEvent.reg x = s.reg x := by
  have marked : ∀ (u : State) (w : Word), u.reg x = s.reg x → (u.setReg (rOff .fwc 0 0x20) w).reg x = s.reg x :=
    fun u w hu => (u.reg_setReg_ne (ne_fwc_of_unsignalled hx _) w).trans hu
  have counted : (s.bump .fwc 0 0x128).reg x = s.reg x := s.reg_bump_ne (ne_fwc_of_unsignalled hx _)
  unfold dropEvent
  simp only
  split_ifs
  · exact (reg_vecSignal_unsignalled _ hx _).trans (marked _ _ counted)
  · exact marked _ _ counted

theorem reg_postEvent_unsignalled (s : State) (hx : unsignalled x) (e : EventRec) : (s.postEvent e).reg x = s.reg x := by
  unfold postEvent postEventAt
  split_ifs
  · rw [reg_bump_ne _ (ne_fwc_of_unsignalled hx _), reg_ringPut_unsignalled s hx]
  · rfl
  · exact s.reg_dropEvent_unsignalled hx

theorem reg_signalPage_unsignalled (s : State) (hx : unsignalled x) (b : Blk) (i : Nat) : (s.signalPage b i).reg x = s.reg x := by
  unfold signalPage
  simp only
  split_ifs
  · rfl
  · exact (reg_postEvent_unsignalled _ hx _).trans (reg_vecSignal_unsignalled _ hx _)
  · exact reg_postEvent_unsignalled _ hx _
  · exact reg_vecSignal_unsignalled _ hx _
  · rfl

/-- An event raised writes its page's EVT_STATUS, and beside it what the page's signal does. -/
theorem reg_raise_unsignalled (s : State) (hx : unsignalled x) (b : Blk) (i k : Nat) :
    (s.raise b i k).reg x = (s.setReg (rOff b i 0x20) (s.reg (rOff b i 0x20) ||| place k k 1)).reg x := by
  unfold raise
  simp only
  split_ifs
  · exact reg_signalPage_unsignalled _ hx b i
  · rfl

theorem reg_raise_ne (s : State) (hx : unsignalled x) {b : Blk} {i : Nat} (hne : x ≠ rOff b i 0x20) (k : Nat) : (s.raise b i k).reg x = s.reg x :=
  (s.reg_raise_unsignalled hx b i k).trans (s.reg_setReg_ne hne _)

theorem bit_raise_self (s : State) {b : Blk} {i k : Nat} (ho : unsignalled (rOff b i 0x20)) (hk : k < 64) :
    bit ((s.raise b i k).reg (rOff b i 0x20)) k = true := by
  rw [s.reg_raise_unsignalled ho, reg_setReg_self]
  exact bit_or_place_self _ hk

end State

end Sys2Proof.Machine
end

section
/-! PROOF. Obligation O55: the host die's report that it is alive, and its absence (R472, R474, R477). -/

namespace Sys2Proof.Machine

namespace State

/-- STATE of UCI_HOST_STATUS takes a value and an event of the UCI page is raised. -/
def hostMoves (s : State) (v k : Nat) : State := (s.setFld uciStatus 1 0 v).raise .uci 0 k

theorem hostMoves_state (s : State) {v : Nat} (hv : v < 4) (k : Nat) : (s.hostMoves v k).fld uciStatus 1 0 = v := by
  rw [fld, hostMoves, reg_raise_ne _ (by decide) (by decide), reg_setFld_self, bits_setBits_self _ (by decide) (by decide)]
  exact Nat.mod_eq_of_lt hv

theorem hostMoves_raises (s : State) (v : Nat) {k : Nat} (hk : k < 64) : bit ((s.hostMoves v k).reg (rOff .uci 0 0x20)) k = true :=
  bit_raise_self _ (by decide) hk

theorem reg_hostMoves_alive (s : State) (v k : Nat) : (s.hostMoves v k).reg uciAlive = s.reg uciAlive :=
  (reg_raise_ne _ (by decide) (by decide) k).trans (s.reg_setFld_ne (by decide) _ _ _)

theorem hostMoves_changes (s : State) (v k : Nat) : s.changes raiseParts (s.hostMoves v k) :=
  changes_trans (changes_mono (s.setFld_changes _ _ _ _) (by simp [raiseParts, postParts, lineParts])) (raise_changes _ _ _ _)

variable {s : State}

/-! ### UCI_HOST_ALIVE -/

theorem aliveWrite_of_eq {v : Word} (hv : v = 0) : s.aliveWrite v = s.setReg uciAlive v := if_pos (Or.inl hv)

/-- Writing UCI_HOST_ALIVE leaves the die as held, or as released, as it was. -/
theorem hostHeld_setAlive (s : State) (v : Word) : (s.setReg uciAlive v).hostHeld = s.hostHeld :=
  congrArg (bit · 0) (s.reg_setReg_ne (by decide) v)

theorem aliveWrite_of_ne (hheld : s.hostHeld = false) {v : Word} (hv : v ≠ 0) : s.aliveWrite v = (s.setReg uciAlive v).hostMoves 2 3 :=
  if_neg (not_or.mpr ⟨hv, by rw [hostHeld_setAlive, hheld]; decide⟩)

theorem aliveWrite_changes (hheld : s.hostHeld = false) (v : Word) : s.changes raiseParts (s.aliveWrite v) := by
  have hset : s.changes raiseParts (s.setReg uciAlive v) := changes_mono (s.setReg_changes _ _) (by simp [raiseParts, postParts, lineParts])
  by_cases hv : v = 0
  · rwa [aliveWrite_of_eq hv]
  · rw [aliveWrite_of_ne hheld hv]
    exact changes_trans hset (hostMoves_changes _ _ _)

theorem reg_aliveWrite_alive (hheld : s.hostHeld = false) (v : Word) : (s.aliveWrite v).reg uciAlive = v := by
  by_cases hv : v = 0
  · rw [aliveWrite_of_eq hv, reg_setReg_self]
  · rw [aliveWrite_of_ne hheld hv, reg_hostMoves_alive, reg_setReg_self]

theorem hostDone_mem_respond (s : State) : .hostDone ∈ (s.respond .hostDie true).out := List.mem_append_right _ (List.mem_singleton_self _)

theorem exec_hostAlive_held (hheld : s.hostHeld = true) (v : Word) : exec (.hostAlive v) s = .next s :=
  congrArg Host.Outcome.next (if_pos hheld)

theorem exec_hostAlive_released (hheld : s.hostHeld = false) (v : Word) : exec (.hostAlive v) s = .next ((s.aliveWrite v).respond .hostDie true) :=
  congrArg Host.Outcome.next (if_neg (ne_true_of_eq_false hheld))

/-! ### BOOT_TMO_MS -/

/-- BOOT_TMO_MS have passed with STATE still BOOTING; 0 acts as 5,000 (R477). -/
def bootOverdue (s : State) (ms : Nat) : Prop :=
  s.fld uciStatus 1 0 = 1 ∧ (if s.fld uciCtrl 31 16 = 0 then 5000 else s.fld uciCtrl 31 16) ≤ ms

theorem exec_hostBootTimeout_of_not_due {ms : Nat} (h : ¬ s.bootOverdue ms) : exec (.hostBootTimeout ms) s = .next s :=
  congrArg Host.Outcome.next (if_neg h)

theorem exec_hostBootTimeout_of_due {ms : Nat} (h : s.bootOverdue ms) : exec (.hostBootTimeout ms) s = .next (s.hostMoves 3 4) :=
  congrArg Host.Outcome.next (if_pos h)

end State

/-- Settles O55: both rows give STATE its value and raise an event of the UCI page, and the signal of that event reaches neither UCI_HOST_STATUS nor
UCI_HOST_ALIVE. -/
theorem theHostDieComesAlive : Obligations.TheHostDieComesAlive := by
  refine fun s => ⟨fun hheld v => State.exec_hostAlive_held hheld v, fun hheld v => ?_,
    fun ms => ⟨fun hnot => State.exec_hostBootTimeout_of_not_due hnot, fun hdue => ?_⟩⟩
  · have hparts : s.changes raiseParts ((s.aliveWrite v).respond .hostDie true) :=
      State.changes_trans (State.aliveWrite_changes hheld v) (State.changes_mono (State.respond_changes _ _ _) (by simp [raiseParts, postParts, lineParts]))
    refine ⟨_, State.exec_hostAlive_released hheld v, ?_, State.hostDone_mem_respond _, hparts, ?_⟩
    · exact (State.respond_reg _ _ _).trans (State.reg_aliveWrite_alive hheld v)
    · rw [State.fld, State.respond_reg, State.respond_reg]
      split_ifs with hv
      · rw [State.aliveWrite_of_eq hv]
        exact s.reg_setReg_ne (by decide) v
      · rw [State.aliveWrite_of_ne hheld hv]
        exact ⟨State.hostMoves_state _ (by decide) 3, State.hostMoves_raises _ 2 (by decide)⟩
  · exact ⟨_, State.exec_hostBootTimeout_of_due hdue, s.hostMoves_state (by decide) 4, s.hostMoves_raises 3 (by decide), s.hostMoves_changes 3 4⟩

end Sys2Proof.Machine
end
